-- ==== Sys2Proof/Word.lean ====
section
/-! DEFINITION. The word types of the KX9800 (R4: everything multi-byte is little-endian) and the plain records that
carry a command's operands. -/

namespace Sys2Proof

/-- One byte. -/
abbrev Byte := BitVec 8
/-- A 32-bit register or register half. -/
abbrev W32 := BitVec 32
/-- A 64-bit word. -/
abbrev W64 := BitVec 64
/-- A string of bytes, the lowest address first. -/
abbrev Bytes := List (BitVec 8)

/-- The fields of a sorter instruction word (R90), without OP, which the command names. -/
structure SrFields where
  d : Nat
  a : Nat
  b : Nat
  i : Bool
  imm : Nat
  deriving DecidableEq, Repr

/-- The fields of a recipe instruction word (R233), without OP. -/
structure RcFields where
  d : Nat
  a : Nat
  b : Nat
  imm : Nat
  deriving DecidableEq, Repr

/-- Assay format R (R307). -/
structure FmtR where
  d : Nat
  a : Nat
  b : Nat
  m : Nat
  t : Nat
  deriving DecidableEq, Repr

/-- Assay format I (R307); `imm` is the 12-bit field as it stands in the word. -/
structure FmtI where
  d : Nat
  a : Nat
  imm : Nat
  deriving DecidableEq, Repr

/-- Assay format M (R307). -/
structure FmtM where
  d : Nat
  a : Nat
  w : Nat
  m : Nat
  ofs : Nat
  deriving DecidableEq, Repr

/-- Assay format B (R307); `rel` is the 12-bit field as it stands in the word. -/
structure FmtB where
  cond : Nat
  m : Nat
  a : Nat
  rel : Nat
  deriving DecidableEq, Repr

/-- Assay format K (R307). -/
structure FmtK where
  md : Nat
  ma : Nat
  mb : Nat
  x : Nat
  deriving DecidableEq, Repr

/-- Which core of which logical bench runs an Assay instruction (R278): in LOCKSTEP the thread is not used. -/
structure Core where
  bench : Nat
  thread : Nat
  deriving DecidableEq, Repr

/-- One block as a lane delivers it (R52, R60): the physical lane of the part, the sync header, the eight bytes, and the plant time at
which its first bit crossed the pins (R66). -/
structure RxBlock where
  lane : Nat
  sync : Nat
  data : List (BitVec 8)
  time : W64
  deriving DecidableEq, Repr

/-- One flit as it reaches the receiver (R60): its blocks, those of one lane in the order that lane delivers them. `again` says that the
transmitter has sent it before (R70, R81). -/
structure Flit where
  blocks : List RxBlock
  again : Bool
  deriving DecidableEq, Repr

/-- What one lane delivers of an ALIGN row (R54, R55): the physical lane of the part, the eight bytes of the block, the BIP-8 that the
receiver has over the lane's blocks since its last ALIGN (log 93), and the arrival in blocks after the first lane's. -/
structure LaneAlign where
  lane : Nat
  block : List (BitVec 8)
  bipSeen : Byte
  skew : Nat
  deriving DecidableEq, Repr

/-- An ECC error (R135, R231, R443): the number of the unit, cell or slot in which it is found, and whether it was corrected. -/
structure EccError where
  site : Nat
  corrected : Bool
  deriving DecidableEq, Repr

/-- Who had a slot of reduction memory (R231, log 97): an operation, or the floor pool or the general one, where it lay free. -/
inductive SlotHolder where
  | op (group opseq : Nat)
  | pool (floor : Bool)
  deriving DecidableEq, Repr

/-- What a poll had brought before a Swap of it failed (R380): the SECOND words that its Swaps returned, by group, and the doorbell words that it
read, by ring. -/
structure PollRead where
  seconds : List (Nat × BitVec 64)
  doorbells : List (Nat × BitVec 32)
  deriving DecidableEq, Repr

end Sys2Proof
end

