-- ==== Sys2Proof/Syntax.lean ====
section
/-! DEFINITION. The commands of the KX9800: one constructor for each row of spec/opcode_table.json, in the table's order. -/

namespace Sys2Proof

/-- A command that reaches the device, or an event that comes about in it. -/
inductive Instr where
  /-- PT_STEP (R25). A host write of PT_STEP_HI applies a signed step to plant time, or is refused with STEP_REJ while any strike comparator is armed. -/
  | ptStep (v : W32)
  /-- PT_RATE_LO_WRITE (R49). A host write of PT_RATE_LO is held until the next write of PT_RATE_HI; it is ignored in PPS, PORT and TWIN modes. -/
  | ptRateLoWrite (v : W32)
  /-- PT_RATE_HI_WRITE (R49). A host write of PT_RATE_HI sets the whole rate at once from this word and the held low word, clamped under R25. -/
  | ptRateHiWrite (v : W32)
  /-- PT_CTRL_WRITE (R22). A write of PT_CTRL selects the source of discipline and the source port; a reserved SRC_SEL value makes the whole write ignored and sets CFG_REJ. -/
  | ptCtrlWrite (v : W32)
  /-- PT_NOW_LO_READ (R49). A read of PT_NOW_LO returns count bits [31:0] and latches bits [63:32] into PT_NOW_HI. -/
  | ptNowLoRead
  /-- PT_CMP_RES_WRITE (R42). A write of the comparator reservations is accepted, or refused with CONFLICT when the sums or the present holdings do not allow it. -/
  | ptCmpResWrite (v : W32)
  /-- BEAT_STAT_CLR (R49). Writing 1 to BEAT_STAT.CLR clears the count of rejected beat edges. -/
  | beatStatClr (v : W32)
  /-- BEAT_STAMP_LO_READ (R493). A read of BEAT_STAMP_LO returns the low stamp bits and latches the high half. -/
  | beatStampLoRead
  /-- PPS_EDGE (R23). A rising edge on PT_PPS_IN is time-stamped, and in PPS mode the servo measures its error from the stamp. -/
  | ppsEdge
  /-- TIME_MARKER (R66). A complete time marker is received; the receiver computes its error against the peer and, in PORT or TWIN mode, disciplines the count. -/
  | timeMarker (p : Nat)
  /-- SOURCE_LOST (R26). No PPS edge for 1.5 s, or no first-transmission marker for 4 intervals, puts the plant-time unit in HOLDOVER and sets LOSS. -/
  | sourceLost
  /-- TIME_MARKER_SEND (R67). Every 2^INTERVAL ticks each port in UP and the twin link begin a time marker in their trailers. -/
  | timeMarkerSend (p : Nat)
  /-- BEAT_IN_EDGE (R31). A selected BEAT_IN edge is accepted or rejected under MIN_GAP; an accepted beat is counted, stamped, logged and sent as a beat marker. -/
  | beatInEdge (rising : Bool)
  /-- BEAT_MARKER (R32). A complete beat marker from the upstream link is entered into the beat count and log with the stamp it carries. -/
  | beatMarker (p : Nat)
  /-- STRIKE_DEADLINE (R38). A beat-relative comparator reaches its deadline before the beat arrives; the descriptor completes with STRIKE_LATE and the comparator is released. -/
  | strikeDeadline (c : Nat)
  /-- LAUNCH_STRIKE (R259). A LAUNCH comparator fires and starts its collective, update, weight-store send or Assay launch. -/
  | launchStrike (c : Nat)
  /-- COMMIT_STRIKE (R355). At the COMMIT strike of an update each device flips the epoch, drops the new version, or puts the set IN_DOUBT. -/
  | commitStrike (c : Nat)
  /-- TABLE_DRAIN_STRIKE (R114). The DRAIN strike of a TABLE_SWAP fires, and packets from endpoint ports using dirty entries or rewritten programs are held at ingress. -/
  | tableDrainStrike (c : Nat)
  /-- TABLE_SWAP_STRIKE (R114). The SWAP strike exchanges the selected banks, increments EPOCH when TABLE is set, releases held packets and completes the descriptor. -/
  | tableSwapStrike (c : Nat)
  /-- TWIN_COMMIT_STRIKE (R431). At the strike of a TWIN_COMMIT or TWIN_SYNC each member applies, keeps or discards the batch as TW_GO and REFUSE decided. -/
  | twinCommitStrike (c : Nat)
  /-- TWIN_PROMOTE_STRIKE (R438). At the promotion strike the follower's ROLE becomes LEAD while its state stays SOLO. -/
  | twinPromoteStrike (c : Nat)
  /-- GATE_CYCLE_START (R46). A gate engine begins a new cycle of its gate list at GE_BASE plus k times GE_CYCLE. -/
  | gateCycleStart (g : Nat)
  /-- GATE_ENTRY_BOUNDARY (R158). A gate-list entry's interval ends and the next entry's per-class gates come into force. -/
  | gateEntryBoundary (g : Nat)
  /-- GE_CTRL_WRITE (R47). A write of GE_CTRL enables or disables an engine, refused when the list does not sum to GE_CYCLE, fails R161, or ports are bound. -/
  | geCtrlWrite (g : Nat) (v : W32)
  /-- GE_SWAP_HI_WRITE (R48). A write of GE_SWAP_HI arms the swap of the engine's shadow list. -/
  | geSwapHiWrite (g : Nat) (v : W32)
  /-- PPS_OUT_PULSE (R49). When EN is set, PT_PPS_OUT is driven high at each count whose low 32 bits are zero, for WIDTH units. -/
  | ppsOutPulse
  /-- CANARY_TOGGLE (R455). CANARY changes level at each millisecond crossing of the fraction of plant time. -/
  | canaryToggle
  /-- CANARY_GAP_TOGGLE (R455). CANARY changes level anyway when no change has come for 1,048,576 local clock cycles. -/
  | canaryGapToggle
  /-- BLOCK_LOCK_GAINED (R53). A lane gains block lock after 64 consecutive valid sync headers. -/
  | blockLockGained (l : Nat)
  /-- BLOCK_LOCK_LOST (R53). A lane loses block lock when 16 of 64 consecutive sync headers are invalid, which counts as a loss of lock. -/
  | blockLockLost (l : Nat)
  /-- ALIGN_SEND (R55). Every alignment period of 16,384 blocks each lane of a port sends an ALIGN row carrying its BIP-8. -/
  | alignSend (p : Nat) (bips : List (BitVec 8))
  /-- ALIGN (R74). A received ALIGN row orders and deskews the lanes and compares BIP-8, charging the period's retries to disagreeing lanes. -/
  | align (p : Nat) (rows : List LaneAlign)
  /-- ELASTIC_IDLE_ADJUST (R59). A receiver's elastic buffer deletes or inserts whole IDLE rows to match rates. -/
  | elasticIdleAdjust (p : Nat) (add : Bool)
  /-- FLIT_RECEIVE (R69). A flit is accepted when its CRC, framing and SEQ are good; otherwise the receiver enters DISCARD and sends RETRY_REQ. -/
  | flitReceive (p : Nat) (f : Flit)
  /-- FLIT_SEND (R68). The transmitter sends the next numbered flit and keeps it in the replay buffer, decrementing each cell's count as a copy's bytes enter. -/
  | flitSend (p : Nat)
  /-- RETRY_REQ (R70). On a received RETRY_REQ the transmitter finishes its flit, sends RETRY_START and replays from the named flit. -/
  | retryReq (p : Nat) (blocks : List (List (BitVec 8)))
  /-- RETRY_START (R69). A RETRY_START naming the expected sequence number ends the receiver's DISCARD state. -/
  | retryStart (p : Nat) (blocks : List (List (BitVec 8)))
  /-- RETRY_REQ_TIMEOUT (R69). No matching RETRY_START within REQ_TMO makes the receiver send RETRY_REQ again. -/
  | retryReqTimeout (p : Nat)
  /-- ACK_TIMEOUT (R70). The oldest unacknowledged flit waits ACK_TMO without an ACK advance, and the transmitter replays from it. -/
  | ackTimeout (p : Nat)
  /-- TRAIN (R81). A received TRAIN row advances the stage exchange of fences and ACKED; after STAGE 2 the transmitter resumes after the peer's ACKED. -/
  | train (p : Nat) (stage fences acked : List (BitVec 8 × BitVec 8))
  /-- LOSS_OF_SIGNAL (R73). A receive lane's loss-of-signal detector asserts. -/
  | lossOfSignal (l : Nat)
  /-- LOSS_OF_LOCK (R73). A receive lane's loss-of-lock detector asserts for clock recovery or block lock. -/
  | lossOfLock (l : Nat)
  /-- LANE_LOSS_FENCE (R75). Loss of signal or lock lasting 2^LOSS_HOLD microseconds fences the lane. -/
  | laneLossFence (l : Nat)
  /-- LANE_LOCK_TIMEOUT (R83). A lane without block lock 1 ms after entering LOCK moves to its next valid alternative, or is fenced when none remains. -/
  | laneLockTimeout (l : Nat)
  /-- BRINGUP_TIMEOUT (R82). A port that has not reached UP within TRAIN_TMO goes DOWN with CAUSE TIMEOUT. -/
  | bringupTimeout (p : Nat)
  /-- QUALIFY_DONE (R82). A port completes 2^QUAL_EXP qualifying flits and reaches UP. -/
  | qualifyDone (p : Nat)
  /-- LN_GROUP_CFG_WRITE (R84). A write of LN_GROUP_CFG takes all ports of the group OFF and brings them up at the new width. -/
  | lnGroupCfgWrite (g : Nat) (v : W32)
  /-- LN_UNFENCE (R84). A write naming a lane removes this device's fence on it and retrains its port from SIGNAL. -/
  | lnUnfence (v : W32)
  /-- LN_CNT_CLR (R85). Writing bit 31 clears the named port's LN_PORT_CNT. -/
  | lnCntClr (v : W32)
  /-- PACKET_ARRIVE (R87). A whole packet arrives at a fabric or endpoint port, is checked and fixed up under R87, and is charged to its ingress partition. -/
  | packetArrive (p : Nat)
  /-- SORTER_CLASSIFY (R88). The lane group's sorter runs its program over a waiting packet, which is then policed, checked for length, routed and queued. -/
  | sorterClassify (g : Nat)
  /-- RSQ_GAP_TIMEOUT (R104). The expected packet of an ordered flow has not come within RSQ_GAP, so a gap is declared and held packets are delivered. -/
  | rsqGapTimeout (flow : Nat)
  /-- FENCE_RELEASE (R102). A held FENCE packet is sent once every earlier packet of its triple has been acknowledged or pushed out. -/
  | fenceRelease (p : Nat)
  /-- HELD_PACKET_TIMEOUT (R109). A control or CL_DATA packet held for an operation not launched within ORDER_TMO is discarded. -/
  | heldPacketTimeout (p : Nat)
  /-- FENCED_NAK (R138). A FENCED_NAK notice arrives for a request of this device, and its descriptor completes with UNIT_FENCED. -/
  | fencedNak (p : Nat)
  /-- PRUNED (R140). A PRUNED notice arrives, and the operation will complete with FENCED_MEMBER naming the lowest endpoint. -/
  | pruned (p : Nat)
  /-- TABLE_SWAP (R114). A TABLE_SWAP descriptor is judged at fetch and takes two TABLE comparators for its DRAIN and SWAP strikes. -/
  | tableSwap (r : Nat)
  /-- OLD_BANK_RETIRE (R116). 2^RETIRE_EXP ticks after SWAP the active bank is copied to the shadow, DIRTY bits clear and OLD_LIVE clears. -/
  | oldBankRetire
  /-- DT_SHADOW_WRITE (R112). A write of a shadow destination-table entry sets its DIRTY bit, or is ignored with WR_REJ while a swap is pending or OLD_LIVE is set. -/
  | dtShadowWrite (e w : Nat) (v : W32)
  /-- SP_SHADOW_WRITE (R112). A write of a shadow sorter program or LUT, ignored with WR_REJ while a swap is pending or OLD_LIVE is set. -/
  | spShadowWrite (g w : Nat) (v : W32)
  /-- RT_CNT_CLR (R117). Writing 1 clears every routing counter. -/
  | rtCntClr (v : W32)
  /-- SORTER_END (R91). Sorter instruction END: classification is complete. -/
  | srEnd (g : Nat) (f : SrFields)
  /-- SORTER_DROP (R91). Sorter instruction DROP discards the packet and counts it. -/
  | srDrop (g : Nat) (f : SrFields)
  /-- SORTER_LDH (R92). Sorter instruction LDH loads a header or port field into a register. -/
  | srLdh (g : Nat) (f : SrFields)
  /-- SORTER_LDI (R91). Sorter instruction LDI loads the immediate. -/
  | srLdi (g : Nat) (f : SrFields)
  /-- SORTER_LUI (R91). Sorter instruction LUI loads the immediate into the upper half. -/
  | srLui (g : Nat) (f : SrFields)
  /-- SORTER_ADD (R91). Sorter instruction ADD adds modulo 2^32. -/
  | srAdd (g : Nat) (f : SrFields)
  /-- SORTER_SUB (R91). Sorter instruction SUB subtracts modulo 2^32. -/
  | srSub (g : Nat) (f : SrFields)
  /-- SORTER_AND (R91). Sorter instruction AND. -/
  | srAnd (g : Nat) (f : SrFields)
  /-- SORTER_OR (R91). Sorter instruction OR. -/
  | srOr (g : Nat) (f : SrFields)
  /-- SORTER_XOR (R91). Sorter instruction XOR. -/
  | srXor (g : Nat) (f : SrFields)
  /-- SORTER_SHL (R91). Sorter instruction SHL shifts left. -/
  | srShl (g : Nat) (f : SrFields)
  /-- SORTER_SHR (R91). Sorter instruction SHR shifts right logically. -/
  | srShr (g : Nat) (f : SrFields)
  /-- SORTER_HASH (R91). Sorter instruction HASH computes CRC-32C over two operands. -/
  | srHash (g : Nat) (f : SrFields)
  /-- SORTER_LUT (R91). Sorter instruction LUT reads the look-up table. -/
  | srLut (g : Nat) (f : SrFields)
  /-- SORTER_JEQ (R91). Sorter instruction JEQ jumps forward when equal. -/
  | srJeq (g : Nat) (f : SrFields)
  /-- SORTER_JNE (R91). Sorter instruction JNE jumps forward when not equal. -/
  | srJne (g : Nat) (f : SrFields)
  /-- SORTER_JLT (R91). Sorter instruction JLT jumps forward when less, unsigned. -/
  | srJlt (g : Nat) (f : SrFields)
  /-- SORTER_JGE (R91). Sorter instruction JGE jumps forward when greater or equal, unsigned. -/
  | srJge (g : Nat) (f : SrFields)
  /-- SORTER_JMP (R91). Sorter instruction JMP jumps forward. -/
  | srJmp (g : Nat) (f : SrFields)
  /-- SORTER_OUT (R91). Sorter instruction OUT sets TC, FLOW, POL, DTE or ORD from a register. -/
  | srOut (g : Nat) (f : SrFields)
  /-- UNIT_CELL_TAKE (R130). A waiting unit takes all cells of its next packet at once, from its reservation and then the shared pool, once they suffice. -/
  | unitCellTake (u : Nat)
  /-- BUFFER_ECC_ERROR (R135). A departing copy meets an uncorrectable buffer error; the copy is discarded and the cell is retired. -/
  | bufferEccError (p q : Nat) (cell : EccError)
  /-- FLOW_CTX_FETCH (R145). A flow-context fetch from the backing store completes after a cache miss, and the waiting packet is queued. -/
  | flowCtxFetch (flow : Nat)
  /-- FLOW_CTX_WRITE (R146). FLOW_CTX with OP WRITE writes context images and the valid map, delivering any held packets first. -/
  | flowCtxWrite (r : Nat) (images : Bytes)
  /-- FLOW_CTX_READ (R146). FLOW_CTX with OP READ reads contexts into host images. -/
  | flowCtxRead (r : Nat)
  /-- FLOW_CTX_ZERO (R146). FLOW_CTX with OP ZERO zeroes PKTS, BYTES and LAST of the named contexts. -/
  | flowCtxZero (r : Nat)
  /-- QT_PORT_QF_WRITE (R124). A write of a port's Q and F partitions, refused when below 17 cells, 0xFFFF, port not OFF, or over the reservation sum. -/
  | qtPortQfWrite (p : Nat) (v : W32)
  /-- QT_PORT_PC_WRITE (R124). A write of a port's P and C partitions, with the refusals of R124 and R126. -/
  | qtPortPcWrite (p : Nat) (v : W32)
  /-- QT_PORT_RSQ_WRITE (R124). A write of a port's resequencing quota, with the refusals of R124 and R126. -/
  | qtPortRsqWrite (p : Nat) (v : W32)
  /-- QT_UNIT_WRITE (R130). A write of a unit's MIN and MAX, refused when MAX is below MIN, a field is 0xFFFF, or the reservation sum is exceeded. -/
  | qtUnitWrite (u : Nat) (v : W32)
  /-- FD_MAP_WRITE (R136). A write of FD_MAP fences or unfences endpoints at this device. -/
  | fdMapWrite (i : Nat) (v : W32)
  /-- LR_CNT_CLR (R148). Writing 1 clears every Lamp Room counter and resets LR_LOW. -/
  | lrCntClr (v : W32)
  /-- PACKET_DEPART (R155). When the link can start a packet the scheduler picks an eligible queue head, class 0 first, and starts it. -/
  | packetDepart (p : Nat)
  /-- POLICER_COMMIT (R154). A write of a policer's CTRL word commits the whole entry, filling both buckets, or is refused with CFG_REJ. -/
  | policerCommit (i : Nat) (v : W32)
  /-- POL_LAST_LO_READ (R493). A read of a policer's LAST_LO returns the low bits and latches the high half. -/
  | polLastLoRead (i : Nat)
  /-- SV_QUANT_WRITE (R157). A write of a queue's quantum, refused when 0 or 0xFFFF. -/
  | svQuantWrite (p q : Nat) (v : W32)
  /-- SV_CLASS_LEN_WRITE (R163). A write of a class's maximum length, refused unless a multiple of 8 from 32 to 4,136. -/
  | svClassLenWrite (t : Nat) (v : W32)
  /-- SV_GATE_BIND_WRITE (R162). A write binding or unbinding a port to a gate engine, refused with CONFLICT for a disabled engine or a rebind. -/
  | svGateBindWrite (p : Nat) (v : W32)
  /-- SV_CNT_CLR (R170). Writing 1 clears every shaping counter. -/
  | svCntClr (v : W32)
  /-- NT_CLR (R203). Writing 1 clears NT_STAT.LOST. -/
  | ntClr (v : W32)
  /-- SM_PART (R219). An SM_PART is checked against its grant, then staged or combined into its piece in rank order, completing pieces as inputs finish. -/
  | smPart (p : Nat)
  /-- SM_GRANT (R210). An SM_GRANT raises the LIMIT of pieces that an input may send. -/
  | smGrant (p : Nat)
  /-- TALLY_GRANT (R226). The first request of a pool is granted its slots and context once its opening has passed and they are free, launching operations whose strike has fired. -/
  | tallyGrant (floor : Bool)
  /-- TALLY_TIMEOUT (R228). A tally request not granted by K plus TIMEOUT is withdrawn and its operation fails with TALLY_TIMEOUT. -/
  | tallyTimeout (group opseq : Nat)
  /-- SM_ABORT (R229). An SM_ABORT stops grants, releases the tally and context, and completes local descriptors with its status. -/
  | smAbort (p : Nat)
  /-- SMELTER_FAULT (R206). An uncorrectable Smelter error fences the Smelter and fails operations with pieces on it with DATA_LOST. -/
  | smelterFault (phys : Nat) (corrected : Bool)
  /-- RED_MEM_ECC_ERROR (R231). An uncorrectable reduction-memory error retires the slot and fails the operation that held it. -/
  | redMemEccError (slot : EccError) (owner : SlotHolder)
  /-- RECIPE_NOP (R234). Recipe instruction NOP. -/
  | rcNop (sm : Nat) (f : RcFields)
  /-- RECIPE_LDIN (R234). Recipe instruction LDIN loads the input beat in the accumulation format. -/
  | rcLdin (sm : Nat) (f : RcFields)
  /-- RECIPE_LDACC (R234). Recipe instruction LDACC loads the accumulator beat. -/
  | rcLdacc (sm : Nat) (f : RcFields)
  /-- RECIPE_STACC (R234). Recipe instruction STACC stores the accumulator beat. -/
  | rcStacc (sm : Nat) (f : RcFields)
  /-- RECIPE_RED (R234). Recipe instruction RED combines under OPR, or passes the second operand on a fresh piece. -/
  | rcRed (sm : Nat) (f : RcFields)
  /-- RECIPE_ADD (R234). Recipe instruction ADD. -/
  | rcAdd (sm : Nat) (f : RcFields)
  /-- RECIPE_MUL (R234). Recipe instruction MUL. -/
  | rcMul (sm : Nat) (f : RcFields)
  /-- RECIPE_MAX (R234). Recipe instruction MAX. -/
  | rcMax (sm : Nat) (f : RcFields)
  /-- RECIPE_MIN (R234). Recipe instruction MIN. -/
  | rcMin (sm : Nat) (f : RcFields)
  /-- RECIPE_ABS (R234). Recipe instruction ABS. -/
  | rcAbs (sm : Nat) (f : RcFields)
  /-- RECIPE_NEG (R234). Recipe instruction NEG. -/
  | rcNeg (sm : Nat) (f : RcFields)
  /-- RECIPE_LDK (R234). Recipe instruction LDK loads a constant in every lane. -/
  | rcLdk (sm : Nat) (f : RcFields)
  /-- RECIPE_EMIT (R234). Recipe instruction EMIT passes a beat to the output stage. -/
  | rcEmit (sm : Nat) (f : RcFields)
  /-- RCP_WRITE (R236). A write of a loadable recipe word, ignored with RCP_REJ while any context names the recipe. -/
  | rcpWrite (r w : Nat) (v : W32)
  /-- SM_CFG_WRITE (R220). A write of SM_CFG.LAYOUT, ignored with CFG_REJ while any context is held. -/
  | smCfgWrite (v : W32)
  /-- SM_QHEAD_LO_READ (R493). A read of SM_QHEAD_LO returns the low bits and latches the high half. -/
  | smQheadLoRead
  /-- SM_CNT_CLR (R246). Writing 1 clears every Smelter counter. -/
  | smCntClr (v : W32)
  /-- ALLREDUCE (R256). ALLREDUCE descriptor: judged at fetch, creates or joins its operation and queues a tally request. -/
  | allreduce (r : Nat)
  /-- REDUCE (R256). REDUCE descriptor: reduction to the device of member ROOT. -/
  | reduce (r : Nat)
  /-- REDUCE_SCATTER (R256). REDUCE_SCATTER descriptor: slice r reduced to member r. -/
  | reduceScatter (r : Nat)
  /-- ALLGATHER (R256). ALLGATHER descriptor: every member's elements to every other member. -/
  | allgather (r : Nat)
  /-- BROADCAST (R256). BROADCAST descriptor: member ROOT's elements to every other member. -/
  | broadcast (r : Nat)
  /-- ALLTOALL (R256). ALLTOALL descriptor: block j to each member j. -/
  | alltoall (r : Nat)
  /-- ALLTOALLV (R263). ALLTOALLV descriptor: a count phase, then variable blocks to each member. -/
  | alltoallv (r : Nat)
  /-- BARRIER (R268). BARRIER descriptor: completes by the completion waves alone. -/
  | barrier (r : Nat)
  /-- REDUCE_UPDATE_GATHER (R350). REDUCE_UPDATE_GATHER descriptor: reduce gradients, update shard slices, multicast parameters, flip at COMMIT. -/
  | reduceUpdateGather (r : Nat)
  /-- CL_DATA (R262). A CL_DATA packet is routed by the group record to local members and neighbours, or held until launch. -/
  | clData (p : Nat)
  /-- CL_COUNT (R263). A CL_COUNT is split by next hop or stored in the tally slots of the local member. -/
  | clCount (p : Nat)
  /-- CL_DONE (R264). A CL_DONE of the upward or downward wave is combined and forwarded; the downward wave completes local descriptors. -/
  | clDone (p : Nat)
  /-- ORDER_TIMEOUT (R270). An operation's order timer expires and the operation fails with ORDER_TIMEOUT. -/
  | orderTimeout (group opseq : Nat)
  /-- GROUP_SET (R252). GROUP_SET writes a group record with its neighbour and member entries after checks. -/
  | groupSet (r : Nat) (image : Bytes)
  /-- GROUP_DELETE (R252). GROUP_SET with DELETE removes a group's record when no operation is active. -/
  | groupDelete (r : Nat)
  /-- CL_CNT_CLR (R274). Writing 1 clears every collective counter. -/
  | clCntClr (v : W32)
  /-- ASSAY_LOAD (R294). ASSAY_LOAD checks an image and copies it into a program slot on all four decks. -/
  | assayLoad (r : Nat) (image : Bytes)
  /-- ASSAY_UNLOAD (R294). ASSAY_LOAD with UNLOAD empties a program slot. -/
  | assayUnload (r : Nat)
  /-- ASSAY_RUN (R296). ASSAY_RUN is judged at fetch and queues a launch on the named or all launch benches. -/
  | assayRun (r : Nat)
  /-- ASSAY_LAUNCH_START (R297). A pending launch starts once its strike has fired and every bench of its set is free. -/
  | assayLaunchStart (id : Nat)
  /-- ASSAY_LAUNCH_COMPLETE (R299). After every bench has finished, the closing hallmark pass ends and the launch completes. -/
  | assayLaunchComplete (id : Nat)
  /-- ASSAY_RUN_LIMIT (R299). A launch passes AS_CFG.RUN_LIMIT and stops with ABORTED. -/
  | assayRunLimit (id : Nat)
  /-- BENCH_FAULT (R299). An uncorrectable bench error stops the launch with DATA_LOST and fences the bench. -/
  | benchFault (phys : EccError)
  /-- AS_PROFILE_WRITE (R304). A write of the power profile, refused while launches, updates or contexts are held, else powering bench domains. -/
  | asProfileWrite (v : W32)
  /-- AS_RESV_WRITE (R300). A write of the update-bench reservation, refused while launches or updates are active or a needed deck would fall to zero. -/
  | asResvWrite (v : W32)
  /-- AS_CNT_CLR (R305). Writing 1 clears every Assay counter. -/
  | asCntClr (v : W32)
  /-- END (R312). Assay END ends the bench or thread. -/
  | asEnd (c : Core)
  /-- ASSAY_NOP (R312). Assay NOP. -/
  | asNop (c : Core)
  /-- BR (R313). Assay BR branches when COND holds. -/
  | asBr (c : Core) (f : FmtB)
  /-- JMP (R312). Assay JMP. -/
  | asJmp (c : Core) (rel : Nat)
  /-- CALL (R312). Assay CALL saves the return address in x63 and jumps. -/
  | asCall (c : Core) (rel : Nat)
  /-- JR (R312). Assay JR jumps to a register address. -/
  | asJr (c : Core) (a : Nat)
  /-- FORK (R312). Assay FORK passes a lockstep bench to FREE mode. -/
  | asFork (c : Core)
  /-- JOIN (R278). Assay JOIN waits for all 32 threads and resumes LOCKSTEP. -/
  | asJoin (c : Core)
  /-- BAR (R312). Assay BAR waits for every thread of the bench. -/
  | asBar (c : Core)
  /-- GSYNC (R312). Assay GSYNC waits for every bench of the launch and begins a new phase. -/
  | asGsync (c : Core)
  /-- MOV (R314). Assay MOV. -/
  | asMov (c : Core) (f : FmtR)
  /-- IADD (R314). Assay IADD. -/
  | asIadd (c : Core) (f : FmtR)
  /-- ISUB (R314). Assay ISUB. -/
  | asIsub (c : Core) (f : FmtR)
  /-- IMUL (R314). Assay IMUL. -/
  | asImul (c : Core) (f : FmtR)
  /-- IMIN (R314). Assay IMIN. -/
  | asImin (c : Core) (f : FmtR)
  /-- IMAX (R314). Assay IMAX. -/
  | asImax (c : Core) (f : FmtR)
  /-- AND (R314). Assay AND. -/
  | asAnd (c : Core) (f : FmtR)
  /-- OR (R314). Assay OR. -/
  | asOr (c : Core) (f : FmtR)
  /-- XOR (R314). Assay XOR. -/
  | asXor (c : Core) (f : FmtR)
  /-- SHL (R314). Assay SHL. -/
  | asShl (c : Core) (f : FmtR)
  /-- SHR (R314). Assay SHR. -/
  | asShr (c : Core) (f : FmtR)
  /-- SRA (R314). Assay SRA. -/
  | asSra (c : Core) (f : FmtR)
  /-- ADDI (R314). Assay ADDI. -/
  | asAddi (c : Core) (f : FmtI)
  /-- LI (R314). Assay LI loads the second word. -/
  | asLi (c : Core) (f : FmtI) (word1 : W32)
  /-- SHFL (R314). Assay SHFL moves values between lanes. -/
  | asShfl (c : Core) (f : FmtR)
  /-- SEL (R314). Assay SEL selects by mask. -/
  | asSel (c : Core) (f : FmtR)
  /-- FADD (R315). Assay FADD. -/
  | asFadd (c : Core) (f : FmtR)
  /-- FSUB (R315). Assay FSUB. -/
  | asFsub (c : Core) (f : FmtR)
  /-- FMUL (R315). Assay FMUL. -/
  | asFmul (c : Core) (f : FmtR)
  /-- FMA (R315). Assay FMA with one rounding. -/
  | asFma (c : Core) (f : FmtR)
  /-- FNMA (R315). Assay FNMA. -/
  | asFnma (c : Core) (f : FmtR)
  /-- FMIN (R315). Assay FMIN. -/
  | asFmin (c : Core) (f : FmtR)
  /-- FMAX (R315). Assay FMAX. -/
  | asFmax (c : Core) (f : FmtR)
  /-- FABS (R315). Assay FABS. -/
  | asFabs (c : Core) (f : FmtR)
  /-- FNEG (R315). Assay FNEG. -/
  | asFneg (c : Core) (f : FmtR)
  /-- DOT2 (R315). Assay DOT2. -/
  | asDot2 (c : Core) (f : FmtR)
  /-- DOT4 (R315). Assay DOT4. -/
  | asDot4 (c : Core) (f : FmtR)
  /-- DIV (R316). Assay DIV. -/
  | asDiv (c : Core) (f : FmtR)
  /-- RCP (R316). Assay RCP. -/
  | asRcp (c : Core) (f : FmtR)
  /-- SQRT (R316). Assay SQRT. -/
  | asSqrt (c : Core) (f : FmtR)
  /-- RSQRT (R316). Assay RSQRT. -/
  | asRsqrt (c : Core) (f : FmtR)
  /-- EXP (R316). Assay EXP. -/
  | asExp (c : Core) (f : FmtR)
  /-- EXP2 (R316). Assay EXP2. -/
  | asExp2 (c : Core) (f : FmtR)
  /-- LOG (R316). Assay LOG. -/
  | asLog (c : Core) (f : FmtR)
  /-- LOG2 (R316). Assay LOG2. -/
  | asLog2 (c : Core) (f : FmtR)
  /-- TANH (R316). Assay TANH. -/
  | asTanh (c : Core) (f : FmtR)
  /-- SIGMOID (R316). Assay SIGMOID. -/
  | asSigmoid (c : Core) (f : FmtR)
  /-- SIN (R316). Assay SIN. -/
  | asSin (c : Core) (f : FmtR)
  /-- COS (R316). Assay COS. -/
  | asCos (c : Core) (f : FmtR)
  /-- CVT (R317). Assay CVT converts between formats with one rounding. -/
  | asCvt (c : Core) (f : FmtR) (word1 : W32)
  /-- CMP (R319). Assay CMP sets mask bits by a condition. -/
  | asCmp (c : Core) (f : FmtR)
  /-- TAIL (R320). Assay TAIL sets a tail mask from a count. -/
  | asTail (c : Core) (f : FmtK)
  /-- MOVRM (R320). Assay MOVRM moves a register to a mask. -/
  | asMovrm (c : Core) (f : FmtK)
  /-- MOVMR (R320). Assay MOVMR moves a mask to a register. -/
  | asMovmr (c : Core) (f : FmtK)
  /-- MAND (R320). Assay MAND. -/
  | asMand (c : Core) (f : FmtK)
  /-- MOR (R320). Assay MOR. -/
  | asMor (c : Core) (f : FmtK)
  /-- MXOR (R320). Assay MXOR. -/
  | asMxor (c : Core) (f : FmtK)
  /-- MANDN (R320). Assay MANDN. -/
  | asMandn (c : Core) (f : FmtK)
  /-- MNOT (R320). Assay MNOT. -/
  | asMnot (c : Core) (f : FmtK)
  /-- RED (R321). Assay RED combines a register across lanes in the fixed tree order. -/
  | asRed (c : Core) (f : FmtR)
  /-- REDS (R321). Assay REDS combines in segments. -/
  | asReds (c : Core) (f : FmtR)
  /-- SOFTMAX (R322). Assay SOFTMAX computes a masked row soft maximum in scratch. -/
  | asSoftmax (c : Core) (f : FmtR) (word1 : W32)
  /-- RNG (R323). Assay RNG writes four generator words. -/
  | asRng (c : Core) (f : FmtR)
  /-- LD_8 (R324). Assay LD.8. -/
  | asLd8 (c : Core) (f : FmtM)
  /-- LD_16 (R324). Assay LD.16. -/
  | asLd16 (c : Core) (f : FmtM)
  /-- LD_32 (R324). Assay LD.32. -/
  | asLd32 (c : Core) (f : FmtM)
  /-- LD_64 (R324). Assay LD.64. -/
  | asLd64 (c : Core) (f : FmtM)
  /-- ST_8 (R324). Assay ST.8. -/
  | asSt8 (c : Core) (f : FmtM)
  /-- ST_16 (R324). Assay ST.16. -/
  | asSt16 (c : Core) (f : FmtM)
  /-- ST_32 (R324). Assay ST.32. -/
  | asSt32 (c : Core) (f : FmtM)
  /-- ST_64 (R324). Assay ST.64. -/
  | asSt64 (c : Core) (f : FmtM)
  /-- ATOM_ADD (R324). Assay ATOM.ADD on a scratch word. -/
  | asAtomAdd (c : Core) (f : FmtM)
  /-- ATOM_MIN (R324). Assay ATOM.MIN. -/
  | asAtomMin (c : Core) (f : FmtM)
  /-- ATOM_MAX (R324). Assay ATOM.MAX. -/
  | asAtomMax (c : Core) (f : FmtM)
  /-- ATOM_AND (R324). Assay ATOM.AND. -/
  | asAtomAnd (c : Core) (f : FmtM)
  /-- ATOM_OR (R324). Assay ATOM.OR. -/
  | asAtomOr (c : Core) (f : FmtM)
  /-- ATOM_XOR (R324). Assay ATOM.XOR. -/
  | asAtomXor (c : Core) (f : FmtM)
  /-- SHARD_DEFINE (R337). SHARD_DEFINE defines a shard set with its slices and blocks, entering LOADING. -/
  | shardDefine (r : Nat) (image : Bytes)
  /-- SHARD_DELETE (R337). SHARD_DEFINE with DELETE frees a set's record, frames and view. -/
  | shardDelete (r : Nat)
  /-- SHARD_FLAGS_ONLY (R338). SHARD_DEFINE with FLAGS_ONLY changes only FROZEN bits. -/
  | shardFlagsOnly (r : Nat) (image : Bytes)
  /-- SHARD_SCHED (R349). SHARD_SCHED writes entries of a set's schedule. -/
  | shardSched (r : Nat) (entries : Bytes)
  /-- SHARD_IO_WRITE (R360). SHARD_IO WRITE loads plane values into a LOADING set. -/
  | shardIoWrite (r : Nat)
  /-- SHARD_IO_READ (R360). SHARD_IO READ copies the committed version to the host. -/
  | shardIoRead (r : Nat)
  /-- SHARD_IO_SEAL (R360). SHARD_IO SEAL moves a LOADING set to READY. -/
  | shardIoSeal (r : Nat)
  /-- SHARD_RESOLVE (R357). SHARD_RESOLVE applies FLIP or WITHHOLD to a set in doubt. -/
  | shardResolve (r : Nat)
  /-- UPDATE_PIECE (R342). Update benches take a reduced piece from scratch, apply the update rule, write the new version and multicast parameters. -/
  | updatePiece (group opseq piece : Nat)
  /-- UP_POOL_WRITE (R361). A write of a deck's step pool, refused while claims are held or below a set's step need. -/
  | upPoolWrite (d : Nat) (v : W32)
  /-- UP_CNT_CLR (R361). Writing 1 clears every update counter. -/
  | upCntClr (v : W32)
  /-- SCRUB_LINE (R364). The scrubber reads a line with idle bandwidth and corrects or reports what it finds. -/
  | scrubLine (stack line : Nat) (wrong : Nat)
  /-- STACK_ECC_ERROR (R365). An uncorrectable stacked-memory error retires the page, enters the line in the loss map and affects its owner. -/
  | stackEccError (stack line : Nat) (frame : Nat)
  /-- REFRESH_WINDOW_OPEN (R366). A plant-time refresh window of a stack opens and accesses to it wait. -/
  | refreshWindowOpen (s : Nat)
  /-- REFRESH_WINDOW_CLOSE (R366). A refresh window ends after 1,536 ticks and waiting accesses proceed. -/
  | refreshWindowClose (s : Nat)
  /-- AUTO_REFRESH (R366). With EN 0 a stack refreshes on its own 3.8 microsecond timer. -/
  | autoRefresh (s : Nat)
  /-- MEM_COPY (R369). MEM_COPY moves bytes between host memory and the weight-store or general range. -/
  | memCopy (r : Nat)
  /-- WS_MODEL (R371). WS_MODEL defines a model over a weight-store range and computes its hallmark. -/
  | wsModel (r : Nat)
  /-- WS_MODEL_UNDEFINE (R371). WS_MODEL with UNDEFINE frees a model record. -/
  | wsModelUndefine (r : Nat)
  /-- WS_SEND (R374). WS_SEND is judged at fetch and queues a send of a model to a group. -/
  | wsSend (r : Nat) (split : Bytes)
  /-- WS_SEND_START (R375). A send starts at its strike, or fetch, when fewer than 64 sends are running. -/
  | wsSendStart (id : Nat)
  /-- WS_DATA_EMIT (R375). The weight store reads the next bytes and emits a WS_DATA packet within RATE and its quota. -/
  | wsDataEmit (id : Nat)
  /-- WS_SEND_COMPLETE (R376). A send completes once every copy is acknowledged or pruned, carrying its send hallmark. -/
  | wsSendComplete (id : Nat)
  /-- MEM_PART_WRITE (R363). A write of a deck's shard partition size, refused in the cases of R363, else zeroing the ranges. -/
  | memPartWrite (d : Nat) (v : W32)
  /-- MEM_WS_WRITE (R363). A write of the weight-store size, refused in the cases of R363. -/
  | memWsWrite (v : W32)
  /-- MEM_REF_WRITE (R367). A write of a stack's refresh settings, refused when enabling is not allowed. -/
  | memRefWrite (s : Nat) (v : W32)
  /-- MEM_CNT_CLR (R377). Writing 1 clears every memory counter. -/
  | memCntClr (v : W32)
  /-- DOORBELL_POLL (R389). At each poll interval the device swaps TOP and SECOND words and reads the doorbells they name. -/
  | doorbellPoll (top0 top1 : W64) (seconds : List (Nat × BitVec 64)) (doorbells : List (Nat × BitVec 32))
  /-- ATOMIC_SWAP_ERROR (R380). A Swap returns a failed completion; polling stops and ATOMIC_ERR is set. -/
  | atomicSwapError (top0 top1 : W64) (read : PollRead)
  /-- HOST_READ_ERROR (R382). A host read completes with error or poison, stopping the ring or failing the operation with DATA_LOST. -/
  | hostReadError (r : Nat) (slot : Option Nat)
  /-- DESCRIPTOR_FETCH (R391). The device fetches the next posted descriptor of a ring, checks its header and SEQ, and advances SQ_HEAD. -/
  | descriptorFetch (r : Nat) (bytes : Bytes)
  /-- FUNCTION_LEVEL_RESET (R381). A Function Level Reset turns every ring OFF, aborts unlaunched descriptors and resets host-interface registers. -/
  | functionLevelReset
  /-- RING_ENABLE (R383). Writing RING_CTRL.EN 1 starts a ring, or is refused with CFG_REJ. -/
  | ringEnable (r : Nat) (v : W32)
  /-- RING_DRAIN (R386). Writing RING_CTRL.EN 0 moves a ring to DRAINING. -/
  | ringDrain (r : Nat) (v : W32)
  /-- RING_ABORT (R386). Writing RING_CTRL.ABORT in DRAINING aborts every unlaunched descriptor of the ring. -/
  | ringAbort (r : Nat) (v : W32)
  /-- POLL_ENABLE (R408). A write of HI_CFG.POLL_EN starts or resumes polling, refused before READY or without DB_BASE. -/
  | pollEnable (v : W32)
  /-- MSIX_MOD_TIMER (R406). A vector's moderation timer reaches TIME and its message is sent. -/
  | msixModTimer (vec : Nat)
  /-- NOP (R398). NOP descriptor completes OK with no effect. -/
  | nop (r : Nat)
  /-- HI_CNT_CLR (R408). Writing 1 clears every host-interface counter. -/
  | hiCntClr (v : W32)
  /-- REP_COMPAT_WRITE (R413). A write of REP_COMPAT turns compatibility mode on or off, refused while launches or contexts are held. -/
  | repCompatWrite (v : W32)
  /-- TW_CFG_WRITE (R424). A write of TW_CFG sets the pair role, ignored unless the state allows. -/
  | twCfgWrite (v : W32)
  /-- TW_HELLO (R426). A received TW_HELLO moves a member from JOINING to STALE when link, roles, key and shape agree. -/
  | twHello
  /-- TW_STAGE (R429). The follower holds a mirrored change without applying it. -/
  | twStage
  /-- TW_PREP (R431). The follower checks the batch count and CRC chain and answers TW_READY. -/
  | twPrep
  /-- TW_READY (R431). The lead receives the follower's readiness or refusal for a batch. -/
  | twReady
  /-- TW_GO (R431). The follower receives APPLY for a batch. -/
  | twGo
  /-- TWIN_GO_DEADLINE (R431). At strike minus GO_LEAD without TW_READY the lead sends TW_GO with APPLY 0. -/
  | twinGoDeadline
  /-- TW_OP (R433). The follower receives an update's fields from the lead. -/
  | twOp
  /-- TW_PIECE (R433). The follower recomputes the update of a piece from the lead's accumulator. -/
  | twPiece
  /-- TW_HALL (R434). The lead compares the follower's part with its own and decides AGREE, YIELD or DIVERGE. -/
  | twHall
  /-- TWIN_HALL_TIMEOUT (R434). No TW_HALL within HALL_TMO; the lead proceeds alone and the pair becomes STALE. -/
  | twinHallTimeout (group opseq : Nat)
  /-- TW_DECIDE (R436). The follower receives the comparison outcome or the commit decision. -/
  | twDecide
  /-- TWIN_COMMIT (R430). TWIN_COMMIT closes the open batch and sends TW_PREP. -/
  | twinCommit (r : Nat)
  /-- TWIN_SYNC (R432). TWIN_SYNC copies the lead's whole mirrored state to the follower. -/
  | twinSync (r : Nat)
  /-- TWIN_PROMOTE (R438). TWIN_PROMOTE on a SOLO follower arms its promotion to LEAD. -/
  | twinPromote (r : Nat)
  /-- TW_CNT_CLR (R441). Writing 1 clears every twin counter. -/
  | twCntClr (v : W32)
  /-- DP_ACK (R448). A write of DP_ACK closes the open fault of a class. -/
  | dpAck (v : W32)
  /-- DP_FENCE_CLR (R458). A write names a fenced physical unit whose kept fence is removed at the next reset. -/
  | dpFenceClr (v : W32)
  /-- DP_CNT_CLR (R466). Writing 1 clears every Deputy counter. -/
  | dpCntClr (v : W32)
  /-- DEPUTY_WATCHDOG_EXPIRY (R454). After 8 periods without a restart the watchdog raises a level-3 stop. -/
  | deputyWatchdogExpiry
  /-- THERMAL_THROTTLE_STEP (R459). Every 2^16 ticks a hot deck's clock falls one step, or rises when cool; a trip raises a stop. -/
  | thermalThrottleStep (decks floors : List Nat)
  /-- LOAD_SAMPLE (R460). Every 4,096 ticks deck and port loads are sampled into bands. -/
  | loadSample (decks : List Nat) (ports : List (Nat × Nat))
  /-- SURVEYOR_MEASUREMENT (R461). At each 2^24-tick interval the Surveyor derives V_REQ and stores it by band. -/
  | surveyorMeasurement (d vreq cap : Nat)
  /-- MAINT_WINDOW_OPEN (R463). A maintenance window opens and covered decks run at half rate. -/
  | maintWindowOpen (w : Nat)
  /-- MAINT_WINDOW_CLOSE (R463). A maintenance window ends after LEN units. -/
  | maintWindowClose (w : Nat)
  /-- VDD_STEP (R463). Within a window VDD_DECK moves one 5 mV code toward the plan each 4,096 ticks. -/
  | vddStep (d : Nat)
  /-- SLACK_ALARM (R464). A replica's slack below threshold lowers the deck's clock one step. -/
  | slackAlarm (d : Nat)
  /-- RAIL_CHECK (R509). Each microsecond rails are compared with their windows; 10 microseconds outside raises a stop. -/
  | railCheck (millivolts : List Nat)
  /-- CLOCK_LOCK_LOSS (R443). A core clock generator loses lock; a level-3 CLOCK event. -/
  | clockLockLoss (site : Nat)
  /-- BENCH_DOMAIN_POWER_LOSS (R443). A bench domain loses power-good and both benches are fenced. -/
  | benchDomainPowerLoss (dom : Nat)
  /-- SORTER_FAULT (R16). An uncorrectable sorter store error fences the sorter; without a spare its lane group leaves service. -/
  | sorterFault (phys : EccError)
  /-- SWITCH_TABLE_ERROR (R443). An error in a duplicated table, context cache line or switch datapath is repaired, cleared or stops the device. -/
  | switchTableError (deck source : Nat) (flow : Option Nat)
  /-- CODE_DIGEST_CHECK (R487). Every 2^30 ticks the verified microcontroller code is compared; a change stops the device. -/
  | codeDigestCheck (changed : Bool)
  /-- RESET_ASSERT (R471). PERST_N falls and every unit is held in reset. -/
  | resetAssert
  /-- RESET_RELEASE (R472). PERST_N rises and boot begins. -/
  | resetRelease
  /-- PWR_GOOD_RISE (R473). PWR_GOOD rises and the always-on domains are powered. -/
  | pwrGoodRise
  /-- PWR_GOOD_FALL (R470). PWR_GOOD falls while PERST_N is high, a level-3 POWER event. -/
  | pwrGoodFall
  /-- POWER_DOMAIN_UP (R473). The next power domain is brought up at least 20 microseconds after the last. -/
  | powerDomainUp (dom : Nat)
  /-- ROM_STAGE_DONE (R476). The boot ROM verifies a firmware bank and starts it, or enters RECOVERY. -/
  | romStageDone
  /-- FIRMWARE_STAGE_DONE (R481). Firmware has started, read the store and verified the identity certificates. -/
  | firmwareStageDone
  /-- BOARD_STAGE_DONE (R479). The board table has been read and verified, or marked BOARD_BAD. -/
  | boardStageDone (table : Bytes)
  /-- UNITS_STAGE_DONE (R474). Kept fences are applied, logical units assigned and deck domains powered. -/
  | unitsStageDone
  /-- MEMORY_STAGE_DONE (R474). Stacks are trained and zeroed, and boot reaches READY. -/
  | memoryStageDone
  /-- FW_UPDATE (R480). FW_UPDATE writes and verifies an image into the bank not running. -/
  | fwUpdate (r : Nat) (image : Bytes)
  /-- FW_UPDATE_RAISE (R480). FW_UPDATE with RAISE sets BT_SVN_MIN to the running SVN. -/
  | fwUpdateRaise (r : Nat)
  /-- ATTEST (R482). ATTEST queues a signed report request. -/
  | attest (r : Nat)
  /-- ATTEST_SIGN (R485). Within the rate limit the device signs the next report. -/
  | attestSign (goodWrites : List Bool)
  /-- CTL_LOCK_SET (R495). Writing 1 to a bit of CTL_LOCK_SET locks that block until PERST_N. -/
  | ctlLockSet (v : W32)
  /-- REGISTER_WRITE (R492). A write to a register without its own row acts by its field map, subject to locks, holes and early writes. -/
  | registerWrite (addr : Nat) (v : W32)
  /-- BAR0_BAD_ACCESS (R491). A BAR0 access of disallowed size or alignment returns zero or is ignored and sets BAD_ACCESS. -/
  | bar0BadAccess (write : Bool) (addr size : Nat)
  /-- JTAG_BYPASS (R505). JTAG instruction BYPASS. -/
  | jtagBypass
  /-- JTAG_IDCODE (R505). JTAG instruction IDCODE. -/
  | jtagIdcode
  /-- JTAG_SAMPLE_PRELOAD (R505). JTAG instruction SAMPLE/PRELOAD. -/
  | jtagSamplePreload (cells : List Bool)
  /-- JTAG_EXTEST (R505). JTAG instruction EXTEST, acting only while PERST_N is low. -/
  | jtagExtest (cells : List Bool)
  /-- JTAG_EXTEST_PULSE (R505). JTAG instruction EXTEST_PULSE over the AC-coupled pairs. -/
  | jtagExtestPulse (cells : List Bool)
  /-- SIGNAL_AND_LOCK_REGAINED (R80). A receive lane's loss-of-signal and loss-of-lock detectors clear, so a port in SIGNAL can move on to LOCK and a running loss-hold period ends. -/
  | signalAndLockRegained (l : Nat)
  /-- PT_10M_IN_PRESENCE (R18). A 10 MHz signal appears on or vanishes from PT_10M_IN, and the local clock relocks to it or to LN_REFCLK_P/N[0]. -/
  | pt10mInPresence (present : Bool)
  /-- MSIX_VECTOR_UNMASK (R406). Host software unmasks an MSI-X table entry in BAR2, and a vector whose pending bit is set sends its message. -/
  | msixVectorUnmask (vec : Nat)
  /-- POWER_LOSS (R453). Supply is lost, ending a stop or any write in progress, and only the embedded store, with its whole records, reservation slots and firmware banks, survives. -/
  | powerLoss (torn : Bool)
  /-- MEM_COPY_DONE (R369). A MEM_COPY finishes moving its bytes at the link rate, or stops at a lost line with DATA_LOST, and writes its completion. -/
  | memCopyDone (id : Nat) (data : Bytes)
  /-- SHARD_IO_DONE (R360). A SHARD_IO READ or WRITE finishes its transfer and completes, and frames a flip replaced during a READ return to the step pool. -/
  | shardIoDone (id : Nat) (data : Bytes)
  /-- FW_UPDATE_DONE (R480). Writing and verifying an image into the idle bank finishes, setting VALID and completing OK, or leaving the bank invalid with BAD_OPCODE. -/
  | fwUpdateDone
  /-- WS_MODEL_READ_DONE (R371). The one read of a newly defined model finishes, and its hallmark is stored and completed, or a lost line leaves the model undefined with DATA_LOST. -/
  | wsModelReadDone (model : Nat)
  deriving DecidableEq, Repr

end Sys2Proof
end

