-- ==== Sys2Proof/Decode.lean ====
section
/-! DEFINITION. The commands that words spell: the table gives no row any bits, so none. The words of the Assay instructions as chapter 11
gives them (R307, R312 to R324): the OP and the fields of a program's words pick the command that a core executes. -/

namespace Sys2Proof

/-- The command that a word spells by the table's bits: no row of the table has bits. -/
def decodeTableWord (_nbits _w : Nat) : Option Instr := none

/-- A word of format R (R307). -/
def wordR (op : Nat) (f : FmtR) : Nat := op + 2 ^ 8 * f.d + 2 ^ 14 * f.a + 2 ^ 20 * f.b + 2 ^ 26 * f.m + 2 ^ 29 * f.t

/-- A word of format I. -/
def wordI (op : Nat) (f : FmtI) : Nat := op + 2 ^ 8 * f.d + 2 ^ 14 * f.a + 2 ^ 20 * f.imm

/-- A word of format M. -/
def wordM (op : Nat) (f : FmtM) : Nat := op + 2 ^ 8 * f.d + 2 ^ 14 * f.a + 2 ^ 20 * f.w + 2 ^ 23 * f.m + 2 ^ 26 * f.ofs

/-- A word of format B. -/
def wordB (op : Nat) (f : FmtB) : Nat := op + 2 ^ 8 * f.cond + 2 ^ 11 * f.m + 2 ^ 14 * f.a + 2 ^ 20 * f.rel

/-- A word of format K. -/
def wordK (op : Nat) (f : FmtK) : Nat := op + 2 ^ 8 * f.md + 2 ^ 11 * f.ma + 2 ^ 14 * f.mb + 2 ^ 17 * f.x

/-- A word of format J. -/
def wordJ (op rel : Nat) : Nat := op + 2 ^ 8 * rel

/-- The first word of an Assay instruction. -/
def Instr.asWord : Instr → Option Nat
  | .asEnd _ => some (wordJ 0x01 0)
  | .asNop _ => some (wordJ 0x02 0)
  | .asFork _ => some (wordJ 0x08 0)
  | .asJoin _ => some (wordJ 0x09 0)
  | .asBar _ => some (wordJ 0x0A 0)
  | .asGsync _ => some (wordJ 0x0B 0)
  | .asBr _ f => some (wordB 0x03 f)
  | .asJmp _ rel => some (wordJ 0x04 rel)
  | .asCall _ rel => some (wordJ 0x05 rel)
  | .asJr _ a => some (0x06 + 2 ^ 14 * a)
  | .asMov _ f => some (wordR 0x10 f)
  | .asIadd _ f => some (wordR 0x11 f)
  | .asIsub _ f => some (wordR 0x12 f)
  | .asImul _ f => some (wordR 0x13 f)
  | .asImin _ f => some (wordR 0x14 f)
  | .asImax _ f => some (wordR 0x15 f)
  | .asAnd _ f => some (wordR 0x16 f)
  | .asOr _ f => some (wordR 0x17 f)
  | .asXor _ f => some (wordR 0x18 f)
  | .asShl _ f => some (wordR 0x19 f)
  | .asShr _ f => some (wordR 0x1A f)
  | .asSra _ f => some (wordR 0x1B f)
  | .asShfl _ f => some (wordR 0x1E f)
  | .asSel _ f => some (wordR 0x1F f)
  | .asFadd _ f => some (wordR 0x20 f)
  | .asFsub _ f => some (wordR 0x21 f)
  | .asFmul _ f => some (wordR 0x22 f)
  | .asFma _ f => some (wordR 0x23 f)
  | .asFnma _ f => some (wordR 0x24 f)
  | .asFmin _ f => some (wordR 0x25 f)
  | .asFmax _ f => some (wordR 0x26 f)
  | .asFabs _ f => some (wordR 0x27 f)
  | .asFneg _ f => some (wordR 0x28 f)
  | .asDot2 _ f => some (wordR 0x29 f)
  | .asDot4 _ f => some (wordR 0x2A f)
  | .asDiv _ f => some (wordR 0x30 f)
  | .asRcp _ f => some (wordR 0x31 f)
  | .asSqrt _ f => some (wordR 0x32 f)
  | .asRsqrt _ f => some (wordR 0x33 f)
  | .asExp _ f => some (wordR 0x34 f)
  | .asExp2 _ f => some (wordR 0x35 f)
  | .asLog _ f => some (wordR 0x36 f)
  | .asLog2 _ f => some (wordR 0x37 f)
  | .asTanh _ f => some (wordR 0x38 f)
  | .asSigmoid _ f => some (wordR 0x39 f)
  | .asSin _ f => some (wordR 0x3A f)
  | .asCos _ f => some (wordR 0x3B f)
  | .asCmp _ f => some (wordR 0x40 f)
  | .asRed _ f => some (wordR 0x50 f)
  | .asReds _ f => some (wordR 0x51 f)
  | .asRng _ f => some (wordR 0x5C f)
  | .asAddi _ f => some (wordI 0x1C f)
  | .asLi _ f _ => some (wordI 0x1D f)
  | .asCvt _ f _ => some (wordR 0x58 f)
  | .asSoftmax _ f _ => some (wordR 0x52 f)
  | .asTail _ f => some (wordK 0x41 f)
  | .asMovrm _ f => some (wordK 0x42 f)
  | .asMovmr _ f => some (wordK 0x43 f)
  | .asMand _ f => some (wordK 0x44 f)
  | .asMor _ f => some (wordK 0x45 f)
  | .asMxor _ f => some (wordK 0x46 f)
  | .asMandn _ f => some (wordK 0x47 f)
  | .asMnot _ f => some (wordK 0x48 f)
  | .asLd8 _ f => some (wordM 0x60 f)
  | .asLd16 _ f => some (wordM 0x61 f)
  | .asLd32 _ f => some (wordM 0x62 f)
  | .asLd64 _ f => some (wordM 0x63 f)
  | .asSt8 _ f => some (wordM 0x64 f)
  | .asSt16 _ f => some (wordM 0x65 f)
  | .asSt32 _ f => some (wordM 0x66 f)
  | .asSt64 _ f => some (wordM 0x67 f)
  | .asAtomAdd _ f => some (wordM 0x68 f)
  | .asAtomMin _ f => some (wordM 0x69 f)
  | .asAtomMax _ f => some (wordM 0x6A f)
  | .asAtomAnd _ f => some (wordM 0x6B f)
  | .asAtomOr _ f => some (wordM 0x6C f)
  | .asAtomXor _ f => some (wordM 0x6D f)
  | _ => none

/-- The second word of LI, CVT and SOFTMAX (R306). -/
def Instr.asWord2 : Instr → Option Nat
  | .asLi _ _ w | .asCvt _ _ w | .asSoftmax _ _ w => some w.toNat
  | _ => none

/-- The bits that an instruction reads of its first word: of JR only OP, A and T, the last of which must be zero (R312). -/
def Instr.asMask : Instr → Nat
  | .asJr _ _ => 0xE00FC0FF
  | _ => 0xFFFFFFFF

/-- Two words are those of an Assay instruction, the second where it has one. -/
def Instr.spelt (i : Instr) (w w2 : Nat) : Bool := i.asWord == some (w &&& i.asMask) && i.asWord2.all (fun x => x == w2)

end Sys2Proof
end

