-- ==== Sys2Proof/Config.lean ====
section
/-! DEFINITION. What one part fixes and the manual does not (grade, stepping, the fused data) and the FREE VALUES: opaque
functions of which nothing can be proved, so that a statement holds whatever they are. -/

namespace Sys2Proof.Config

/-- ID_REV.STEPPING (R2) of this part: one of the values R2 allows, not known. -/
opaque stepping : BitVec 8
/-- ID_REV.GRADE (R1, R498) of this part. -/
opaque grade : BitVec 1
/-- Word `i` of the root key in the boot ROM (R478, R488). -/
opaque rootPk : Nat → BitVec 32
/-- BT_SERIAL (R488), written at manufacture. -/
opaque serial : BitVec 64
/-- The device certificate (R481) as the embedded store holds it. -/
opaque deviceCert : List (BitVec 8)
/-- The manufacturing signer's certificate (R481) as the embedded store holds it. -/
opaque mfgCert : List (BitVec 8)
/-- SHAKE256 with 256 bits of output (R478), uninterpreted. -/
opaque shake256 : List (BitVec 8) → BitVec 256
/-- XMSS verification under RFC 8391 (R478), uninterpreted: public key, message, signature. -/
opaque xmssVerify : List (BitVec 8) → List (BitVec 8) → List (BitVec 8) → Bool
/-- The identity key's signature (R481, R483) of a message at an index: uninterpreted bytes. -/
opaque xmssSign : Nat → List (BitVec 8) → List (BitVec 8)
/-- A function of the function unit in ordinary mode, or one that is not correctly rounded in strict mode (R293): the
mapping is fixed and not given. The first argument is the OP of R316, the others the binary32 operands. -/
opaque fuMap : Nat → BitVec 32 → BitVec 32 → BitVec 32
/-- A free value for the model's own counter `State.free`: what the manual leaves to the device (R121's first bank, for example). -/
opaque freeNat : Nat → Nat
/-- The fused FULL baseline V_REQ of a deck (R461), measured at hour 0. -/
opaque fusedVreq : Nat → BitVec 8

/-- The ticks between a member's TW_HELLOs (R426): no figure is given. -/
opaque helloGap : Nat

end Sys2Proof.Config
end

