-- ==== Sys2Proof/Machine/Bits.lean ====
section
/-! DEFINITION. Bit fields, little-endian bytes (R4), cyclic redundancy checks and counters. -/

namespace Sys2Proof.Machine

/-- The field of `w` bits at bit `lo` of a number. -/
def nfld (n lo w : Nat) : Nat := n / 2 ^ lo % 2 ^ w

/-- The field of `w` bits at bit `lo` of a register. -/
def fld (v : W32) (lo w : Nat) : Nat := nfld v.toNat lo w

/-- Bit `i` of a register. -/
def bitAt (v : W32) (i : Nat) : Bool := v.toNat.testBit i

/-- Replace the field of `w` bits at bit `lo` of a number. -/
def nsetf (n lo w x : Nat) : Nat := n - nfld n lo w * 2 ^ lo + x % 2 ^ w * 2 ^ lo

/-- Replace the field of `w` bits at bit `lo` of a register. -/
def setf (v : W32) (lo w x : Nat) : W32 := BitVec.ofNat 32 (nsetf v.toNat lo w x)

/-- Set or clear bit `i` of a register. -/
def setb (v : W32) (i : Nat) (b : Bool) : W32 := setf v i 1 b.toNat

/-- A mask of `w` ones from bit `lo`. -/
def mask (lo w : Nat) : W32 := BitVec.ofNat 32 ((2 ^ w - 1) * 2 ^ lo)

/-- The number a little-endian string of bytes holds. -/
def leNat : Bytes → Nat
  | [] => 0
  | b :: bs => b.toNat + 256 * leNat bs

/-- The `k` low bytes of a number, the lowest first. -/
def toLE : Nat → Nat → Bytes
  | 0, _ => []
  | k + 1, n => BitVec.ofNat 8 n :: toLE k (n / 256)

/-- `len` bytes from offset `off`. -/
def sl (bs : Bytes) (off len : Nat) : Bytes := (bs.drop off).take len

/-- The little-endian number of `len` bytes at offset `off`. -/
def rdLE (bs : Bytes) (off len : Nat) : Nat := leNat (sl bs off len)

/-- The field of `w` bits at bit `lo` of the byte at offset `off` (and those after it). -/
def bfld (bs : Bytes) (off lo w : Nat) : Nat := nfld (rdLE bs off ((lo + w + 7) / 8)) lo w

/-- `n` bytes, cut or filled with zeros. -/
def padTo (n : Nat) (bs : Bytes) : Bytes := (bs ++ List.replicate (n - bs.length) 0).take n

/-- Replace `xs.length` bytes at offset `off`. -/
def putAt (bs : Bytes) (off : Nat) (xs : Bytes) : Bytes := bs.take off ++ xs ++ bs.drop (off + xs.length)

/-- A list cut into pieces of `n`, the last one shorter; `fuel` at least the number of pieces. -/
def chunksFuel {α : Type} (n : Nat) : Nat → List α → List (List α)
  | 0, _ => []
  | _ + 1, [] => []
  | f + 1, x :: xs => (x :: xs).take n :: chunksFuel n f ((x :: xs).drop n)

/-- A list cut into pieces of `n`, the last one shorter. -/
def chunks {α : Type} (n : Nat) (xs : List α) : List (List α) := chunksFuel n xs.length xs

/-- One bit of a reflected CRC. -/
def crcBit (poly c : Nat) : Nat := if c % 2 = 1 then (c / 2) ^^^ poly else c / 2

/-- One byte of a reflected CRC. -/
def crcByte (poly c : Nat) (b : Byte) : Nat :=
  let c0 := c ^^^ b.toNat
  crcBit poly (crcBit poly (crcBit poly (crcBit poly (crcBit poly (crcBit poly (crcBit poly (crcBit poly c0)))))))

/-- A reflected 32-bit CRC with initial value and final exclusive or of all ones. -/
def crcRefl (poly : Nat) (bs : Bytes) : Nat := (bs.foldl (crcByte poly) 0xFFFFFFFF) ^^^ 0xFFFFFFFF

/-- CRC-32 (reflected polynomial 0xEDB8_8320). -/
def crc32 (bs : Bytes) : Nat := crcRefl 0xEDB88320 bs

/-- CRC-32C (reflected polynomial 0x82F6_3B78). -/
def crc32c (bs : Bytes) : Nat := crcRefl 0x82F63B78 bs

/-- The two's complement reading of a field of `w` bits. -/
def sext (w n : Nat) : Int := if n % 2 ^ w < 2 ^ (w - 1) then Int.ofNat (n % 2 ^ w) else Int.ofNat (n % 2 ^ w) - Int.ofNat (2 ^ w)

/-- The `w` low bits of an integer in two's complement. -/
def ofInt (w : Nat) (z : Int) : Nat := (z % Int.ofNat (2 ^ w)).toNat

/-- The quotient rounded up. -/
def cdiv (a b : Nat) : Nat := (a + b - 1) / b

/-- Apply `f` to the element at an index. -/
def lmod {α : Type} (i : Nat) (f : α → α) : List α → List α
  | [] => []
  | x :: xs => match i with
    | 0 => f x :: xs
    | j + 1 => x :: lmod j f xs

/-- Put an element at an index (no effect past the end). -/
def lset {α : Type} (i : Nat) (y : α) (xs : List α) : List α := lmod i (fun _ => y) xs

/-- Take out the first element that a test accepts, with the rest in order. -/
def takeFirst {α : Type} (p : α → Bool) : List α → Option (α × List α)
  | [] => none
  | x :: xs => if p x then some (x, xs) else
    match takeFirst p xs with
    | none => none
    | some (y, ys) => some (y, x :: ys)

/-- Keep the last `n` elements. -/
def lastN {α : Type} (n : Nat) (xs : List α) : List α := xs.drop (xs.length - n)

/-- Insert keeping a list in the order `le` gives, after equal elements. -/
def insertBy {α : Type} (le : α → α → Bool) (x : α) : List α → List α
  | [] => [x]
  | y :: ys => if le y x then y :: insertBy le x ys else x :: y :: ys

/-- Sort by insertion. -/
def sortBy {α : Type} (le : α → α → Bool) (xs : List α) : List α := xs.foldl (fun acc x => insertBy le x acc) []

end Sys2Proof.Machine
end

