-- ==== Sys2Proof/Machine/Num.lean ====
section
/-! DEFINITION. Numbers (chapter 7): codes and their exact values, the roundings and deliveries of R182 to R189, exact arithmetic with
the IEEE flags of R193, the generator of R290 and the mixing function of R243. -/

namespace Sys2Proof.Machine

/-! ## Exact values (R174) -/

/-- An exact value: a NaN with its sign and its fraction field left-aligned in 52 bits, an infinity, or (−1)^neg · m · 2^e. -/
inductive FVal where
  | nan (neg : Bool) (pay : Nat)
  | inf (neg : Bool)
  | fin (neg : Bool) (m : Nat) (e : Int)
  deriving DecidableEq, Repr

/-- A floating-point format (R175): `kind` 0 has infinities and NaNs, 1 is E4M3 with NaN alone, 2 has neither. -/
structure FFmt where
  eb : Nat
  mb : Nat
  bias : Nat
  kind : Nat
  deriving DecidableEq, Repr

/-- binary32. -/
def fp32 : FFmt := ⟨8, 23, 127, 0⟩
/-- binary64. -/
def fp64 : FFmt := ⟨11, 52, 1023, 0⟩
/-- bfloat16. -/
def bf16 : FFmt := ⟨8, 7, 127, 0⟩
/-- binary16. -/
def fp16 : FFmt := ⟨5, 10, 15, 0⟩
/-- E4M3. -/
def e4m3 : FFmt := ⟨4, 3, 7, 1⟩
/-- E5M2. -/
def e5m2 : FFmt := ⟨5, 2, 15, 0⟩
/-- E3M2. -/
def e3m2 : FFmt := ⟨3, 2, 3, 2⟩
/-- E2M3. -/
def e2m3 : FFmt := ⟨2, 3, 1, 2⟩
/-- E2M1. -/
def e2m1 : FFmt := ⟨2, 1, 1, 2⟩

/-- The float format of a code of R172; for an MX code that of its elements. -/
def ffmtOf (c : Nat) : FFmt :=
  match c with
  | 2 => bf16
  | 3 => fp16
  | 4 => e4m3
  | 5 => e5m2
  | 6 => e4m3
  | 7 => e5m2
  | 8 => e3m2
  | 9 => e2m3
  | 10 => e2m1
  | 14 => fp64
  | _ => fp32

/-- An MX format. -/
def isMx (c : Nat) : Bool := decide (6 ≤ c) && decide (c ≤ 10)
/-- An integer format. -/
def isInt (c : Nat) : Bool := c == 11 || c == 12 || c == 13 || c == 15
/-- A reserved format code (R172). -/
def fmtReserved (c : Nat) : Bool := decide (16 ≤ c)

/-- Bits of an element. -/
def elemBits (c : Nat) : Nat :=
  match c with
  | 0 => 8
  | 1 => 32
  | 2 => 16
  | 3 => 16
  | 4 => 8
  | 5 => 8
  | 6 => 8
  | 7 => 8
  | 8 => 6
  | 9 => 6
  | 10 => 4
  | 11 => 8
  | 12 => 16
  | 13 => 32
  | 14 => 64
  | 15 => 64
  | _ => 8

/-- Bits of a code. -/
def FFmt.width (f : FFmt) : Nat := 1 + f.eb + f.mb

/-- The largest finite code, sign bit clear. -/
def FFmt.maxFin (f : FFmt) : Nat :=
  match f.kind with
  | 0 => (2 ^ f.eb - 1) * 2 ^ f.mb - 1
  | 1 => 2 ^ (f.eb + f.mb) - 2
  | _ => 2 ^ (f.eb + f.mb) - 1

/-- The default NaN (R175). -/
def FFmt.defNaN (f : FFmt) : Nat := if f.kind = 0 then (2 ^ f.eb - 1) * 2 ^ f.mb + 2 ^ (f.mb - 1) else 2 ^ (f.eb + f.mb) - 1

/-- The code of an infinity. -/
def FFmt.infCode (f : FFmt) : Nat := (2 ^ f.eb - 1) * 2 ^ f.mb

/-- The sign bit of a code. -/
def FFmt.signed (f : FFmt) (neg : Bool) (c : Nat) : Nat := if neg then c + 2 ^ (f.eb + f.mb) else c

/-- The value of a code (R174, R175). -/
def FFmt.decode (f : FFmt) (c : Nat) : FVal :=
  let neg := c.testBit (f.eb + f.mb)
  let e := nfld c f.mb f.eb
  let m := nfld c 0 f.mb
  let top := 2 ^ f.eb - 1
  if f.kind = 0 ∧ e = top then (if m = 0 then .inf neg else .nan neg (m * 2 ^ (52 - f.mb)))
  else if f.kind = 1 ∧ e = top ∧ m = 2 ^ f.mb - 1 then .nan neg (2 ^ 51)
  else if e = 0 then .fin neg m (1 - (f.bias : Int) - f.mb)
  else .fin neg (m + 2 ^ f.mb) ((e : Int) - f.bias - f.mb)

/-- A signalling NaN (R175). -/
def FVal.sig : FVal → Bool
  | .nan _ p => !p.testBit 51
  | _ => false

/-- A NaN. -/
def FVal.isNaN : FVal → Bool
  | .nan _ _ => true
  | _ => false

/-- The sign. -/
def FVal.neg : FVal → Bool
  | .nan n _ => n
  | .inf n => n
  | .fin n _ _ => n

/-- A zero. -/
def FVal.isZero : FVal → Bool
  | .fin _ m _ => m == 0
  | _ => false

/-- Negate. -/
def FVal.negate : FVal → FVal
  | .nan n p => .nan (!n) p
  | .inf n => .inf (!n)
  | .fin n m e => .fin (!n) m e

/-- An integer as a value. -/
def FVal.ofInt (z : Int) : FVal := .fin (decide (z < 0)) z.natAbs 0

/-! ## Deliveries (R182, R185, R187, R188, R193) -/

/-- What an operation delivers: the code, its IEEE flags (bit 0 invalid, 1 division by zero, 2 overflow, 3 underflow, 4 inexact), the
OVERFLOW flag, and the cause of a NaN it produced (R196), 0 for none. -/
structure NRes where
  code : Nat
  ieee : Nat := 0
  ovf : Bool := false
  cause : Nat := 0
  deriving DecidableEq, Repr

/-- Shift a magnitude to a quantum: the truncated quotient, the remainder and the divisor. -/
def quantum (m : Nat) (e q : Int) : Nat × Nat × Nat :=
  if q ≤ e then (m * 2 ^ (e - q).toNat, 0, 1)
  else
    let d := 2 ^ (q - e).toNat
    (m / d, m % d, d)

/-- Round a quotient to nearest even, or by a generator word (R185). -/
def roundN (n r d : Nat) (sr : Option Nat) : Nat :=
  match sr with
  | none => if d < 2 * r ∨ (2 * r = d ∧ n % 2 = 1) then n + 1 else n
  | some w => if w < r * 2 ^ 32 / d then n + 1 else n

/-- The exponent of a nonzero magnitude: 2^k ≤ m · 2^e < 2^(k+1). -/
def magExp (m : Nat) (e : Int) : Int := (Nat.log2 m : Int) + e

/-- Round a magnitude into a format with unbounded exponents above (R182): the code, whether it is inexact, and whether it is tiny after
rounding (R193). -/
def FFmt.roundMag (f : FFmt) (m : Nat) (e : Int) (sr : Option Nat) : Nat × Bool × Bool :=
  if m = 0 then (0, false, false) else
  let k := magExp m e
  let lo : Int := 1 - (f.bias : Int)
  let qmin : Int := lo - f.mb
  let q := max qmin (k - f.mb)
  let x := quantum m e q
  let n := roundN x.1 x.2.1 x.2.2 sr
  let u := quantum m e (k - f.mb)
  let tiny := decide (k < lo) && !(k == lo - 1 && roundN u.1 u.2.1 u.2.2 sr == 2 ^ (f.mb + 1))
  ((q - qmin).toNat * 2 ^ f.mb + n, x.2.1 != 0, tiny)

/-- The NaN a float format delivers: the default NaN, or in strict mode the NaN itself, quieted and its payload cut (R192, R194); 0x7F
into E4M3 (R187). -/
def FFmt.nanCode (f : FFmt) (strict neg : Bool) (pay : Nat) : Nat :=
  if strict && f.kind == 0 then f.signed neg (f.infCode + (pay / 2 ^ (52 - f.mb) ||| 2 ^ (f.mb - 1))) else f.defNaN

/-- Deliver a value into a float format (R187): `mx` for an element of an MX block, which saturates. -/
def FFmt.deliver (f : FFmt) (mx strict : Bool) (sr : Option Nat) (x : FVal) : NRes :=
  let sat := mx || f.kind != 0
  match x with
  | .nan neg pay => { code := f.nanCode strict neg pay, ieee := if strict && !pay.testBit 51 then 1 else 0 }
  | .inf neg =>
    if sat then { code := f.signed neg f.maxFin, ovf := true, ieee := if strict then 20 else 0 }
    else { code := f.signed neg f.infCode }
  | .fin neg m e =>
    let r := f.roundMag m e sr
    if f.maxFin < r.1 then
      { code := f.signed neg (if sat then f.maxFin else f.infCode), ovf := true, ieee := if strict then 20 else 0 }
    else { code := f.signed neg r.1, ieee := if strict && r.2.1 then (if r.2.2 then 24 else 16) else 0 }

/-- Deliver a value into an integer format of `w` bits (R187, R193). -/
def deliverInt (w : Nat) (strict : Bool) (sr : Option Nat) (x : FVal) : NRes :=
  let big := 2 ^ (w - 1)
  let bad := if strict then 1 else 0
  match x with
  | .nan _ _ => { code := 0, ieee := bad }
  | .inf neg => { code := if neg then big else big - 1, ovf := true, ieee := bad }
  | .fin neg m e =>
    let q := quantum m e 0
    let n := roundN q.1 q.2.1 q.2.2 sr
    if neg then
      if big < n then { code := big, ovf := true, ieee := bad }
      else { code := (2 ^ w - n) % 2 ^ w, ieee := if strict && q.2.1 != 0 then 16 else 0 }
    else if big ≤ n then { code := big - 1, ovf := true, ieee := bad }
    else { code := n, ieee := if strict && q.2.1 != 0 then 16 else 0 }

/-- Deliver a value into a format that is not an MX format. -/
def deliver (fmt : Nat) (strict : Bool) (sr : Option Nat) (x : FVal) : NRes :=
  if isInt fmt then deliverInt (elemBits fmt) strict sr x else (ffmtOf fmt).deliver false strict sr x

/-- The value of an element code of a format that is not an MX format. -/
def decodeElem (fmt c : Nat) : FVal :=
  if fmt = 0 then .ofInt (Int.ofNat (c % 256)) else
  if isInt fmt then .ofInt (sext (elemBits fmt) c) else (ffmtOf fmt).decode c

/-- 2^(k − 127) times an element of an MX block (R176). -/
def decodeMx (fmt scale c : Nat) : FVal :=
  if scale = 255 then .nan false (2 ^ 51) else
  match (ffmtOf fmt).decode c with
  | .fin n m e => .fin n m (e + scale - 127)
  | x => x

/-! ## Exact arithmetic -/

/-- The signed integer of a finite value at a quantum no larger than its exponent. -/
def signedAt (n : Bool) (m : Nat) (e q : Int) : Int :=
  let z := Int.ofNat (m * 2 ^ (e - q).toNat)
  if n then -z else z

/-- Strictly below, for values that are not NaN; −0 lies below +0. -/
def FVal.lt (x y : FVal) : Bool :=
  match x, y with
  | .inf a, .inf b => a && !b
  | .inf a, _ => a
  | _, .inf b => !b
  | .fin a m e, .fin b k f =>
    let q := min e f
    let u := signedAt a m e q
    let v := signedAt b k f q
    decide (u < v) || (u == v && u == 0 && a && !b)
  | _, _ => false

/-- Strictly below as a comparison of numbers: the zeros are equal. -/
def FVal.below (x y : FVal) : Bool := x.lt y && !(x.isZero && y.isZero)

/-- Equal as numbers. -/
def FVal.same (x y : FVal) : Bool := !x.isNaN && !y.isNaN && !x.below y && !y.below x

/-- The exact sum of values that are not NaN (R183): `none` for ∞ − ∞. -/
def FVal.add (x y : FVal) : Option FVal :=
  match x, y with
  | .inf a, .inf b => if a = b then some (.inf a) else none
  | .inf a, _ => some (.inf a)
  | _, .inf b => some (.inf b)
  | .fin a m e, .fin b k f =>
    if m = 0 ∧ k = 0 then some (.fin (a && b) 0 0)
    else
      let q := min e f
      let z := signedAt a m e q + signedAt b k f q
      if z = 0 then some (.fin false 0 0) else some (.fin (decide (z < 0)) z.natAbs q)
  | .nan n p, _ => some (.nan n p)
  | _, .nan n p => some (.nan n p)

/-- The exact product of values that are not NaN: `none` for 0 × ∞. -/
def FVal.mul (x y : FVal) : Option FVal :=
  let n := x.neg != y.neg
  match x, y with
  | .nan a p, _ => some (.nan a p)
  | _, .nan a p => some (.nan a p)
  | .inf _, .inf _ => some (.inf n)
  | .inf _, .fin _ k _ => if k = 0 then none else some (.inf n)
  | .fin _ m _, .inf _ => if m = 0 then none else some (.inf n)
  | .fin _ m e, .fin _ k f => some (.fin n (m * k) (e + f))

/-- The larger or smaller of two values that are not NaN, −0 below +0 (R194). -/
def FVal.max2 (x y : FVal) : FVal := if x.lt y then y else x
def FVal.min2 (x y : FVal) : FVal := if y.lt x then y else x

/-- The first NaN of a list of operands. -/
def firstNaN : List FVal → Option FVal
  | [] => none
  | x :: xs => if x.isNaN then some x else firstNaN xs

/-- What NaN operands make of an operation that delivers into a format (R192, R194): invalid where one signals. -/
def nanResult (f : FFmt) (strict : Bool) (ops : List FVal) (x : FVal) : NRes :=
  let inv := if strict && ops.any FVal.sig then 1 else 0
  match x with
  | .nan n p => { code := f.nanCode strict n p, ieee := inv }
  | _ => { code := f.defNaN, ieee := inv }

/-- A produced NaN with its cause (R195, R196). -/
def produced (f : FFmt) (strict : Bool) (cause : Nat) : NRes := { code := f.defNaN, ieee := if strict then 1 else 0, cause := cause }

/-- a + b, rounded to nearest even into a format (R186). -/
def fAdd (f : FFmt) (strict : Bool) (x y : FVal) : NRes :=
  match firstNaN [x, y] with
  | some n => nanResult f strict [x, y] n
  | none => match x.add y with
    | none => produced f strict 3
    | some z => f.deliver false strict none z

/-- a × b. -/
def fMul (f : FFmt) (strict : Bool) (x y : FVal) : NRes :=
  match firstNaN [x, y] with
  | some n => nanResult f strict [x, y] n
  | none => match x.mul y with
    | none => produced f strict 2
    | some z => f.deliver false strict none z

/-- a × b + c with one rounding. -/
def fFma (f : FFmt) (strict : Bool) (x y z : FVal) : NRes :=
  match firstNaN [x, y, z] with
  | some n => nanResult f strict [x, y, z] n
  | none => match x.mul y with
    | none => produced f strict 2
    | some p => match p.add z with
      | none => produced f strict 3
      | some v => f.deliver false strict none v

/-- max or min: NaN if any term is NaN (R194). -/
def fMax (f : FFmt) (strict : Bool) (x y : FVal) : NRes :=
  match firstNaN [x, y] with
  | some n => nanResult f strict [x, y] n
  | none => f.deliver false strict none (x.max2 y)
def fMin (f : FFmt) (strict : Bool) (x y : FVal) : NRes :=
  match firstNaN [x, y] with
  | some n => nanResult f strict [x, y] n
  | none => f.deliver false strict none (x.min2 y)

/-- A saturating integer result of `w` bits, with OVERFLOW (R179). -/
def satInt (w : Nat) (z : Int) : NRes :=
  let big := Int.ofNat (2 ^ (w - 1))
  if z < -big then { code := 2 ^ (w - 1), ovf := true }
  else if big ≤ z then { code := 2 ^ (w - 1) - 1, ovf := true }
  else { code := ofInt w z }

/-! ## Division, square root, exponential -/

/-- Truncate a nonzero quotient m / k · 2^e to well over 80 bits and make it odd where it is inexact, so that one rounding of it is
right. -/
def stickyDiv (m k : Nat) (e : Int) : Nat × Int :=
  let s := 160 + Nat.log2 k
  let n := m * 2 ^ s
  let q := n / k
  if n % k = 0 then (q, e - s) else (2 * q + 1, e - s - 1)

/-- The integer square root of a number below 2^400. -/
def isqrt (n : Nat) : Nat := (List.range 200).foldr (fun i r => if (r + 2 ^ i) * (r + 2 ^ i) ≤ n then r + 2 ^ i else r) 0

/-- The square root of m · 2^e in the same form. -/
def stickySqrt (m : Nat) (e : Int) : Nat × Int :=
  let odd := e % 2 ≠ 0
  let m := if odd then 2 * m else m
  let e := if odd then e - 1 else e
  let n := m * 2 ^ 240
  let q := isqrt n
  if q * q = n then (q, e / 2 - 120) else (2 * q + 1, e / 2 - 121)

/-- The exponent of one unit in the last place, in binary32, of a positive magnitude (R293). -/
def ulpExp (m : Nat) (e : Int) : Int := max (-149) (magExp m e - 23)

/-- The binary32 code at or next below a positive magnitude: less than one unit in the last place from it. -/
def floorCode (m : Nat) (e : Int) : Nat :=
  min 0x7F800000 ((ulpExp m e + 149).toNat * 2 ^ 23 + (quantum m e (ulpExp m e)).1)

/-- A binary32 code lies within b · 2^q of (−1)^neg · m · 2^e, at less than that where `below`; an infinity does where a value so close
lies beyond the range (R187). -/
def codeWithin (b : Nat) (q : Int) (below neg : Bool) (m : Nat) (e : Int) (c : Nat) : Bool :=
  let r := min (-149) (min e q)
  let y := signedAt neg m e r
  let room := Int.ofNat (b * 2 ^ (q - r).toNat)
  match fp32.decode c with
  | .nan _ _ => false
  | .inf n => n == neg && decide (Int.ofNat (2 ^ (128 - r).toNat) ≤ Int.ofNat y.natAbs + room)
  | .fin n k f =>
    let gap := Int.ofNat (signedAt n k f r - y).natAbs
    if below then decide (gap < room) else decide (gap ≤ room)

/-- exp of a nonnegative rational n / 2^s, in units of 2^-400, for arguments up to 128: 24 terms of the series at an argument
divided by 2^16, then sixteen squarings. -/
def expFix (n s : Nat) : Nat :=
  let one := 2 ^ 400
  let y := n * one / 2 ^ (s + 16)
  let sum := (List.range 24).foldr (fun i acc => one + y * acc / one / (i + 1)) one
  (List.range 16).foldl (fun v _ => v * v / one) sum

/-- ln 2 in units of 2^-400: twice the series of atanh(1/3). -/
def ln2Fix : Nat := 2 * ((List.range 130).map (fun k => 2 ^ 400 / (3 ^ (2 * k + 1) * (2 * k + 1)))).sum

/-- A magnitude in units of 2^-400, of a value that is no multiple of 2^-401. -/
def sticky400 (v : Nat) : Nat × Int := (2 * v + 1, -401)

/-- exp of a finite nonzero value in the sticky form, for |x| ≤ 128. -/
def expSticky (neg : Bool) (m : Nat) (e : Int) (base2 : Bool) : Nat × Int :=
  let n := if e < 0 then m else m * 2 ^ e.toNat
  let s := (-e).toNat
  let v := if base2 then expFix (n * ln2Fix) (s + 400) else expFix n s
  if neg then stickyDiv 1 v 400 else sticky400 v

/-- The integer a finite value is, where it is one of magnitude below 2^16. -/
def smallInt (n : Bool) (m : Nat) (e : Int) : Option Int :=
  if 0 ≤ e then (if m * 2 ^ e.toNat < 65536 then some (if n then -(Int.ofNat (m * 2 ^ e.toNat)) else Int.ofNat (m * 2 ^ e.toNat)) else none)
  else
    let d := 2 ^ (-e).toNat
    if m % d = 0 ∧ m / d < 65536 then some (if n then -(Int.ofNat (m / d)) else Int.ofNat (m / d)) else none

/-- exp or exp2 of any finite nonzero value: beyond every code, or below every one, where its magnitude is 128 or more; exp2 of an
integer is exact. -/
def expMag (neg : Bool) (m : Nat) (e : Int) (base2 : Bool) : Nat × Int :=
  match (if base2 then smallInt neg m e else none) with
  | some k => (1, k)
  | none =>
    if 8 ≤ magExp m e then (if neg then (1, -400) else (1, 200))
    else if 7 ≤ magExp m e then
      if neg then
        let h := expSticky true m (e - 1) base2
        (h.1 * h.1, h.2 + h.2)
      else (1, 200)
    else expSticky neg m e base2

/-- ln of m · 2^e in units of 2^-400: the exponent's part and twice the series of atanh((f − 1)/(f + 1)). -/
def lnFix (m : Nat) (e : Int) : Int :=
  let one := 2 ^ 400
  let p := 2 ^ Nat.log2 m
  let z := (m - p) * one / (m + p)
  let z2 := z * z / one
  let s := (List.range 140).foldr (fun i acc => one / (2 * i + 1) + z2 * acc / one) 0
  Int.ofNat (2 * (z * s / one)) + magExp m e * Int.ofNat ln2Fix

/-- The arc tangent of 1/n in units of 2^-400. -/
def atanInv (n : Nat) : Int :=
  (List.range 100).foldr (fun i acc => Int.ofNat (2 ^ 400 / (n ^ (2 * i + 1) * (2 * i + 1))) * (if i % 2 = 0 then 1 else -1) + acc) 0

/-- 2π in units of 2^-400. -/
def twoPiFix : Nat := (2 * (16 * atanInv 5 - 4 * atanInv 239)).toNat

/-- sin or cos of m · 2^e in units of 2^-400, for an exponent of −400 or more: the argument modulo 2π, then the series. -/
def waveFix (cosine : Bool) (m : Nat) (e : Int) : Int :=
  let one : Int := Int.ofNat (2 ^ 400)
  let r : Int := Int.ofNat (m * 2 ^ (e + 400).toNat % twoPiFix)
  let r2 := r * r / one
  let k := if cosine then 0 else 1
  let s := (List.range 90).foldr (fun i acc => one - r2 * acc / (one * Int.ofNat ((2 * i + 1 + k) * (2 * i + 2 + k)))) one
  if cosine then s else r * s / one

/-- tanh of a positive magnitude: (E − 1) / (E + 1) for E = exp(2x). -/
def tanhMag (m : Nat) (e : Int) : Nat × Int :=
  if 5 ≤ magExp m e then (2 ^ 300 - 1, -300)
  else
    let n := if e < 0 then m else m * 2 ^ e.toNat
    let v := expFix (2 * n) (-e).toNat
    stickyDiv (v - 2 ^ 400) (v + 2 ^ 400) 0

/-- The sigmoid of a finite nonzero value: 1 / (1 + exp(−x)). -/
def sigmoidMag (neg : Bool) (m : Nat) (e : Int) : Nat × Int :=
  if 7 ≤ magExp m e then (if neg then (1, -400) else (2 ^ 300 - 1, -300))
  else
    let n := if e < 0 then m else m * 2 ^ e.toNat
    let v := expFix n (-e).toNat
    stickyDiv (if neg then 2 ^ 400 else v) (v + 2 ^ 400) 0

/-! ## The generator (R290) and the hallmark (R243, R244) -/

/-- One round of the generator on (x0, x1, x2, x3, a, b). -/
def genRound (x : W32 × W32 × W32 × W32 × W32 × W32) : W32 × W32 × W32 × W32 × W32 × W32 :=
  let (x0, x1, x2, x3, a, b) := x
  let x0 := (x0 ^^^ a) * 0xA4E31B25
  let x1 := (x1 + b) * 0x6B19C3D7
  let x2 := x2 ^^^ x0.rotateLeft 9
  let x3 := x3 + x1.rotateLeft 19
  let x0 := x0 ^^^ (x3 >>> 15)
  let x1 := x1 + (x2 >>> 13)
  (x1, x2, x3, x0, a + 0x71C3A5E9, b + 0x2D9546B7)

/-- gen(key, counter): four words (R290). -/
def gen (k0 k1 c0 c1 c2 c3 : W32) : List W32 :=
  let r := (List.range 10).foldl (fun x _ => genRound x) (c0, c1, c2, c3, k0, k1)
  [r.1, r.2.1, r.2.2.1, r.2.2.2.1]

/-- The generator word of a stochastic rounding (R185, R291). -/
def srWord (key idx step site : Nat) : Nat :=
  ((gen (BitVec.ofNat 32 key) (BitVec.ofNat 32 (key / 2 ^ 32)) (BitVec.ofNat 32 idx) (BitVec.ofNat 32 (idx / 2 ^ 32))
    (BitVec.ofNat 32 step) (BitVec.ofNat 32 site)).headD 0).toNat

/-- The mixing function of a 256-byte block at a position (R243). -/
def mixBlock (bs : Bytes) (pos : W64) : Nat :=
  let ab := (chunks 8 (padTo 256 bs)).foldl (fun (x : W64 × W64) w =>
    let w := BitVec.ofNat 64 (leNat w)
    let a := (x.1 ^^^ w) * 0xFF51AFD7ED558CCD
    let a := a ^^^ (a >>> 33)
    let b := (x.2 + w) * 0xC4CEB9FE1A85EC53
    let b := b ^^^ (b >>> 29)
    (a, b + a)) (pos ^^^ 0x6A09E667F3BCC908, pos + 0xBB67AE8584CAA73B)
  let a := (ab.1 ^^^ (ab.2 >>> 31)) * 0x9E3779B97F4A7C15
  let a := a ^^^ (a >>> 32)
  let b := (ab.2 ^^^ (a >>> 27)) * 0xD6E8FEB86659FD93
  let b := b ^^^ (b >>> 32)
  b.toNat * 2 ^ 64 + a.toNat

/-- The sum modulo 2^128 of the mixes of bytes padded to whole blocks, from a position on (R244). -/
def mixBytes (bs : Bytes) (pos : Nat) : Nat :=
  let bl := chunks 256 bs
  ((bl.zip (List.range bl.length)).map (fun x => mixBlock x.1 (BitVec.ofNat 64 (pos + x.2)))).sum % 2 ^ 128

end Sys2Proof.Machine
end

