-- ==== Sys2Proof/Machine/Tensor.lean ====
section
/-! DEFINITION. Tensors in bytes and in codes (R172 to R179), the output conversion of values (R187 to R191) and the operators of a
reduction (R214). The raw form of an element is its code; for an MX format the block's scale code stands above it at bit 8 (R197). -/

namespace Sys2Proof.Machine

/-- The accumulation format of an input format (R179): INT64, binary64 or binary32. -/
def accOf (c : Nat) : Nat := if isInt c then 15 else if c = 1 ∨ c = 14 then 14 else 1

/-- Elements of a piece (R207). -/
def pieceElems (c : Nat) : Nat := if c = 0 then 2048 else if accOf c = 1 then 1024 else 512

/-- Bytes of the elements of one MX block (R177). -/
def mxBytes (c : Nat) : Nat := 4 * elemBits c

/-- Bytes that `n` elements take (R177, R209). -/
def tensorBytes (c n : Nat) : Nat :=
  if isMx c then
    n / 256 * (8 + 8 * mxBytes c) + (if n % 256 = 0 then 0 else 8 + n % 256 / 32 * mxBytes c)
  else n * elemBits c / 8

/-- Element `i` of the bytes of a tensor, in raw form. -/
def rawElem (c : Nat) (bs : Bytes) (i : Nat) : Nat :=
  if isMx c then
    let row := i / 256 * (8 + 8 * mxBytes c)
    let j := i / 32 % 8
    let w := elemBits c
    let block := rdLE bs (row + 8 + j * mxBytes c) (mxBytes c)
    nfld block (w * (i % 32)) w + 256 * rdLE bs (row + j) 1
  else rdLE bs (i * (elemBits c / 8)) (elemBits c / 8)

/-- The raw elements of `n` elements' bytes. -/
def unpackTensor (c n : Nat) (bs : Bytes) : List Nat := (List.range n).map (rawElem c bs)

/-- The bytes of one MX block's elements. -/
def packBlock (c : Nat) (xs : List Nat) : Bytes :=
  toLE (mxBytes c) ((xs.zip (List.range xs.length)).map (fun x => nfld x.1 0 (elemBits c) * 2 ^ (elemBits c * x.2))).sum

/-- The bytes of one MX row. -/
def packRow (c : Nat) (xs : List Nat) : Bytes :=
  let bl := chunks 32 xs
  padTo 8 (bl.map (fun b => BitVec.ofNat 8 (b.headD 0 / 256))) ++ bl.flatMap (packBlock c)

/-- The bytes of raw elements. -/
def packTensor (c : Nat) (xs : List Nat) : Bytes :=
  if isMx c then (chunks 256 xs).flatMap (packRow c) else xs.flatMap (toLE (elemBits c / 8))

/-- The value of an element in raw form. -/
def rawValue (c x : Nat) : FVal := if isMx c then decodeMx c (x / 256) (x % 256) else decodeElem c x

/-- A raw element expanded into an accumulation format (R179, R193). -/
def expandRaw (c acc : Nat) (strict : Bool) (x : Nat) : NRes := deliver acc strict none (rawValue c x)

/-! ## Output blocks (R189, R240) -/

/-- The shared exponent of a block from its largest magnitude (R189); `none` stands for an infinity. -/
def mxExp (f : FFmt) (amax : Option (Nat × Int)) : Int :=
  match amax with
  | none => 127
  | some (m, e) =>
    if m = 0 then -127 else
    match f.decode f.maxFin with
    | .fin _ em ee =>
      let x := magExp m e - magExp em ee
      let q := min e (ee + x)
      let x := if m * 2 ^ (e - q).toNat ≤ em * 2 ^ (ee + x - q).toNat then x else x + 1
      max (-127) (min 127 x)
    | _ => 127

/-- The larger of two magnitudes. -/
def maxMag (a b : Nat × Int) : Nat × Int :=
  let q := min a.2 b.2
  if a.1 * 2 ^ (a.2 - q).toNat < b.1 * 2 ^ (b.2 - q).toNat then b else a

/-- The largest magnitude of a block, `none` where it holds an infinity. -/
def blockMax (xs : List FVal) : Option (Nat × Int) :=
  xs.foldl (fun acc x => match acc, x with
    | some a, .fin _ m e => some (maxMag a (m, e))
    | some _, .inf _ => none
    | acc, _ => acc) (some (0, 0))

/-- Deliver one block of values (R187, R189): raw results with their flags. -/
def deliverBlock (c : Nat) (strict : Bool) (sr : Nat → Option Nat) (xs : List FVal) : List NRes :=
  let f := ffmtOf c
  if xs.any FVal.isNaN then
    xs.map (fun x => { code := 255 * 256, ieee := if strict && x.sig then 1 else 0 })
  else
    let k := mxExp f (blockMax xs)
    (xs.zip (List.range xs.length)).map (fun x =>
      let v := match x.1 with
        | .fin n m e => FVal.fin n m (e - k)
        | v => v
      let r := f.deliver true strict (sr x.2) v
      { r with code := r.code + 256 * (k + 127).toNat })

/-- Deliver a beat of values into any format. -/
def deliverBeat (c : Nat) (strict : Bool) (sr : Nat → Option Nat) (xs : List FVal) : List NRes :=
  if isMx c then deliverBlock c strict sr xs
  else (xs.zip (List.range xs.length)).map (fun x => deliver c strict (sr x.2) x.1)

/-! ## Reduction operators (R214, R194) -/

/-- One combination in an accumulation format: SUM, PROD, MAX, MIN, AND, OR, XOR. -/
def combine (acc opr : Nat) (strict : Bool) (x y : Nat) : NRes :=
  if acc = 15 then
    let a := sext 64 x
    let b := sext 64 y
    match opr with
    | 0 => satInt 64 (a + b)
    | 1 => satInt 64 (a * b)
    | 2 => { code := ofInt 64 (max a b) }
    | 3 => { code := ofInt 64 (min a b) }
    | 4 => { code := x &&& y }
    | 5 => { code := x ||| y }
    | 6 => { code := x ^^^ y }
    | _ => { code := y }
  else
    let f := ffmtOf acc
    let a := f.decode x
    let b := f.decode y
    match opr with
    | 0 => fAdd f strict a b
    | 1 => fMul f strict a b
    | 2 => fMax f strict a b
    | 3 => fMin f strict a b
    | _ => { code := y }

/-- |x| in an accumulation format. -/
def accAbs (acc : Nat) (strict : Bool) (x : Nat) : NRes :=
  if acc = 15 then satInt 64 (sext 64 x).natAbs
  else
    let f := ffmtOf acc
    if (f.decode x).isNaN && !strict then { code := f.defNaN } else { code := nfld x 0 (f.width - 1) }

/-- −x in an accumulation format. -/
def accNeg (acc : Nat) (strict : Bool) (x : Nat) : NRes :=
  if acc = 15 then satInt 64 (-(sext 64 x))
  else
    let f := ffmtOf acc
    if (f.decode x).isNaN && !strict then { code := f.defNaN } else { code := (x + 2 ^ (f.width - 1)) % 2 ^ f.width }

/-- The constant of LDK: a bfloat16 value, whose NaN is the default NaN in ordinary mode (R194), or a signed 16-bit integer. -/
def accConst (acc : Nat) (strict : Bool) (imm : Nat) : NRes :=
  if acc = 15 then { code := ofInt 64 (sext 16 imm) } else deliver acc strict none (bf16.decode imm)

/-! ## The output stage (R190) -/

/-- SCALE, BIAS, LO and HI of an output stage block (R216). -/
structure OutBlock where
  scale : Nat
  bias : Nat
  lo : Nat
  hi : Nat
  deriving DecidableEq, Repr

/-- The output stage block in its 16 bytes. -/
def OutBlock.read (bs : Bytes) : OutBlock := ⟨rdLE bs 0 4, rdLE bs 4 4, rdLE bs 8 4, rdLE bs 12 4⟩

/-- a · s + b and the clip: the value and what it raises (flags and cause of a produced NaN). -/
def stageValue (acc : Nat) (strict : Bool) (o : OutBlock) (a : Nat) : FVal × NRes :=
  let s := fp32.decode o.scale
  let b := fp32.decode o.bias
  let lo := fp32.decode o.lo
  let hi := fp32.decode o.hi
  let x := decodeElem acc a
  if strict && acc != 15 then
    let f := ffmtOf acc
    let r := fFma f true x s b
    let r2 := fMax f true (f.decode r.code) lo
    let r3 := fMin f true (f.decode r2.code) hi
    (f.decode r3.code, { code := r3.code, ieee := r.ieee ||| r2.ieee ||| r3.ieee, ovf := r.ovf, cause := r.cause })
  else if x.isNaN then (x, { code := 0 })
  else match x.mul s with
    | none => (.nan false (2 ^ 51), { code := 0, cause := 2 })
    | some p => match p.add b with
      | none => (.nan false (2 ^ 51), { code := 0, cause := 3 })
      | some v => (((v.max2 lo).min2 hi), { code := 0 })

/-! ## The numeric control block (R180, R181) -/

/-- The numeric control block. -/
structure NumCtl where
  rmode : Bool
  strict : Bool
  trap : Bool
  halt : Bool
  explicit : Bool
  step : Nat
  key : Nat
  deriving DecidableEq, Repr

/-- The numeric control block in its 16 bytes. -/
def NumCtl.read (bs : Bytes) : NumCtl :=
  { rmode := bfld bs 0 0 1 == 1, strict := bfld bs 0 1 1 == 1, trap := bfld bs 0 2 1 == 1, halt := bfld bs 0 3 1 == 1,
    explicit := bfld bs 0 4 1 == 1, step := rdLE bs 4 4, key := rdLE bs 8 8 }

/-- R181: STRICT excludes stochastic rounding, and EXPLICIT needs an operation that passes to a bench. -/
def NumCtl.legal (n : NumCtl) (toBench : Bool) : Bool := !(n.strict && n.rmode) && (!n.explicit || toBench)

/-- The generator word of an element at a site, under RMODE 1. -/
def NumCtl.sr (n : NumCtl) (site idx : Nat) : Option Nat := if n.rmode then some (srWord n.key idx n.step site) else none

end Sys2Proof.Machine
end

