-- ==== Sys2Proof/Machine/Func.lean ====
section
/-! DEFINITION. The function unit (R293, R316): fixed mappings of binary32 codes. Where the manual gives only a bound, the result is the
part's own code (`Config.fuMap`, free) where that lies within the bound, and the code next below the exact result where it does not. -/

namespace Sys2Proof.Machine

/-- The mapping of the part for an operation and its operands. -/
def fuFree (op x y : Nat) : Nat := (Config.fuMap op (BitVec.ofNat 32 x) (BitVec.ofNat 32 y)).toNat

/-- A result that a bound governs (R293): any code within b · 2^q of (−1)^neg · m · 2^e that the part's mapping has. In strict mode it
raises inexact, and underflow where the code delivered is below the normal ones (R193). -/
def fuBound (op x y b : Nat) (q : Int) (below strict neg : Bool) (m : Nat) (e : Int) : NRes :=
  let own := fuFree op x y
  let c := if codeWithin b q below neg m e own then own else fp32.signed neg (floorCode m e)
  { code := c, ovf := nfld c 0 31 == fp32.infCode, ieee := if strict then (if nfld c 0 31 < 0x00800000 then 24 else 16) else 0 }

/-- A result within `b` units in the last place, its sign that of the exact result (R183). -/
def fuUlps (op x y b : Nat) (below strict neg : Bool) (m : Nat) (e : Int) : NRes :=
  let r := fuBound op x y b (ulpExp m e) below strict neg m e
  if r.code.testBit 31 = neg then r else { r with code := fp32.signed neg 0 }

/-- A result of division or a root: correctly rounded (`exact`), or less than one unit in the last place off. -/
def fuRound (op x y : Nat) (exact strict neg : Bool) (m : Nat) (e : Int) : NRes :=
  if exact then fp32.deliver false strict none (.fin neg m e) else fuUlps op x y 1 true strict neg m e

/-- An infinity at a pole, which in strict mode raises division by zero. -/
def fuPole (strict neg : Bool) : NRes := { code := fp32.signed neg fp32.infCode, ieee := if strict then 2 else 0 }

/-- A value given exactly. -/
def fuExact (c : Nat) : NRes := { code := c }

/-- DIV: a / b. -/
def fuDiv (exact strict : Bool) (x y : Nat) : NRes :=
  let a := fp32.decode x
  let b := fp32.decode y
  let neg := a.neg != b.neg
  match firstNaN [a, b] with
  | some n => nanResult fp32 strict [a, b] n
  | none => match a, b with
    | .inf _, .inf _ => produced fp32 strict 4
    | .inf _, _ => fuExact (fp32.signed neg fp32.infCode)
    | _, .inf _ => fuExact (fp32.signed neg 0)
    | .fin _ m e, .fin _ k f =>
      if k = 0 then (if m = 0 then produced fp32 strict 4 else fuPole strict neg)
      else if m = 0 then fuExact (fp32.signed neg 0)
      else
        let q := stickyDiv m k (e - f)
        fuRound 0x30 x y exact strict neg q.1 q.2
    | _, _ => produced fp32 strict 4

/-- RCP: 1 / a. -/
def fuRcp (exact strict : Bool) (x : Nat) : NRes :=
  match fp32.decode x with
  | .nan n p => nanResult fp32 strict [.nan n p] (.nan n p)
  | .inf n => fuExact (fp32.signed n 0)
  | .fin n m e =>
    if m = 0 then fuPole strict n
    else
      let q := stickyDiv 1 m (-e)
      fuRound 0x31 x 0 exact strict n q.1 q.2

/-- SQRT. -/
def fuSqrt (exact strict : Bool) (x : Nat) : NRes :=
  match fp32.decode x with
  | .nan n p => nanResult fp32 strict [.nan n p] (.nan n p)
  | .inf n => if n then produced fp32 strict 5 else fuExact x
  | .fin n m e =>
    if m = 0 then fuExact x
    else if n then produced fp32 strict 5
    else
      let q := stickySqrt m e
      fuRound 0x32 x 0 exact strict false q.1 q.2

/-- RSQRT: less than one unit in the last place off in both modes. -/
def fuRsqrt (strict : Bool) (x : Nat) : NRes :=
  match fp32.decode x with
  | .nan n p => nanResult fp32 strict [.nan n p] (.nan n p)
  | .inf n => if n then produced fp32 strict 5 else fuExact 0
  | .fin n m e =>
    if m = 0 then fuPole strict n
    else if n then produced fp32 strict 5
    else
      let r := stickySqrt m e
      let q := stickyDiv 1 r.1 (-r.2)
      fuRound 0x33 x 0 false strict false q.1 q.2

/-- EXP and EXP2: correctly rounded in strict mode, else within 2 and 1 units. -/
def fuExp (base2 strict : Bool) (x : Nat) : NRes :=
  let op := if base2 then 0x35 else 0x34
  match fp32.decode x with
  | .nan n p => nanResult fp32 strict [.nan n p] (.nan n p)
  | .inf n => fuExact (if n then 0 else fp32.infCode)
  | .fin n m e =>
    if m = 0 then fuExact 0x3F800000
    else
      let q := expMag n m e base2
      if strict then fp32.deliver false true none (.fin false q.1 q.2)
      else fuUlps op x 0 (if base2 then 1 else 2) false false false q.1 q.2

/-- LOG and LOG2: within 2 units. LOG2 of a power of two is an integer. -/
def fuLog (op : Nat) (strict : Bool) (x : Nat) : NRes :=
  match fp32.decode x with
  | .nan n p => nanResult fp32 strict [.nan n p] (.nan n p)
  | .inf n => if n then produced fp32 strict 6 else fuExact x
  | .fin n m e =>
    if m = 0 then fuPole strict true
    else if n then produced fp32 strict 6
    else if x = 0x3F800000 then fuExact 0
    else if op = 0x37 ∧ m = 2 ^ Nat.log2 m then fuUlps op x 0 2 false strict (decide (magExp m e < 0)) (magExp m e).natAbs 0
    else
      let v := lnFix m e
      let q := if op = 0x37 then stickyDiv v.natAbs ln2Fix 0 else sticky400 v.natAbs
      fuUlps op x 0 2 false strict (decide (v < 0)) q.1 q.2

/-- SIN and COS: within 2 units up to 65,536, within 2^-20 beyond. -/
def fuTrig (op : Nat) (strict : Bool) (x : Nat) (n : Bool) (m : Nat) (e : Int) : NRes :=
  let cosine := op == 0x3B
  let v := waveFix cosine m e
  let neg := decide (v < 0) != (n && !cosine)
  let q := sticky400 v.natAbs
  if (FVal.fin false 65536 0).lt (.fin false m e) then fuBound op x 0 1 (-20) false strict neg q.1 q.2
  else fuUlps op x 0 2 false strict neg q.1 q.2

/-- TANH, SIGMOID, SIN and COS. -/
def fuWave (op : Nat) (strict : Bool) (x : Nat) : NRes :=
  match fp32.decode x with
  | .nan n p => nanResult fp32 strict [.nan n p] (.nan n p)
  | .inf n => match op with
    | 0x38 => fuExact (fp32.signed n 0x3F800000)
    | 0x39 => fuExact (if n then 0 else 0x3F800000)
    | _ => produced fp32 strict 6
  | .fin n m e =>
    match op with
    | 0x38 =>
      if m = 0 then fuExact x
      else
        let q := tanhMag m e
        fuUlps op x 0 2 false strict n q.1 q.2
    | 0x39 =>
      if m = 0 then fuUlps op x 0 2 false strict false 1 (-1)
      else
        let q := sigmoidMag n m e
        fuUlps op x 0 2 false strict false q.1 q.2
    | _ => if m = 0 then fuExact (if op = 0x3A then x else 0x3F800000) else fuTrig op strict x n m e

/-- A function of R316 by its OP, on binary32 codes. -/
def fuEval (op : Nat) (strict : Bool) (x y : Nat) : NRes :=
  match op with
  | 0x30 => fuDiv strict strict x y
  | 0x31 => fuRcp strict strict x
  | 0x32 => fuSqrt strict strict x
  | 0x33 => fuRsqrt strict x
  | 0x34 => fuExp false strict x
  | 0x35 => fuExp true strict x
  | 0x36 => fuLog 0x36 strict x
  | 0x37 => fuLog 0x37 strict x
  | op => fuWave op strict x

end Sys2Proof.Machine
end

