-- ==== Sys2Proof/Machine/SMap.lean ====
section
/-! DEFINITION. Sparse tables: a list of (key, value) pairs, keys strictly rising, no value equal to what an unlisted key
reads as. Every table of the device that is larger than a handful of entries is one of these, so equal tables are equal
data. -/

namespace Sys2Proof.Machine

/-- A sparse table. -/
abbrev SMap (V : Type) := List (Nat × V)

/-- The value listed at a key. -/
def mget? {V : Type} (k : Nat) : SMap V → Option V
  | [] => none
  | (j, v) :: m => if j = k then some v else mget? k m

/-- The value at a key, `d` where nothing is listed. -/
def mget {V : Type} (d : V) (k : Nat) (m : SMap V) : V := (mget? k m).getD d

/-- The list without a key. -/
def merase {V : Type} (k : Nat) : SMap V → SMap V
  | [] => []
  | (j, v) :: m => if j = k then merase k m else (j, v) :: merase k m

/-- The list with a key set. -/
def minsert {V : Type} (k : Nat) (x : V) : SMap V → SMap V
  | [] => [(k, x)]
  | (j, v) :: m => if k < j then (k, x) :: (j, v) :: m else if j = k then (k, x) :: m else (j, v) :: minsert k x m

/-- Write a key, keeping the canonical form: the value an unlisted key reads as removes the entry. -/
def mput {V : Type} [DecidableEq V] (d : V) (k : Nat) (x : V) (m : SMap V) : SMap V :=
  if x = d then merase k m else minsert k x m

/-- Apply a function to the value at a key. -/
def mmod {V : Type} [DecidableEq V] (d : V) (k : Nat) (f : V → V) (m : SMap V) : SMap V := mput d k (f (mget d k m)) m

/-- Apply a function to every listed value. -/
def mmap {V : Type} [DecidableEq V] (d : V) (f : V → V) (m : SMap V) : SMap V :=
  (m.map (fun e => (e.1, f e.2))).filter (fun e => decide (e.2 ≠ d))

/-- Keys strictly rising. -/
def mrising {V : Type} : SMap V → Bool
  | [] => true
  | [_] => true
  | (j, _) :: (k, w) :: m => decide (j < k) && mrising ((k, w) :: m)

/-- The canonical form of a table whose unlisted keys read as `d`. -/
def mwf {V : Type} [DecidableEq V] (d : V) (m : SMap V) : Bool := mrising m && m.all (fun e => decide (e.2 ≠ d))

/-- Write consecutive keys. -/
def mputs {V : Type} [DecidableEq V] (d : V) (k : Nat) : List V → SMap V → SMap V
  | [], m => m
  | x :: xs, m => mputs d (k + 1) xs (mput d k x m)

/-- Read consecutive keys. -/
def mgets {V : Type} (d : V) (k n : Nat) (m : SMap V) : List V := (List.range n).map (fun i => mget d (k + i) m)

/-- Remove the keys of a range (its entries then read as unlisted). -/
def mclear {V : Type} (lo n : Nat) (m : SMap V) : SMap V := m.filter (fun e => decide (e.1 < lo ∨ lo + n ≤ e.1))

end Sys2Proof.Machine
end

