-- ==== Sys2Proof/Machine/Types.lean ====
section
/-! DEFINITION. The records the state is built of, chapter by chapter (chapters 2 to 6, 14 and 17): plain data, each with its
value at reset. -/

namespace Sys2Proof.Machine

/-! ## Descriptors and what leaves the device -/

/-- Which descriptor an operation completes: its ring, first slot, opcode and QUIET flag (R396), the number of Function Level Resets
seen when it was fetched (an operation of an earlier number writes nothing more to host memory, R381), and its number in the order of
fetch (R44, R297). -/
structure DescRef where
  ring : Nat
  slot : Nat
  op : Nat
  quiet : Bool
  gen : Nat
  num : Nat
  deriving DecidableEq, Repr

/-- A descriptor fetched (R391) whose opcode has not yet been judged: its 64 or 128 bytes and the plant time of the fetch. -/
structure Fetched where
  ref : DescRef
  bytes : Bytes
  time : W64
  deriving DecidableEq, Repr

/-- What the device sends out or answers, in the order it does so. -/
inductive Out where
  /-- A posted write to host memory (R402). -/
  | hostWrite (addr : Nat) (bytes : Bytes)
  /-- The MSI-X message of a vector (R406): the data of its table entry, written to the entry's address. -/
  | msix (vec : Nat) (addr : Nat) (data : W32)
  /-- The value that a BAR0 read returns. -/
  | readValue (addr : Nat) (v : W32)
  /-- A flit on a port, block by block: the physical lane, the sync header and the eight bytes of each (R60, R61). -/
  | flit (port : Nat) (blocks : List (Nat × Nat × Bytes))
  /-- A row on a port: the physical lanes, and the control block that goes on each of them (R54). -/
  | row (port : Nat) (lanes : List Nat) (block : Bytes)
  /-- The ALIGN row of a port: the block of each physical lane (R55). -/
  | align (port : Nat) (blocks : List (Nat × Bytes))
  /-- Electrical idle on every fabric and twin transmitter (R451). -/
  | electricalIdle
  /-- The pattern a JTAG instruction drives or shifts (R505). -/
  | jtag (ir : Nat) (bits : List Bool)
  deriving DecidableEq, Repr

/-- A change that the lead of a twin pair stages for its follower (R429). -/
inductive Change where
  /-- A register write. -/
  | reg (addr : Nat) (v : W32)
  /-- A descriptor, with what it read from host memory. -/
  | desc (bytes data : Bytes)
  /-- Bytes copied into the weight-store range. -/
  | mem (addr : Nat) (data : Bytes)
  /-- A TABLE_SWAP whose SWAP has fired: its FLAGS and the lead's EPOCH. -/
  | swap (flags epoch : Nat)
  /-- A TWIN_SYNC begins (R432): the follower discards its former mirrored state. -/
  | start
  /-- The contents of a register of a mirrored table, as TWIN_SYNC copies them. -/
  | raw (addr : Nat) (v : W32)
  /-- A shard set with its committed version, as TWIN_SYNC copies it. -/
  | shard (set : Nat) (parts : List (List Nat))
  deriving DecidableEq, Repr

/-! ## Plant time (chapter 2) -/

/-- What a strike comparator starts. -/
inductive CmpAct where
  /-- The launch of a collective or update (R259). -/
  | launchCl (group opseq : Nat)
  /-- An Assay launch (R296), by its launch number. -/
  | launchAs (id : Nat)
  /-- A weight-store send (R375), by its group and send number. -/
  | launchWs (group id : Nat)
  /-- The COMMIT strike of an update (R355). -/
  | commit (group opseq : Nat)
  /-- The DRAIN strike of the pending TABLE_SWAP (R114). -/
  | drain
  /-- The SWAP strike of the pending TABLE_SWAP (R114). -/
  | swap
  /-- The strike of a TWIN_COMMIT or TWIN_SYNC batch (R431, R432). -/
  | twinCommit (batch : Nat)
  /-- The strike of a TWIN_PROMOTE (R438). -/
  | promote
  /-- The refresh series of a stack (R367). -/
  | refresh (stack : Nat)
  /-- The series of a maintenance window (R463). -/
  | maint (win : Nat)
  deriving DecidableEq, Repr

/-- One strike comparator in use (R40): its number, its user (R41), the plant time at which it fires, the beat it waits for with
the OFFSET (R38; `time` is then the deadline), what it starts, the number of its descriptor in the order of fetch (R44), and the
local cycle at which the count reached its time, none before that. -/
structure Cmp where
  id : Nat
  user : Nat
  time : W64
  wait : Option (Nat × Nat)
  act : CmpAct
  ord : Nat
  due : Option Nat
  deriving DecidableEq, Repr

/-- One gate engine's run-time state (R46, R48): whether a cycle has begun, the plant time of the cycle's start, the entry in
force, the boundary that ends it, and whether a swap is armed. -/
structure GateRun where
  begun : Bool
  start : W64
  entry : Nat
  ends : W64
  armed : Bool
  deriving DecidableEq, Repr

/-- A gate engine at reset. -/
def GateRun.init : GateRun := ⟨false, 0, 0, 0, false⟩

/-- The plant-time unit. -/
structure TimeSt where
  /-- The 96-bit accumulator (R18): plant time is bits [95:32]. -/
  acc : BitVec 96
  /-- PT_RATE (R18). -/
  rate : BitVec 40
  /-- PT_RATE_LO as written and not yet taken (R49). -/
  loHeld : Option W32
  /-- PT_STEP_LO as written (R49). -/
  stepLo : W32
  /-- The latch of PT_NOW_HI (R493). -/
  nowHi : W32
  /-- The latch of BEAT_STAMP_HI (R493). -/
  stampHi : W32
  /-- Consecutive measurements within LOCK_BAND (R20). -/
  lockRun : Nat
  /-- Whether the count has left UNSET (R21). -/
  leftUnset : Bool
  /-- Whether the selected source has been locked to since it was selected (R27). -/
  everLocked : Bool
  /-- The depth of the last marker of the source (R27). -/
  srcDepth : Nat
  /-- What the servo has still to slew, in units of 2^-32 tick (R25). -/
  slew : Int
  /-- BEAT_COUNT (R31). -/
  beatCount : W32
  /-- BEAT_STAMP (R49). -/
  beatStamp : W64
  /-- The beat log, oldest first, at most 16 (R31). -/
  beats : List (W32 × W64)
  /-- The plant time of the last accepted edge (R31). -/
  lastEdge : Option W64
  /-- The comparators in use. -/
  cmps : List Cmp
  /-- Cycles of the local clock since reset. -/
  cycle : Nat
  /-- What the count has run since the source's last edge or first-transmission marker, in units of 2^-32 tick (R26). -/
  quiet : Nat
  /-- The source's loss has been declared (R26). -/
  lost : Bool
  /-- PT_10M_IN carries a 10 MHz signal, and the local clock is locked to it (R18). -/
  tenMHz : Bool
  /-- PT_PPS_OUT is high. -/
  ppsHigh : Bool
  /-- The plant time at which PT_PPS_OUT falls. -/
  ppsEnd : W64
  /-- The second of the last pulse of PT_PPS_OUT. -/
  ppsSec : Option Nat
  /-- The 16 gate engines. -/
  gates : SMap GateRun
  deriving DecidableEq, Repr

/-- The plant-time unit at reset (R18, R20). -/
def TimeSt.init : TimeSt where
  acc := 0
  rate := 0x44B82FA0A
  loHeld := none
  stepLo := 0
  nowHi := 0
  stampHi := 0
  lockRun := 0
  leftUnset := false
  everLocked := false
  srcDepth := 15
  slew := 0
  beatCount := 0
  beatStamp := 0
  beats := []
  lastEdge := none
  cmps := []
  cycle := 0
  quiet := 0
  lost := false
  tenMHz := false
  ppsHigh := false
  ppsEnd := 0
  ppsSec := none
  gates := []

/-! ## Lanes and ports (chapter 3) -/

/-- A lane's run-time state beside LN_LANE_STAT. -/
structure Lane where
  /-- The local cycle at which the present loss of signal or lock began (R75). -/
  lossSince : Option Nat
  /-- Retries charged, by alignment period number, within the window (R74, R75). -/
  charges : SMap Nat
  /-- The four board-table alternatives of 8 bytes, as one number (R78). -/
  alts : Nat
  /-- How many valid alternatives have failed at this bring-up (R83). -/
  failed : List Nat
  /-- The local cycle at which the lane entered LOCK (R83). -/
  lockAt : Nat
  /-- Load samples at band FULL since the last charged retry (R465): the hours that count toward STALE, in units of 4,096 ticks. -/
  quiet : Nat
  /-- The alternative the Surveyor wants and has not yet recorded (R463, R465). -/
  wanted : Option Nat
  deriving DecidableEq, Repr

/-- A lane at reset. -/
def Lane.init : Lane := ⟨none, [], 0, [], 0, 0, none⟩

/-- A sent flit kept in the replay buffer (R68): its SEQ, 120 data bytes, CREDIT byte, and the packets it carries part of. -/
structure SentFlit where
  seq : Nat
  data : Bytes
  credit : Nat
  deriving DecidableEq, Repr

/-- A packet as it stands on the link: the 256-bit header (R86), the payload of LEN bytes, and the end-to-end CRC block when
E2E is set. `own` is not on the link: the number of the send of this device that the packet belongs to (R376). -/
structure Pkt where
  hdr : Nat
  body : Bytes
  e2e : Nat
  own : Option Nat
  deriving DecidableEq, Repr

/-- A packet the receiver has whole, with the plant time of its last header block (R169), and whether a replay touched it (R72). -/
structure RxPkt where
  pkt : Pkt
  hdrTime : W64
  replayed : Bool
  deriving DecidableEq, Repr

/-- A marker word received whole (R65): its 126 bits, the arrival stamp of fragment 0, and whether a measurement may be taken. -/
structure RxMarker where
  word : Nat
  stamp : W64
  clean : Bool
  deriving DecidableEq, Repr

/-- A copy being sent: the packet number in the buffer, the bytes not yet put into a flit with the index of the next one, and the SEQ of
the flit that last took some. -/
structure TxCopy where
  id : Nat
  left : Bytes
  pos : Nat
  seq : Option Nat
  deriving DecidableEq, Repr

/-- A port's link state beside LN_PORT_STAT and LN_PORT_CNT; port 256 is the twin link (R50). -/
structure Port where
  /-- Next SEQ to send, modulo 4,096 (R68). -/
  txSeq : Nat
  /-- Flits kept until acknowledged, oldest first (R68). -/
  replay : List SentFlit
  /-- The replay in progress: how many flits of `replay` it has still to send again. -/
  resend : Nat
  /-- Consecutive replays without an advance of ACK (R71). -/
  replays : Nat
  /-- The local cycle since which the oldest unacknowledged flit waits (R70). -/
  ackFrom : Nat
  /-- SEQ expected next (R69). -/
  rxNext : Nat
  /-- Some flit has been accepted since the sequence numbers were started. -/
  rxAny : Bool
  /-- The receiver discards until a RETRY_START (R69). -/
  discard : Bool
  /-- The local cycle of the last RETRY_REQ (R69). -/
  reqAt : Nat
  /-- Bytes of a packet whose end has not come (R63). -/
  rxPart : Bytes
  /-- Plant time of the last header block of the packet in `rxPart`. -/
  rxHdrTime : W64
  /-- A flit carrying part of `rxPart` was replayed. -/
  rxPartReplayed : Bool
  /-- Packets received whole and not yet taken by PACKET_ARRIVE. -/
  rxWhole : List RxPkt
  /-- The first of them waits for cells of the twin link's quota, and the wait is counted (R130). -/
  waits : Bool
  /-- Fragments of the marker being received, fragment 0 first (R65). -/
  frag : List Nat
  fragStamp : W64
  fragClean : Bool
  /-- Markers received whole. -/
  markerIn : List RxMarker
  /-- MNUM and arrival stamp of the last first-transmission time marker of the peer (R65). -/
  echo : Option (Nat × W64)
  /-- Our MNUM of the next time marker. -/
  mnum : Nat
  /-- Departure stamps of our own markers, by MNUM (R66). -/
  sent : SMap W64
  /-- The marker being sent: the word and the fragment that goes next (R65). -/
  markTx : Option (Nat × Nat)
  /-- A time marker is due and has not begun (R67). -/
  markDue : Bool
  /-- Beat markers that wait for a trailer. -/
  beatTx : List Nat
  /-- Plant time of the last time marker begun (R67). -/
  lastMark : W64
  /-- Credits to return to the peer, by message class (R62). -/
  owe : List Nat
  /-- Credits held for the peer's partitions, by message class (R62). -/
  credit : List Nat
  /-- The largest count of each credit the peer has returned: its partition sizes (R110). -/
  peerSize : List Nat
  /-- The ACK last sent (R64). -/
  ackSent : Nat
  /-- Physical lane of each logical lane, as ALIGN gave them (R56). -/
  lmap : List Nat
  /-- Our TRAIN stage, and the peer's last one (R81). -/
  stage : Nat
  peerStage : Option Nat
  /-- The peer's FENCE_MASK and ACKED (R81). -/
  peerFence : Nat
  peerAcked : Nat
  /-- ALIGN seen on every lane in use since DESKEW was entered. -/
  aligned : Bool
  /-- The local cycle at which bring-up began (R82). -/
  bringAt : Nat
  /-- Bring-up passes through QUALIFY, with the flits still to count (R82). -/
  qualify : Bool
  qualLeft : Nat
  /-- The alignment period in which QUALIFY was entered (R83). -/
  qualFrom : Nat
  /-- The port left UP under R71, R75 or R76 and is neither UP, DOWN nor OFF since (R96). -/
  retraining : Bool
  /-- Retries begun in the current alignment period, and the period's number (R74). -/
  periodRetries : Nat
  period : Nat
  /-- Copies being sent, the first one first. -/
  tx : List TxCopy
  /-- Deficits and fresh bits of the 28 queues of classes 1-7, and the position (R156). -/
  deficit : List Nat
  fresh : List Bool
  pos : Nat
  /-- The last ALIGN blocks sent in this period: one is due each period (R55). -/
  alignSent : Nat
  /-- Flits sent since the last ALIGN row (R55). -/
  flits : Nat
  /-- Rows held in the elastic buffer: IDLE rows inserted less deleted (R59). -/
  elastic : Int
  deriving DecidableEq, Repr

/-- A port at reset. -/
def Port.init : Port where
  txSeq := 0
  replay := []
  resend := 0
  replays := 0
  ackFrom := 0
  rxNext := 0
  rxAny := false
  discard := false
  reqAt := 0
  rxPart := []
  rxHdrTime := 0
  rxPartReplayed := false
  rxWhole := []
  waits := false
  frag := []
  fragStamp := 0
  fragClean := true
  markerIn := []
  echo := none
  mnum := 0
  sent := []
  markTx := none
  markDue := false
  beatTx := []
  lastMark := 0
  owe := [0, 0, 0, 0]
  credit := [0, 0, 0, 0]
  peerSize := [0, 0, 0, 0]
  ackSent := 0xFFF
  lmap := []
  stage := 0
  peerStage := none
  peerFence := 0
  peerAcked := 0
  aligned := false
  bringAt := 0
  qualify := true
  qualLeft := 0
  qualFrom := 0
  retraining := false
  periodRetries := 0
  period := 0
  tx := []
  deficit := List.replicate 28 0
  fresh := List.replicate 28 false
  pos := 0
  alignSent := 0
  flits := 0
  elastic := 0

/-! ## Buffer, paths, policers (chapters 4 to 6) -/

/-- To whom a packet's cells are charged (R123, R128, R134). -/
inductive Charge where
  /-- A partition of an ingress port. -/
  | part (port m : Nat)
  /-- The shared pool, borrowed by an ingress port (R128). -/
  | shared (port : Nat)
  /-- The resequencing quota of an egress port (R134). -/
  | rsq (port : Nat)
  /-- A unit (R130). -/
  | unit (u : Nat)
  deriving DecidableEq, Repr

/-- Where a packet rests. -/
inductive Place where
  /-- It waits for the sorter (R88). -/
  | waiting
  /-- It is held by a pending TABLE_SWAP's DRAIN (R114). -/
  | drain
  /-- It waits for its flow context (R145). -/
  | miss
  /-- The resequencer of an egress port holds it (R104). -/
  | reseq (port : Nat)
  /-- It is addressed to this device and waits to be consumed. -/
  | inbox
  /-- It is held until its operation launches here (R109). -/
  | early
  /-- Copies of it are queued or being sent. -/
  | queued
  deriving DecidableEq, Repr

/-- A copy queued at an egress port (R120): the port, its queue 4·TC + MCLASS, and its number in the order of queuing. -/
structure QCopy where
  port : Nat
  q : Nat
  ord : Nat
  deriving DecidableEq, Repr

/-- A packet sent whole and not yet acknowledged (R68, R102): its number, the port, the SEQ of its last flit, its arrival port (none
for one that the device originated), and the packet without its payload. -/
structure Unack where
  id : Nat
  port : Nat
  seq : Nat
  src : Option Nat
  pkt : Pkt
  deriving DecidableEq, Repr

/-- A packet in the shared buffer. -/
structure BPkt where
  id : Nat
  pkt : Pkt
  /-- Arrival port, or `none` when the device originated it. -/
  src : Option Nat
  time : W64
  hdrTime : W64
  replayed : Bool
  /-- Each cell: its pointer and its reference count (R121, R122). -/
  cells : List (Nat × Nat)
  charge : Charge
  place : Place
  copies : List QCopy
  /-- Queued with more than one copy (R132). -/
  multi : Bool
  /-- The FENCE hold of a packet: the numbers of the earlier packets of its triple still here or unacknowledged (R102). -/
  fence : List Nat
  /-- Sorter outputs kept for a packet that waits after classification. -/
  dte : Nat
  /-- The ports chosen for a packet that waits for its flow context or for its place in order (R104, R145). -/
  outs : List Nat
  deriving DecidableEq, Repr

/-- One bank of the free store (R121): cells never issued from `fresh` on, and returned ones, the last one first. -/
structure CellBank where
  fresh : Nat
  back : List Nat
  deriving DecidableEq, Repr

/-- A flow context (R142): HELD and OLDEST are counted from the packets held. -/
structure FlowCtx where
  valid : Bool
  pin : Bool
  sendSeq : Nat
  recvExp : Nat
  pkts : Nat
  bytes : Nat
  last : W64
  deriving DecidableEq, Repr

/-- A flow context at reset. -/
def FlowCtx.init : FlowCtx := ⟨false, false, 0, 0, 0, 0, 0⟩

/-- A policer entry in force (R151, R154); the buckets are in units of 2^-16 byte. -/
structure Policer where
  cir : Nat
  pir : Nat
  cbs : Nat
  pbs : Nat
  en : Bool
  aware : Bool
  redDrop : Bool
  tc : Nat
  tp : Nat
  last : W64
  deriving DecidableEq, Repr

/-- A policer at reset. -/
def Policer.init : Policer := ⟨0, 0, 0, 0, false, false, false, 0, 0, 0⟩

/-- A sorter's registers while it classifies (R89): s0 to s7, the slot, the outputs, whether it has ended or dropped, and the
number of the packet. -/
structure SorterRun where
  s : List W32
  pc : Nat
  tc : Nat
  flow : Nat
  pol : Nat
  dte : Nat
  ord : Bool
  ended : Bool
  dropped : Bool
  id : Option Nat
  deriving DecidableEq, Repr

/-- A sorter before its first packet. -/
def SorterRun.init : SorterRun := ⟨List.replicate 8 0, 0, 0, 0, 0xFFFF, 0, false, true, false, none⟩

/-- A pending TABLE_SWAP (R114): its descriptor and FLAGS, whether DRAIN has fired. -/
structure PendSwap where
  ref : DescRef
  table : Bool
  sorters : Bool
  drained : Bool
  deriving DecidableEq, Repr

/-- The switch: buffer, tables, flow contexts, policers, sorters. -/
structure FabricSt where
  /-- Packets in the buffer, in the order they took their cells. -/
  pkts : List BPkt
  /-- Numbers of packets and of queue places given out. -/
  nextId : Nat
  nextOrd : Nat
  /-- The four banks of the free store. -/
  banks : List CellBank
  /-- Cells on the free store (LR_FREE). -/
  free : Nat
  /-- The unused part of every reservation, added (R127). -/
  unused : Nat
  /-- Cells each requester holds of its reservation: key 8p + m for partition m of port p, 8p + 4 for its resequencing quota,
  4096 + u for unit u. -/
  used : SMap Nat
  /-- Cells each port has borrowed (QT_PORT_USE). -/
  borrowed : SMap Nat
  /-- Units that wait for cells: what each would send, oldest first (R130). -/
  unitWait : List (Nat × Pkt × List Nat)
  /-- The last 256 (SRC, TAG, member) triples of PRUNED notices, newest first (R139). -/
  pruneSeen : List (Nat × Nat × Nat)
  /-- Cells that are retired once their count reaches zero (R135). -/
  badCells : List Nat
  /-- Flow contexts, and the ids cached on die, most recently used first (R145). -/
  flows : SMap FlowCtx
  cached : List Nat
  policers : SMap Policer
  /-- The latch of the policers' LAST_HI (R493): one latch for each pair. -/
  polHi : SMap W32
  sorters : SMap SorterRun
  /-- The logical sorter that the spare of a deck carries, and the lane groups whose sorter is lost (R10, R16). -/
  sortSpare : SMap (Option Nat)
  sortLost : List Nat
  /-- The pending TABLE_SWAP (R114). -/
  swap : Option PendSwap
  /-- Plant time at which OLD_LIVE ends (R116). -/
  retireAt : W64
  /-- Lane groups whose sorter program was written in the shadow bank since the last swap (R114). -/
  spDirty : List Nat
  /-- Entries the last swap changed: those that were DIRTY (R115). -/
  changed : List Nat
  /-- Packets sent whole and not yet acknowledged. -/
  unacked : List Unack
  deriving DecidableEq, Repr

/-- The switch at reset: 81,920 cells reserved by the ports and 27,648 by the units (R148). -/
def FabricSt.init : FabricSt where
  pkts := []
  nextId := 0
  nextOrd := 0
  banks := [⟨0, []⟩, ⟨0, []⟩, ⟨0, []⟩, ⟨0, []⟩]
  free := 1048576
  unused := 109568
  used := []
  borrowed := []
  unitWait := []
  pruneSeen := []
  badCells := []
  flows := []
  cached := []
  policers := []
  polHi := []
  sorters := []
  sortSpare := []
  sortLost := []
  swap := none
  retireAt := 0
  spDirty := []
  changed := []
  unacked := []

/-! ## Host interface (chapter 14) -/

/-- An MSI-X vector's moderation (R406): completions counted, and the plant time at which its timer started. -/
structure Vec where
  count : Nat
  started : Option W64
  deriving DecidableEq, Repr

/-- A vector with nothing pending. -/
def Vec.init : Vec := ⟨0, none⟩

/-- The host interface beside its registers. -/
structure HostSt where
  /-- SQ_TAIL as the last doorbell read of each ring gave it (R387), none before any. -/
  tails : SMap (Option Nat)
  /-- CQ_HEAD as the last doorbell read of each ring gave it, none before any. -/
  heads : SMap (Option Nat)
  /-- Descriptors fetched and not yet judged, oldest first. -/
  fetched : List Fetched
  vecs : SMap Vec
  /-- MSI-X table (R379): address and data words, by 4 · vector + word. -/
  mxWords : SMap W32
  /-- MSI-X table: Mask bit of each vector (R379, R406). -/
  masked : SMap Bool
  /-- MSI-X Pending Bit Array. -/
  pend : SMap Bool
  /-- TOP bits and SECOND bits that failed Swaps left to act on (R380). -/
  keptTop : Nat
  keptSecond : SMap Nat
  /-- The plant time of the last poll (R390), none since polling was enabled. -/
  lastPoll : Option W64
  /-- A Swap has failed and polling has not been resumed (R380). -/
  pollStopped : Bool
  /-- Function Level Resets seen. -/
  gen : Nat
  /-- Descriptors fetched since reset (R44). -/
  fetchNum : Nat
  /-- The ring served last and the slots of its turn used (R391). -/
  turn : Nat
  turnSlots : Nat
  /-- Rings whose next descriptor was found held back (R391): 1 by WAIT, 2 by R297, 3 for want of its second slot. -/
  blocked : SMap Nat
  deriving DecidableEq, Repr

/-- The host interface at reset. -/
def HostSt.init : HostSt := ⟨[], [], [], [], [], [], [], 0, [], none, false, 0, 0, 0, 0, []⟩

/-! ## Deputy, Canary and Surveyor (chapter 17) -/

/-- An open fault (R445): the log entry that holds its record, and the local cycle in which it was raised. -/
structure OpenFault where
  entry : Nat
  cycle : Nat
  deriving DecidableEq, Repr

/-- A Surveyor measurement (R461): V_REQ and the power-on hour. -/
structure Meas where
  vreq : Nat
  hour : Nat
  deriving DecidableEq, Repr

/-- The Surveyor's state of one deck. -/
structure DeckSurvey where
  /-- Thermal steps and slack-alarm steps of 1/16 in force (R459, R464). -/
  therm : Nat
  alarm : Nat
  /-- The deck is in a throttle episode (R459). -/
  hot : Bool
  /-- The plant time of the last thermal step. -/
  thermAt : W64
  /-- The lowest band sampled in the interval, none before the first sample (R461). -/
  band : Option Nat
  /-- The plant time at which the measurement interval began. -/
  measAt : W64
  /-- The interval is spoilt by a window or a throttle (R461). -/
  spoilt : Bool
  /-- The clock cap of the plan, in 1/256 (R462). -/
  capPlan : Nat
  /-- A plan was formed after the last slack alarm (R464). -/
  planned : Bool
  /-- The plant time of the last VDD step (R463), and the code before it (R509). -/
  vddAt : W64
  codeWas : Nat
  /-- Newest measurement by band (R461). -/
  meas : SMap (Option Meas)
  deriving DecidableEq, Repr

/-- A deck before any measurement. -/
def DeckSurvey.init : DeckSurvey := ⟨0, 0, false, 0, none, 0, false, 0, false, 0, 24, []⟩

/-- The Deputy, the Canary and the Surveyor beside their registers. -/
structure DeputySt where
  /-- Records written since reset (R449). -/
  seq : Nat
  opens : SMap (Option OpenFault)
  /-- TIME of the last level-0 or level-1 record of each class (R450). -/
  lowLast : SMap (Option W64)
  /-- The embedded store's kept records, newest first (R453): 8 words each. -/
  nvLog : List (List W32)
  /-- Kept fences of benches, Smelters and sorters (R458): physical numbers. -/
  keptB : List Nat
  keptS : List Nat
  keptSort : List Nat
  /-- Kept fences to be removed at the next reset: kind and unit (R458). -/
  unkeep : List (Nat × Nat)
  /-- CANARY's level, whether it runs, the millisecond of its last change, and the local cycle of that change (R455). -/
  canary : Bool
  canaryOn : Bool
  canaryMs : Nat
  canaryAt : Nat
  decks : SMap DeckSurvey
  /-- The open maintenance windows: the plant time each opened (R463). -/
  windows : SMap (Option W64)
  /-- The preferred alternative of each lane (R79), in the embedded store. -/
  lanePref : SMap Nat
  /-- The load bands of the ports at the last sample (R460), and which ports saw another band since (R465). -/
  portBand : SMap Nat
  /-- The plant time of the last load sample. -/
  loadAt : W64
  deriving DecidableEq, Repr

/-- The Deputy at its first power-up. -/
def DeputySt.init : DeputySt := ⟨0, [], [], [], [], [], [], [], false, false, 0, 0, [], [], [], [], 0⟩

end Sys2Proof.Machine
end

