-- ==== Sys2Proof/Machine/Units.lean ====
section
/-! DEFINITION. The records of the units that compute (chapters 7 to 12, 16): traps, Smelters, operations of groups, shard sets, the
twin pair; plain data, each with its value at reset. -/

namespace Sys2Proof.Machine

/-! ## Traps (chapter 7) -/

/-- The NaN trap of one operation at this device (R195): whether it has fired, the entry of NT_LOG that holds its record, and the
record's number (0 where the record was dropped under R199). -/
structure Trap where
  fired : Bool
  entry : Nat
  serial : Nat
  deriving DecidableEq, Repr

/-- A trap that has not fired. -/
def Trap.init : Trap := ⟨false, 0, 0⟩

/-! ## Smelters (chapter 8) -/

/-- A NaN event within one section run: its lane, cause, operands and the word address (R195 to R197). -/
structure RcEv where
  lane : Nat
  cause : Nat
  fmtA : Nat
  opA : Nat
  fmtB : Nat
  opB : Nat
  two : Bool
  pc : Nat
  deriving DecidableEq, Repr

/-- A Smelter's sequencer and datapath over one beat (R233 to R235): v0 to v7, the accumulator beat, the input beat as it arrived
(for an MX format the scale code stands above the element code), the beat that EMIT has passed, and what the run has raised. -/
structure RcRun where
  v : List (List Nat)
  acc : List Nat
  inp : List Nat
  out : List Nat
  emitted : Bool
  fresh : Bool
  final : Bool
  opr : Nat
  accFmt : Nat
  inFmt : Nat
  strict : Bool
  pc : Nat
  ieee : Nat
  ovf : Bool
  evs : List RcEv
  deriving DecidableEq, Repr

/-- A sequencer before its first run: registers of zero in binary32. -/
def RcRun.init : RcRun where
  v := List.replicate 8 (List.replicate 32 0)
  acc := List.replicate 32 0
  inp := List.replicate 32 0
  out := []
  emitted := false
  fresh := true
  final := false
  opr := 0
  accFmt := 1
  inFmt := 1
  strict := false
  pc := 0
  ieee := 0
  ovf := false
  evs := []

/-- The Smelters beside their registers. -/
structure SmelterSt where
  /-- The sequencer of each logical Smelter. -/
  runs : SMap RcRun
  /-- General slots owed to the floor, and the slots retired (R231). -/
  owed : Nat
  retired : List Nat
  /-- The latch of SM_QHEAD_HI (R493). -/
  qhi : W32
  /-- Which record each entry of NT_LOG holds (R199), and how many records have been written. -/
  ntOwner : SMap Nat
  ntSerial : Nat
  deriving DecidableEq, Repr

/-- The Smelters at reset. -/
def SmelterSt.init : SmelterSt := ⟨[], 0, [], 0, [], 0⟩

/-! ## Operations of groups (chapters 8, 9, 12 and 16) -/

/-- An input that waits for its turn (R219): its input rank, whether it is a partial sum, and its codes. -/
structure Staged where
  rank : Nat
  part : Bool
  codes : List Nat
  deriving DecidableEq, Repr

/-- A piece in work at this device: the input ranks delivered and combined, the staged inputs, the accumulator, the logical Smelter and
the slot of the accumulator. -/
structure Piece where
  got : List Nat
  combined : List Nat
  staged : List Staged
  acc : List Nat
  sm : Nat
  slot : Nat
  deriving DecidableEq, Repr

/-- What an upward CL_DONE brings (R264). -/
structure Wave where
  hall : Nat
  flags : Nat
  ieee : Nat
  vote : Nat
  deriving DecidableEq, Repr

/-- Nothing to report. -/
def Wave.zero : Wave := ⟨0, 0, 0, 0⟩

/-- How an update stands with the twin (R433 to R436). -/
structure TwinOp where
  /-- The lead has sent TW_OP and compares. -/
  compare : Bool
  /-- The follower's answer: its part, SUSPECT and NOSET. -/
  answer : Option (Nat × Bool × Bool)
  /-- The plant time at which the lead began to wait for it. -/
  waitFrom : Option W64
  /-- The comparison has been decided. -/
  settled : Bool
  /-- TW_HALL has been sent (follower). -/
  sent : Bool
  /-- At the follower: SUSPECT is judged from here on; at the lead likewise (R435). -/
  suspect : Bool
  deriving DecidableEq, Repr

/-- No comparison. -/
def TwinOp.init : TwinOp := ⟨false, none, none, false, false, false⟩

/-- An operation (GROUP, OPSEQ) at this device (R258). -/
structure ClOp where
  group : Nat
  opseq : Nat
  /-- The creating descriptor, 128 bytes. -/
  body : Bytes
  /-- The descriptors that have joined: the member's rank, or `none` for a RELAY. -/
  joins : List (Option Nat × DescRef)
  /-- Tally (R224 to R227): time K, whether the request was late, slots a piece needs, window, slots asked for. -/
  key : W64
  late : Bool
  p : Nat
  w : Nat
  need : Nat
  /-- Context asked for: 0 none, 1 arrival-order, 2 exact. -/
  ctx : Nat
  granted : Bool
  /-- Context held: 0 none, 1 not exact-capable, 2 exact-capable. -/
  ctxHeld : Nat
  /-- Slots held. -/
  held : Nat
  /-- Frames claimed of the step pool of each deck (R341). -/
  claims : List Nat
  fired : Bool
  launched : Bool
  /-- The lowest piece not yet complete here, and complete ones above it (R210). -/
  low : Nat
  done : List Nat
  pieces : SMap Piece
  /-- LIMIT last granted to the inputs. -/
  limit : Nat
  /-- Ports of the local members sent a grant (R260). -/
  grants : List Nat
  /-- Ports of the local members to which the grant has left, and under ALLTOALLV the receive vector before it (R262). -/
  opened : List Nat
  /-- LIMIT received from each neighbour. -/
  limitIn : SMap Nat
  /-- Complete partial sums that wait for a LIMIT: piece, logical Smelter and accumulator. -/
  waiting : List (Nat × Nat × List Nat)
  /-- Pieces of a non-reducing operation taken from local members: rank, receiving rank, piece. -/
  taken : List (Nat × Nat × Nat)
  /-- Bytes of data queued for each local rank. -/
  bytes : SMap Nat
  /-- Pieces emitted for which this device is root. -/
  emitted : Nat
  /-- ALLTOALLV: c(r, m) of local member m at key 65,536 m + r; the counts m itself has sent, at key 65,536 m + j. -/
  counts : SMap Nat
  sentCounts : SMap Nat
  /-- ALLTOALLV: the upward waves of the count phase that have arrived, whether ours is sent, whether the phase is over. -/
  countUps : List Nat
  countSent : Bool
  countDone : Bool
  /-- The upward waves that have arrived, by neighbour; whether ours is sent; the decision (R355). -/
  ups : SMap Wave
  upSent : Bool
  decision : Option Wave
  /-- COMMIT has been reached without a decision (R355). -/
  doubt : Bool
  /-- What this device's part of the operation has raised, and its part of the hallmark (R245). -/
  flags : Nat
  ieee : Nat
  part : Nat
  /-- Lowest endpoint named by PRUNED notices or fenced here (R140, R271). -/
  fencedEp : Option Nat
  trap : Trap
  /-- The plant time since which the order timer runs, and whether it runs (R270). -/
  timer : W64
  waits : Bool
  /-- Members fenced since before the operation was created (R271). -/
  fenced0 : List Nat
  /-- Updates: gradients that wait for a bench (R241), pieces updated, gradients of PRECOND blocks in work (R346), whether the whole step
  is written, skew found here, frozen blocks (R354). -/
  handoff : SMap (List Nat)
  updated : List Nat
  grads : SMap W32
  /-- Pieces that a bench has taken and whose parameters are not all final, each with the logical Smelter that reduced it (R123), and
  PRECOND blocks whose step is done. -/
  benched : List (Nat × Nat)
  blocksDone : List Nat
  unitsRun : Bool
  skew : Bool
  frozen : Nat
  /-- Updates: FROZEN bits and ETA, LAMBDA as they stood at the fetch (R338, R349). -/
  frozenAt : List Bool
  eta : Nat
  lambda : Nat
  /-- A frame of its uncommitted version holds a lost line after its upward wave (R365). -/
  badFrame : Bool
  /-- The step is committed here and its replaced frames wait for a SHARD_IO READ (R358, R360). -/
  flipped : Option Wave
  twin : TwinOp
  deriving DecidableEq, Repr

/-- The collectives beside their registers. -/
structure CollSt where
  ops : List ClOp
  /-- SM_ABORTs that came before their operation was created here: group, OPSEQ and status. -/
  aborts : List (Nat × Nat × Nat)
  /-- Operations that have failed at this device: group and OPSEQ (R229). -/
  gone : List (Nat × Nat)
  deriving DecidableEq, Repr

/-- No operation. -/
def CollSt.init : CollSt := ⟨[], [], []⟩

/-! ## Shard sets (chapter 12) -/

/-- A slice entry (R335): OWNER 0x1F is this device. -/
structure Slice where
  first : Nat
  count : Nat
  owner : Nat
  deck : Nat
  deriving DecidableEq, Repr

/-- A block entry (R336) without its counter. -/
structure Block where
  first : Nat
  count : Nat
  rows : Nat
  cols : Nat
  frozen : Bool
  precond : Bool
  deriving DecidableEq, Repr

/-- One version of a shard's state (R339): the planes by parameter, the counters by block, the matrices of block b at key 2^20 b + i, and
the working matrices of a root refresh (R347) at key 2^20 (2b + side) + i. Unlisted entries are zero; those of `lr` and `rr` stand for
the identity. -/
structure Version where
  w : SMap W32
  m : SMap W32
  v : SMap W32
  bstep : SMap Nat
  ls : SMap W32
  rs : SMap W32
  lr : SMap (Option W32)
  rr : SMap (Option W32)
  wx : SMap W32
  wm : SMap W32
  wt : SMap W32
  /-- Statistics snapshot that the refresh reads (R347). -/
  sl : SMap W32
  sr : SMap W32
  /-- The refresh in progress: its first step, and its matrices in order: 2b for Ls of block b, 2b + 1 for Rs (R348); 2^24 is added to
  one that will not be installed, since a unit of its block was skipped. -/
  refresh : Option (Nat × List Nat)
  deriving DecidableEq, Repr

/-- The version a definition gives: W, M, V, Ls, Rs zero, Lr and Rr the identity (R337). -/
def Version.init : Version := ⟨[], [], [], [], [], [], [], [], [], [], [], [], [], none⟩

/-- A schedule entry (R349): STEP_FROM, ETA and LAMBDA. -/
structure SchedEnt where
  stepFrom : Nat
  eta : Nat
  lambda : Nat
  deriving DecidableEq, Repr

/-- An empty entry. -/
def SchedEnt.empty : SchedEnt := ⟨0xFFFFFFFF, 0, 0⟩

/-- A shard set's record (R334), entries and state. The image is kept for FLAGS_ONLY (R338). -/
structure ShardSet where
  image : Bytes
  group : Nat
  nparam : Nat
  slices : List Slice
  blocks : List Block
  beta1 : Nat
  beta2 : Nat
  eps : Nat
  betaS : Nat
  epsS : Nat
  statEvery : Nat
  rootEvery : Nat
  rootSpread : Nat
  rootIters : Nat
  view : Nat
  sched : SMap SchedEnt
  cur : Version
  /-- The uncommitted versions, each with the GROUP and OPSEQ of the update that writes it. -/
  next : List (Nat × Nat × Version)
  /-- SHARD_IO READs in progress, whose replaced frames wait (R360): how many, and frames held for them at each deck. -/
  readers : Nat
  owedFrames : List Nat
  deriving DecidableEq, Repr

/-- A SHARD_IO in progress (R360). -/
structure ShardXfer where
  id : Nat
  ref : DescRef
  body : Bytes
  /-- READ: the values read at fetch, and the step. -/
  vals : List W32
  step : Nat
  /-- READ: a frame of the version it reads has been lost since (R353). -/
  lost : Bool
  deriving DecidableEq, Repr

/-- The shard sets. -/
structure ShardSt where
  sets : SMap (Option ShardSet)
  xfers : List ShardXfer
  /-- Numbers given to transfers. -/
  nextId : Nat
  deriving DecidableEq, Repr

/-- No shard set. -/
def ShardSt.init : ShardSt := ⟨[], [], 0⟩

/-! ## Assay engine (chapters 10 and 11) -/

/-- A physical bench (R275, R278): general registers by 64 · lane + register, masks m1 to m7, scratch by byte address, the derived bits of
R325 by register and by scratch word, and where its program counters stand. -/
structure Bench where
  /-- A launch runs on it. -/
  busy : Bool
  /-- BENCH: its index within the launch. -/
  index : Nat
  free : Bool
  /-- Program counters: thread 0's is the one of LOCKSTEP. -/
  pcs : SMap Nat
  x : SMap W32
  xd : SMap Bool
  m : SMap W32
  scr : SMap (BitVec 8)
  sd : SMap Bool
  /-- Threads of FREE that have finished, that wait at BAR, that wait at JOIN. -/
  ended : List Nat
  bar : List Nat
  joining : List Nat
  /-- It waits at GSYNC; it has finished. -/
  gsync : Bool
  done : Bool
  /-- Its stores of the present phase to stacked memory, by address (R286, R288). -/
  pend : SMap (BitVec 8)
  /-- Bytes of stacked memory that it has read in the present phase (R286). -/
  rd : SMap Bool
  deriving DecidableEq, Repr

/-- A bench at reset. DESIGN CHOICE (log 101): the spec gives its registers, masks and scratch no reset value; they are zero. -/
def Bench.init : Bench := ⟨false, 0, false, [], [], [], [], [], [], [], [], [], false, false, [], []⟩

/-- A launch (R295 to R299). -/
structure Launch where
  id : Nat
  ref : DescRef
  body : Bytes
  /-- Strike time, or fetch time under MODE 0 (R297). -/
  time : W64
  /-- Its strike has fired; it runs, since this plant time. -/
  ready : Bool
  running : Bool
  start : W64
  /-- Its logical benches, ascending. -/
  benches : List Nat
  /-- Shard versions as committed at its start: set, record, and whether its view can be read (R284, R340). -/
  shards : List (Nat × ShardSet × Bool)
  /-- Stores of ended phases (R288). -/
  written : SMap (BitVec 8)
  flags : Nat
  ieee : Nat
  trap : Trap
  deriving DecidableEq, Repr

/-- The Assay engine beside its registers. -/
structure AssaySt where
  /-- The image of each program slot. -/
  progs : SMap Bytes
  /-- The physical bench of each logical one where it is not its own of R11: none for a lost one. -/
  bmap : SMap (Option Nat)
  /-- The 136 physical benches. -/
  benches : SMap Bench
  launches : List Launch
  nextId : Nat
  deriving DecidableEq, Repr

/-- The Assay engine at reset. -/
def AssaySt.init : AssaySt := ⟨[], [], [], [], 0⟩

/-! ## Stacked memory beside its bytes (chapter 13) -/

/-- A MEM_COPY in progress (R369). -/
structure MemXfer where
  id : Nat
  ref : DescRef
  body : Bytes
  deriving DecidableEq, Repr

/-- A send of a model (R373 to R376): split entries (rank, first byte, length), the packets still to send (rank or none, offset, length),
blocks already counted in the hallmark. -/
structure WsSend where
  id : Nat
  ref : DescRef
  body : Bytes
  /-- Strike time, or fetch time under MODE 0. -/
  time : W64
  ready : Bool
  running : Bool
  /-- What it sends of the model: first byte and length. -/
  spans : List (Nat × Nat)
  todo : List (Option Nat × Nat × Nat)
  blocks : List Nat
  hall : Nat
  flags : Nat
  fencedEp : Option Nat
  /-- A read met a lost line: nothing further is sent (R376). -/
  lost : Bool
  deriving DecidableEq, Repr

/-- Stacked memory beside its bytes and registers. -/
structure MemSt where
  copies : List MemXfer
  /-- WS_MODELs whose model is being read (R371). -/
  defs : List (Nat × DescRef × Bytes)
  sends : List WsSend
  nextId : Nat
  /-- The loss map: lines of 64 bytes by address / 64 (R365). -/
  loss : List Nat
  /-- Sets of which a committed frame has a lost line since they were defined (R365). -/
  badSets : List Nat
  /-- Retired pages by stack and 4 KiB page, kept in the embedded store (R458). -/
  retired : List (Nat × Nat)
  /-- Open refresh windows by stack: the plant time each opened (R366). -/
  open_ : SMap (Option W64)
  /-- The local cycle of each stack's last own refresh. -/
  autoAt : SMap Nat
  /-- Stacks whose series of windows has begun since it was enabled (R367). -/
  series : SMap Bool
  /-- The lines that the scrubber has read in the present period, and the plant time at which that period began (R364). -/
  scrubbed : List Nat
  scrubFrom : Option W64
  /-- Bytes of sends that the weight store had still to read at a local cycle (R375). -/
  wsOwed : Nat
  wsAt : Nat
  deriving DecidableEq, Repr

/-- Memory units at reset. -/
def MemSt.init : MemSt := ⟨[], [], [], 0, [], [], [], [], [], [], [], none, 0, 0⟩

/-! ## Boot and attestation (chapter 18) -/

/-- A reservation slot of the embedded store (R484): RES, GEN, and whether its CRC matches. -/
structure ResSlot where
  res : Nat
  gen : Nat
  valid : Bool
  deriving DecidableEq, Repr

/-- Boot state that lasts in the embedded store (R476, R484), and what boot has under way. -/
structure BootSt where
  /-- The two firmware banks with their VALID marks. -/
  bank : List (Bytes × Bool)
  /-- The bank that BANK_ACTIVE names, and SVN_MIN, as the store keeps them. -/
  active : Nat
  svnMin : Nat
  slots : SMap ResSlot
  /-- Never signs again (R486). -/
  idOff : Bool
  /-- A FW_UPDATE that writes a bank: its descriptor, ACTIVATE and image. -/
  update : Option (DescRef × Bool × Bytes)
  /-- ATTESTs that wait for their signature: descriptor and body. -/
  attests : List (DescRef × Bytes)
  /-- Plant time of the last signature (R482). -/
  signedAt : Option W64
  /-- Supplies: PWR_GOOD is high. -/
  pwrGood : Bool
  /-- Power domains that are up (R473), 6 and 14 always. -/
  domains : List Nat
  /-- The local cycle at which the last domain came up. -/
  domainAt : Nat
  /-- The local cycle of the last comparison of the rails, and since when each rail has lain outside its window (R509). -/
  railAt : Nat
  railOut : SMap (Option Nat)
  deriving DecidableEq, Repr

/-- As the part leaves manufacture, with PERST_N just risen: slot 0 holds GEN 1 and RES 0 (R484), and no firmware is known. -/
def BootSt.init : BootSt where
  bank := [([], false), ([], false)]
  active := 0
  svnMin := 0
  slots := [(0, ⟨0, 1, true⟩)]
  idOff := false
  update := none
  attests := []
  signedAt := none
  pwrGood := true
  domains := [6, 14]
  domainAt := 0
  railAt := 0
  railOut := []

/-! ## Twin pair (chapter 16) -/

/-- A batch that the lead has closed (R431, R432): its number and strike, how many changes it holds, what TW_READY said (its REFUSE bit), what
TW_GO said (APPLY), its descriptor, and whether it is a TWIN_SYNC. -/
structure TwBatch where
  num : Nat
  strike : W64
  count : Nat
  ready : Option Bool
  go : Option Bool
  ref : DescRef
  sync : Bool
  /-- Its descriptor has completed already, aborted before the strike (R386). -/
  told : Bool
  deriving DecidableEq, Repr

/-- What TW_PREP told the follower (R431): the batch and how many changes it holds, what was answered (REFUSE), and what TW_GO said. -/
structure TwPrep where
  num : Nat
  count : Nat
  refuse : Bool
  go : Option Bool
  deriving DecidableEq, Repr

/-- The twin unit. -/
structure TwinSt where
  /-- Lead: changes staged since the last committed batch, oldest first. Follower: the changes it holds. -/
  staged : List Change
  /-- Follower: the bytes of a change whose last TW_STAGE has not come. -/
  partIn : Bytes
  /-- Lead: the batch that waits for its strike. Follower: the one TW_PREP named. -/
  batch : Option TwBatch
  prep : Option TwPrep
  /-- The TWIN_PROMOTE that waits for its strike. -/
  promote : Option DescRef
  /-- The plant time of the last TW_HELLO sent. -/
  helloAt : Option W64
  deriving DecidableEq, Repr

/-- No pair. -/
def TwinSt.init : TwinSt := ⟨[], [], none, none, none, none⟩

end Sys2Proof.Machine
end

