-- ==== Sys2Proof/Machine/Rule.lean ====
section
/-! DEFINITION. The update rule (R342 to R348): one element, a preconditioned block, a root refresh. All arithmetic is binary32, to
nearest with ties to even; flags and NaN events are gathered on the way. -/

namespace Sys2Proof.Machine

/-- A NaN event of an update (R352): its cause, operands, the line of the rule and the parameter. -/
structure UEv where
  cause : Nat
  opA : Nat
  opB : Nat
  two : Bool
  line : Nat
  elem : Nat
  deriving DecidableEq, Repr

/-- What an update gathers: IEEE flags, OVERFLOW, NaN events. -/
structure UAcc where
  ieee : Nat := 0
  ovf : Bool := false
  evs : List UEv := []
  deriving DecidableEq, Repr

/-- Take a result of two operands, or of one. -/
def UAcc.note (u : UAcc) (line elem a b : Nat) (r : NRes) (two : Bool := true) : UAcc :=
  { ieee := u.ieee ||| r.ieee, ovf := u.ovf || r.ovf, evs := if r.cause = 0 then u.evs else u.evs ++ [⟨r.cause, a, b, two, line, elem⟩] }

/-- Take stored operands: a NaN among them is received (R195). -/
def UAcc.recv (u : UAcc) (line elem : Nat) (xs : List Nat) : UAcc :=
  { u with evs := u.evs ++ xs.filterMap (fun x => if (fp32.decode x).isNaN then some ⟨1, x, 0, false, line, elem⟩ else none) }

/-- A result with what has been gathered. -/
abbrev URes := Nat × UAcc

/-- a + b. -/
def uAdd (st : Bool) (line elem : Nat) (u : UAcc) (a b : Nat) : URes :=
  let r := fAdd fp32 st (fp32.decode a) (fp32.decode b)
  (r.code, u.note line elem a b r)

/-- a × b. -/
def uMul (st : Bool) (line elem : Nat) (u : UAcc) (a b : Nat) : URes :=
  let r := fMul fp32 st (fp32.decode a) (fp32.decode b)
  (r.code, u.note line elem a b r)

/-- a × b + c with one rounding. -/
def uFma (st : Bool) (line elem : Nat) (u : UAcc) (a b c : Nat) : URes :=
  let r := fFma fp32 st (fp32.decode a) (fp32.decode b) (fp32.decode c)
  (r.code, u.note line elem a b r)

/-- a / b, correctly rounded in every mode (R342). -/
def uDiv (st : Bool) (line elem : Nat) (u : UAcc) (a b : Nat) : URes :=
  let r := fuDiv true st a b
  (r.code, u.note line elem a b r)

/-- The square root, correctly rounded in every mode (R342). -/
def uSqrt (st : Bool) (line elem : Nat) (u : UAcc) (a : Nat) : URes :=
  let r := fuSqrt true st a
  (r.code, u.note line elem a 0 r false)

/-- Change a code's sign. -/
def fpNeg (x : Nat) : Nat := (x + 2 ^ 31) % 2 ^ 32

/-- 1 − β rounded once. -/
def oneMinus (st : Bool) (beta : Nat) : NRes := fAdd fp32 st (fp32.decode 0x3F800000) ((fp32.decode beta).negate)

/-- β^b in binary64 by square-and-multiply from the most significant set bit of b, each product rounded (R343), with the flags raised: `n`
bits below it remain. -/
def betaPow (st : Bool) (beta : FVal) (b : Nat) : Nat → FVal × Nat → FVal × Nat
  | 0, r => r
  | n + 1, r =>
    let sq := fMul fp64 st r.1 r.1
    let v := fp64.decode sq.code
    let m := fMul fp64 st v beta
    betaPow st beta b n (if b.testBit n then (fp64.decode m.code, r.2 ||| sq.ieee ||| m.ieee) else (v, r.2 ||| sq.ieee))

/-- The bias correction 1 − β^b, rounded once to binary32 (R343), b = BSTEP + 1 as a 33-bit value. -/
def biasCorr (st : Bool) (beta bstep : Nat) : NRes :=
  let b := bstep + 1
  let v := fp32.decode beta
  let p := betaPow st v b (Nat.log2 b) (v, 0)
  match (fp32.decode 0x3F800000).add p.1.negate with
  | some z =>
    let r := fp32.deliver false st none z
    { r with ieee := r.ieee ||| p.2 }
  | none => { code := fp32.defNaN }

/-- What a block's elements are updated under; `ieee` is what forming 1 − β1, 1 − β2 and the bias corrections has raised (R344). -/
structure URule where
  strict : Bool
  beta1 : Nat
  beta2 : Nat
  eps : Nat
  eta : Nat
  lambda : Nat
  omb1 : Nat
  omb2 : Nat
  bc1 : Nat
  bc2 : Nat
  ieee : Nat
  deriving DecidableEq, Repr

/-- Lines 1 to 8 of R342 for one element: m, v and u. -/
def URule.moments (c : URule) (elem g m v : Nat) (a : UAcc) : Nat × Nat × Nat × UAcc :=
  let st := c.strict
  let a1 := uMul st 1 elem { a with ieee := a.ieee ||| c.ieee } c.omb1 g
  let m' := uFma st 2 elem (a1.2.recv 2 elem [m]) c.beta1 m a1.1
  let q := uMul st 3 elem m'.2 g g
  let a2 := uMul st 4 elem q.2 c.omb2 q.1
  let v' := uFma st 5 elem (a2.2.recv 5 elem [v]) c.beta2 v a2.1
  let mh := uDiv st 6 elem v'.2 m'.1 c.bc1
  let vh := uDiv st 7 elem mh.2 v'.1 c.bc2
  let r := uSqrt st 8 elem vh.2 vh.1
  let s := uAdd st 8 elem r.2 r.1 c.eps
  let u := uDiv st 8 elem s.2 mh.1 s.1
  (m'.1, v'.1, u.1, u.2)

/-- Lines 9 and 10 of R342: the new w for a direction d. -/
def URule.weight (c : URule) (elem w d : Nat) (a : UAcc) : URes :=
  let s := uFma c.strict 9 elem (a.recv 9 elem [w]) c.lambda w d
  uFma c.strict 10 elem s.2 (fpNeg c.eta) s.1 w

/-! ## Matrices (R346, R347) -/

/-- A matrix of binary32 codes by rows. -/
abbrev Mat := List (List Nat)

/-- An entry. -/
def matAt (a : Mat) (i j : Nat) : Nat := (a.getD i []).getD j 0

/-- Build an n × k matrix from a function with what is gathered. -/
def matBuild (n k : Nat) (u : UAcc) (f : Nat → Nat → UAcc → URes) : Mat × UAcc :=
  (List.range n).foldl (fun (s : Mat × UAcc) i =>
    let row := (List.range k).foldl (fun (t : List Nat × UAcc) j =>
      let r := f i j t.2
      (t.1 ++ [r.1], r.2)) ([], s.2)
    (s.1 ++ [row.1], row.2)) ([], u)

/-- A matrix product, the terms in ascending order (R346); `elem` is the parameter that an event at an entry names. -/
def matMul (st : Bool) (line : Nat) (elem : Nat → Nat → Nat) (n k p : Nat) (a b : Nat → Nat → Nat) (u : UAcc) : Mat × UAcc :=
  matBuild n p u (fun i j u =>
    (List.range k).foldl (fun (s : URes) t =>
      if t = 0 then uMul st line (elem i j) s.2 (a i 0) (b 0 j) else uFma st line (elem i j) s.2 (a i t) (b t j) s.1) (0, u))

/-- The entries of a matrix as stored values at consecutive keys. -/
def matStore (key : Nat) (a : Mat) (m : SMap W32) : SMap W32 := mputs 0 key (a.flatten.map (BitVec.ofNat 32)) m

/-- Entry (i, j) of an n-column matrix stored at a key. -/
def matLoad (key n : Nat) (m : SMap W32) (i j : Nat) : Nat := (mget 0 (key + i * n + j) m).toNat

/-- Entry (i, j) of a root: the identity where none has been installed. -/
def rootLoad (key n : Nat) (m : SMap (Option W32)) (i j : Nat) : Nat :=
  match mget none (key + i * n + j) m with
  | some v => v.toNat
  | none => if i = j then 0x3F800000 else 0

/-- Statistics (R346 step 3): fma(βs, S, omb_s × P). -/
def statNext (st : Bool) (elem betaS n : Nat) (s : Nat → Nat → Nat) (p : Mat) (u : UAcc) : Mat × UAcc :=
  let omb := oneMinus st betaS
  matBuild n n { u with ieee := u.ieee ||| omb.ieee } (fun i j u =>
    let x := uMul st 23 elem u omb.code (matAt p i j)
    uFma st 23 elem (x.2.recv 23 elem [s i j]) betaS (s i j) x.1)

/-- |x|. -/
def fpAbs (x : Nat) : Nat := x % 2 ^ 31

/-- The setup unit (R347) of a matrix of order n with statistics `a`: X and M. -/
def rootSetup (st : Bool) (elem epsS n : Nat) (a : Nat → Nat → Nat) (u : UAcc) : Mat × Mat × UAcc :=
  let b := matBuild n n u (fun i j u => if i = j then uAdd st 30 elem (u.recv 30 elem [a i j]) (a i j) epsS else (a i j, u.recv 30 elem [a i j]))
  let rowSum := fun (i : Nat) (u : UAcc) => (List.range n).foldl (fun (s : URes) j =>
    if j = 0 then (fpAbs (matAt b.1 i 0), s.2) else uAdd st 30 elem s.2 s.1 (fpAbs (matAt b.1 i j))) (0, u)
  let c := (List.range n).foldl (fun (s : URes) i =>
    let r := rowSum i s.2
    if i = 0 then r else
    let m := fMax fp32 st (fp32.decode s.1) (fp32.decode r.1)
    (m.code, r.2.note 30 elem s.1 r.1 m)) (0, b.2)
  let sq := uSqrt st 30 elem c.2 c.1
  let rs := fuRsqrt st sq.1
  let u := sq.2.note 30 elem sq.1 0 rs false
  let inv := uDiv st 30 elem u 0x3F800000 c.1
  let x := (List.range n).map (fun i => (List.range n).map (fun j => if i = j then rs.code else 0))
  let m := matBuild n n inv.2 (fun i j u => uMul st 30 elem u inv.1 (matAt b.1 i j))
  (x, m.1, m.2)

/-- The working matrices X, M and T of one root. -/
structure RootWork where
  x : Mat
  m : Mat
  t : Mat
  deriving DecidableEq, Repr

/-- Unit Uk of an iteration (R347). -/
def rootUnit (st : Bool) (elem n k : Nat) (w : RootWork) (u : UAcc) : RootWork × UAcc :=
  match k with
  | 1 =>
    let t := matBuild n n u (fun i j u => uFma st 31 elem u 0xBE800000 (matAt w.m i j) (if i = j then 0x3FA00000 else 0))
    let x := matMul st 31 (fun _ _ => elem) n n n (matAt w.x) (matAt t.1) t.2
    ({ w with x := x.1, t := t.1 }, x.2)
  | 2 =>
    let t := matMul st 32 (fun _ _ => elem) n n n (matAt w.t) (matAt w.t) u
    ({ w with t := t.1 }, t.2)
  | 3 =>
    let t := matMul st 33 (fun _ _ => elem) n n n (matAt w.t) (matAt w.t) u
    ({ w with t := t.1 }, t.2)
  | _ =>
    let m := matMul st 34 (fun _ _ => elem) n n n (matAt w.t) (matAt w.m) u
    ({ w with m := m.1 }, m.2)

end Sys2Proof.Machine
end

