-- ==== Sys2Proof/Machine/Regs.lean ====
section
/-! DEFINITION. The set-up register table (R489, R499 and each block's field maps): where every register of BAR0 lies, which
of its bits a host write stores (RW), stores while the block is unlocked (RWL) or clears (RW1C), and its reset value. -/

namespace Sys2Proof.Machine

/-- One row of the register table: `n` registers `st` bytes apart, repeated `n2` times `st2` bytes apart, from `base`. -/
structure RegRow where
  base : Nat
  n : Nat
  st : Nat
  n2 : Nat
  st2 : Nat
  rw : W32
  rwl : W32
  w1c : W32
  reset : W32
  deriving DecidableEq, Repr

/-- A single register. -/
def r1 (base : Nat) (rw rwl w1c reset : W32) : RegRow := ⟨base, 1, 4, 1, 0, rw, rwl, w1c, reset⟩
/-- An array of registers. -/
def rn (base n st : Nat) (rw rwl w1c reset : W32) : RegRow := ⟨base, n, st, 1, 0, rw, rwl, w1c, reset⟩
/-- A two-dimensional array of registers. -/
def rnn (base n st n2 st2 : Nat) (rw rwl w1c reset : W32) : RegRow := ⟨base, n, st, n2, st2, rw, rwl, w1c, reset⟩

/-- Whether a row covers an address. -/
def RegRow.covers (r : RegRow) (a : Nat) : Bool :=
  if a < r.base then false else
  let o := a - r.base
  let i2 := if r.st2 = 0 then 0 else o / r.st2
  let o1 := if r.st2 = 0 then o else o % r.st2
  decide (i2 < r.n2) && o1 % r.st == 0 && decide (o1 / r.st < r.n)

/-- All 32 bits. -/
def all1 : W32 := 0xFFFFFFFF

/-- Control block (R498). -/
def regsControl : List RegRow :=
  [ r1 0x0 0 0 0 0x00009800, r1 0x4 0 0 0 0, r1 0x8 0 0 0 0, r1 0xC 0 0 0 0, r1 0x10 0 0 0xF 0, r1 0x14 0 0 0 0 ]

/-- Boot block (R488): what the image, the store and the ROM give is set by boot. -/
def regsBoot : List RegRow :=
  [ r1 0x10000 0 0 0 0,
    r1 0x10004 0 0 0 0,
    r1 0x10008 0 0 0 0,
    r1 0x1000c 0 0 0 0,
    r1 0x10010 0 0 0 0,
    r1 0x10014 0 0 0 0,
    r1 0x10018 0 0 0 0,
    r1 0x1001c 0 0 0 0,
    r1 0x10020 0 0 0 0,
    rn 0x10040 8 0x4 0 0 0 0,
    rn 0x10060 8 0x4 0 0 0 0,
    rn 0x10080 17 0x4 0 0 0 0 ]

/-- Plant-time block (R49, R171): the gate engines and their lists with it. -/
def regsTime : List RegRow :=
  [ r1 0x20000 0 0 0 0,
    r1 0x20004 0 0 0 0,
    r1 0x20008 0 0xff07 0 0,
    r1 0x2000c 0 0 0xf00 0xf0,
    r1 0x20010 0xffffffff 0 0 0x4b82fa0a,
    r1 0x20014 0xff 0 0 0x4,
    r1 0x20018 0 0 0 0,
    r1 0x2001c 0 0 0 0,
    r1 0x20020 0 0xffffffff 0 0x10001064,
    r1 0x20024 0 0x1f 0 0x18,
    r1 0x20028 0 0xffff 0 0x800,
    r1 0x2002c 0xffff0001 0 0 0,
    r1 0x20030 0 0xffff0007 0 0x3,
    r1 0x20034 0 0 0 0,
    r1 0x20038 0 0 0 0,
    r1 0x2003c 0 0 0 0,
    r1 0x20040 0 0 0 0,
    r1 0x20044 0x7f7f7f7f 0 0 0xa020800,
    r1 0x20048 0 0 0 0,
    rn 0x20400 256 0x4 0 0xffff 0 0,
    r1 0x20800 0 0xffff 0 0,
    rn 0x21000 16 0x40 0 0x7f 0 0,
    rn 0x21004 16 0x40 0 0xffffffff 0 0,
    rn 0x21008 16 0x40 0 0xffffffff 0 0,
    rn 0x2100c 16 0x40 0 0xffffffff 0 0,
    rn 0x21010 16 0x40 0xffffffff 0 0 0,
    rn 0x21014 16 0x40 0xffffffff 0 0 0,
    rn 0x21018 16 0x40 0 0 0x3 0,
    rnn 0x22000 64 0x8 16 0x800 0xffffffff 0 0 0,
    rnn 0x22004 64 0x8 16 0x800 0xff 0 0 0,
    rnn 0x22200 64 0x8 16 0x800 0 0xffffffff 0 0,
    rnn 0x22204 64 0x8 16 0x800 0 0xff 0 0,
    rn 0x22400 16 0x800 0x3f 0 0 0 ]

/-- Lane block (R85). LN_GROUP_CFG holds 3 (OFF) until the board table is read (log 11). -/
def regsLane : List RegRow :=
  [ rn 0x30000 64 0x4 0 0x3 0 0x3,
    r1 0x30100 0 0xfffff 0 0x20820,
    r1 0x30104 0 0xf1fffff 0 0x5110010,
    r1 0x30108 0 0xff1f 0 0xa14,
    r1 0x3010c 0 0 0 0,
    r1 0x30110 0 0 0 0,
    rn 0x30400 257 0x4 0 0 0 0,
    rn 0x30c00 257 0x4 0 0 0 0,
    rn 0x32000 528 0x4 0 0 0xc0 0 ]

/-- Lamp Room block (R148). -/
def regsLamp : List RegRow :=
  [ r1 0x40000 0 0xfffff 0 0x100ff,
    r1 0x40004 0 0 0x3 0,
    r1 0x40008 0 0 0 0x100000,
    r1 0x4000c 0 0 0 0xe5400,
    r1 0x40010 0 0 0 0xe5400,
    r1 0x40014 0 0 0 0,
    r1 0x40018 0 0 0 0,
    r1 0x4001c 0 0 0 0,
    r1 0x40020 0 0 0 0,
    r1 0x40024 0 0 0 0,
    r1 0x40028 0 0 0 0,
    r1 0x4002c 0 0 0 0,
    r1 0x40030 0 0 0 0,
    r1 0x40034 0 0 0 0,
    rn 0x40400 64 0x4 0 0xffffffff 0 0x10000010,
    r1 0x40500 0 0xffffffff 0 0x10000040,
    r1 0x40504 0 0xffffffff 0 0x80000200,
    r1 0x40508 0 0xffffffff 0 0x20000080,
    rn 0x40600 67 0x4 0 0 0 0,
    rn 0x41000 256 0x10 0xffffffff 0 0 0x400040,
    rn 0x41004 256 0x10 0xffffffff 0 0 0x400040,
    rn 0x41008 256 0x10 0xffffff 0 0 0x110400,
    rn 0x4100c 256 0x10 0xffff 0 0 0x40,
    rn 0x42000 256 0x4 0 0 0 0,
    rn 0x43000 1024 0x4 0xffffffff 0 0 0 ]

/-- Shaping block (R170). -/
def regsShaping : List RegRow :=
  [ r1 0x200000 0 0 0x7 0,
    r1 0x200004 0 0 0 0,
    r1 0x200008 0 0 0 0,
    r1 0x20000c 0 0 0 0,
    r1 0x200010 0 0 0 0,
    r1 0x200014 0 0 0 0,
    r1 0x200018 0xffff 0 0 0x6b6,
    rn 0x200020 8 0x4 0 0x1fff 0 0x1028,
    rn 0x200400 256 0x4 0x1f 0 0 0,
    rnn 0x210000 28 0x4 256 0x80 0xffff 0 0 0x41,
    rn 0x300000 16384 0x20 0xffffffff 0 0 0,
    rn 0x300004 16384 0x20 0xffffffff 0 0 0,
    rn 0x300008 16384 0x20 0xffffff 0 0 0,
    rn 0x30000c 16384 0x20 0x7ffffff 0 0 0,
    rn 0x300010 16384 0x20 0 0 0 0,
    rn 0x300014 16384 0x20 0 0 0 0,
    rn 0x300018 16384 0x20 0 0 0 0,
    rn 0x30001c 16384 0x20 0 0 0 0 ]

/-- Routing block (R117). -/
def regsRouting : List RegRow :=
  [ r1 0x800000 0 0xff003f 0 0x40001e,
    r1 0x800004 0 0 0xc0000 0,
    r1 0x800008 0 0 0 0,
    r1 0x80000c 0 0 0 0,
    r1 0x800010 0 0 0 0,
    r1 0x800014 0 0 0 0,
    r1 0x800018 0 0 0 0,
    r1 0x80001c 0 0 0 0,
    r1 0x800020 0 0 0 0,
    r1 0x800024 0 0 0 0,
    r1 0x800028 0 0 0 0,
    rn 0x800400 256 0x4 0 0x7fff0ff7 0 0,
    rn 0x900000 32768 0x10 0x77 0 0 0,
    rn 0x900004 32768 0x10 0 0 0 0,
    rn 0x900008 32768 0x10 0xffffffff 0 0 0,
    rn 0x90000c 32768 0x10 0xffffffff 0 0 0,
    rn 0x980000 32768 0x10 0 0x77 0 0,
    rn 0x980004 32768 0x10 0 0 0 0,
    rn 0x980008 32768 0x10 0 0xffffffff 0 0,
    rn 0x98000c 32768 0x10 0 0xffffffff 0 0,
    rn 0xa00000 32768 0x4 0xffffffff 0 0 0,
    rn 0xa20000 32768 0x4 0 0xffffffff 0 0 ]

/-- Host-interface block (R408). -/
def regsHost : List RegRow :=
  [ r1 0x400000 0x1 0 0 0,
    r1 0x400004 0 0 0x7 0,
    r1 0x400008 0 0xfffff000 0 0,
    r1 0x40000c 0 0xffffffff 0 0,
    r1 0x400010 0xff 0 0 0x80,
    r1 0x400014 0x800007ff 0 0 0,
    r1 0x400018 0 0 0 0,
    r1 0x40001c 0 0 0 0,
    r1 0x400020 0 0 0 0,
    r1 0x400024 0 0 0 0,
    r1 0x400028 0 0 0 0,
    r1 0x40002c 0 0 0 0,
    rn 0x401000 2048 0x4 0xffffff 0 0 0x1,
    rn 0x500000 8192 0x40 0x7ffff07 0 0 0,
    rn 0x500004 8192 0x40 0 0 0 0,
    rn 0x500008 8192 0x40 0xffffffff 0 0 0,
    rn 0x50000c 8192 0x40 0xffffffff 0 0 0,
    rn 0x500010 8192 0x40 0xffffffff 0 0 0,
    rn 0x500014 8192 0x40 0xffffffff 0 0 0,
    rn 0x500018 8192 0x40 0xffffffff 0 0 0,
    rn 0x50001c 8192 0x40 0xffffffff 0 0 0,
    rn 0x500020 8192 0x40 0xffffffff 0 0 0,
    rn 0x500024 8192 0x40 0xffffffff 0 0 0,
    rn 0x500028 8192 0x40 0xffff 0 0 0,
    rn 0x50002c 8192 0x40 0x1ffff 0 0 0x10000,
    rn 0x500030 8192 0x40 0xffffffff 0 0 0,
    rn 0x500034 8192 0x40 0 0 0 0 ]

/-- Deputy block (R466). -/
def regsDeputy : List RegRow :=
  [ r1 0xa0000 0 0x1fff 0 0x1410,
    r1 0xa0004 0 0 0x200 0,
    r1 0xa0008 0 0 0 0,
    r1 0xa000c 0 0 0 0,
    r1 0xa0010 0xffffff 0 0 0,
    r1 0xa0014 0 0xffff 0 0x6c62,
    r1 0xa0018 0 0 0 0,
    r1 0xa001c 0 0 0 0,
    r1 0xa0020 0 0 0 0,
    r1 0xa0024 0 0 0 0,
    rn 0xa0040 5 0x4 0 0 0 0,
    rn 0xa0060 3 0x4 0 0 0 0,
    rn 0xa0070 3 0x4 0 0 0 0,
    rn 0xa0100 24 0x4 0 0 0 0,
    rn 0xa0200 24 0x4 0 0 0 0,
    rn 0xa1000 2048 0x4 0 0 0 0,
    rn 0xa3000 128 0x4 0 0 0 0 ]

/-- Surveyor block (R467). -/
def regsSurveyor : List RegRow :=
  [ r1 0xb0000 0 0xffff00ff 0 0x2d00051,
    r1 0xb0004 0 0 0 0,
    r1 0xb0008 0 0xffffffff 0 0,
    r1 0xb000c 0 0xffffffff 0 0,
    r1 0xb0010 0 0xffffff1f 0 0xe104006,
    r1 0xb0014 0 0xffffff1f 0 0xe104018,
    r1 0xb0018 0 0 0 0,
    rn 0xb0020 4 0x4 0 0 0 0x1818,
    rn 0xb0040 16 0x4 0 0 0 0 ]

/-- Numeric block (R203). -/
def regsNumeric : List RegRow :=
  [ r1 0x50000 0 0 0xffff 0,
    r1 0x50004 0 0 0 0,
    rn 0x50100 256 0x4 0 0 0 0 ]

/-- Smelter block (R246). Recipes 0 to 15 are built in (R238). -/
def regsSmelter : List RegRow :=
  [ r1 0x60000 0 0x1 0 0,
    r1 0x60004 0 0xffff00ff 0 0x100002c,
    r1 0x60008 0 0 0x3 0,
    r1 0x6000c 0 0 0 0xf007800,
    r1 0x60010 0 0 0 0x1000800,
    r1 0x60014 0 0 0 0x4001c0,
    r1 0x60018 0 0 0 0,
    r1 0x6001c 0 0 0 0,
    r1 0x60020 0 0 0 0,
    r1 0x60024 0 0 0 0,
    r1 0x60028 0 0 0 0x3f3f3f3f,
    r1 0x60030 0 0 0 0,
    r1 0x60034 0 0 0 0,
    r1 0x60038 0 0 0 0,
    r1 0x6003c 0 0 0 0,
    r1 0x60040 0 0 0 0,
    rn 0x61000 512 0x4 0 0 0 0,
    rnn 0x61800 1 0x4 48 0x80 0x800003ff 0 0 0,
    rnn 0x61804 31 0x4 48 0x80 0xffff7fff 0 0 0 ]

/-- Assay block (R305). -/
def regsAssay : List RegRow :=
  [ r1 0x70000 0 0xffff 0 0x100,
    r1 0x70004 0 0x1 0 0,
    r1 0x70008 0 0 0x7 0,
    r1 0x7000c 0 0 0 0x6080,
    r1 0x70010 0 0x3f3f3f3f 0 0x8080808,
    r1 0x70014 0 0 0 0x2020202,
    rn 0x70018 4 0x4 0 0 0 0xffffffff,
    r1 0x70028 0 0 0 0,
    r1 0x7002c 0 0 0 0,
    r1 0x70030 0 0 0 0,
    r1 0x70034 0 0 0 0,
    r1 0x70040 0 0 0 0,
    r1 0x70044 0 0 0 0,
    r1 0x70048 0 0 0 0,
    rn 0x70100 64 0x4 0 0 0 0 ]

/-- Repeatability block (R423). -/
def regsRepeat : List RegRow :=
  [ r1 0x80000 0 0 0x1 0,
    r1 0x80004 0 0x3ff01 0 0,
    r1 0x80008 0xffff0003 0 0 0x1,
    r1 0x8000c 0 0 0 0,
    r1 0x80010 0 0 0 0,
    rn 0x80020 4 0x4 0 0 0 0,
    rn 0x81000 8192 0x4 0 0 0 0 ]

/-- Twin block (R441). -/
def regsTwin : List RegRow :=
  [ r1 0x90000 0 0xffffff03 0 0x401000,
    r1 0x90004 0 0xffffffff 0 0,
    r1 0x90008 0 0 0x240 0,
    r1 0x9000c 0 0 0 0,
    r1 0x90010 0 0 0 0,
    rn 0x90020 4 0x4 0 0 0 0,
    rn 0x90040 5 0x4 0 0 0 0,
    r1 0x90054 0 0 0 0 ]

/-- Update block (R361). -/
def regsUpdate : List RegRow :=
  [ r1 0xc0000 0 0 0x1 0,
    r1 0xc0004 0 0 0 0,
    r1 0xc0008 0 0 0 0,
    r1 0xc000c 0 0 0 0,
    r1 0xc0010 0 0 0 0,
    r1 0xc0014 0 0 0 0,
    rn 0xc0020 4 0x4 0 0xffff 0 0x1000,
    rn 0xc0030 4 0x4 0 0 0 0x100000,
    rn 0xc0040 4 0x4 0 0 0 0xffc00,
    rn 0xd0000 32768 0x4 0 0 0 0 ]

/-- Memory block (R377). -/
def regsMemory : List RegRow :=
  [ r1 0x100000 0 0 0x3 0,
    r1 0x100004 0xff 0 0 0x40,
    r1 0x100008 0 0x3f 0 0x22,
    r1 0x10000c 0 0xffffffff 0 0,
    r1 0x100010 0 0xffffffff 0 0,
    r1 0x100014 0 0x3f 0 0x20,
    r1 0x100018 0 0 0 0,
    r1 0x10001c 0 0 0 0,
    r1 0x100020 0 0 0 0,
    r1 0x100024 0 0 0 0,
    r1 0x100028 0 0 0 0,
    rn 0x100040 4 0x4 0x7f 0 0 0x20,
    rn 0x100060 8 0x4 0x7fffffff 0 0 0,
    rn 0x100080 8 0x4 0 0 0 0x200,
    rn 0x110000 32768 0x4 0 0 0 0 ]

/-- Collective block (R274). -/
def regsCollective : List RegRow :=
  [ r1 0xc00000 0 0 0x7 0,
    r1 0xc00004 0 0 0 0,
    r1 0xc00008 0 0 0 0,
    r1 0xc0000c 0 0 0 0,
    r1 0xc00010 0 0 0 0,
    r1 0xc00014 0 0 0 0,
    r1 0xc00018 0 0 0 0x1000,
    r1 0xc0001c 0 0 0 0x40000,
    r1 0xc00020 0 0 0 0x4000,
    rn 0xc10000 65536 0x4 0 0 0 0,
    rn 0xc50000 65536 0x4 0 0 0 0,
    rn 0xd00000 65536 0x4 0 0 0 0,
    rn 0xe00000 262144 0x4 0 0 0 0 ]

/-- Word `w` of built-in recipe `r` (R238): REDUCE, SUMSQ and ABSMAX; recipes 3 to 15 read as zero. -/
def recipeBuiltIn (r w : Nat) : W32 :=
  (([[0x80000044, 0x2, 0x41, 0x1004, 0x3, 0x2, 0xC],
     [0x80000045, 0x2, 0x41, 0x1246, 0x1004, 0x3, 0x2, 0xC],
     [0x80000045, 0x2, 0x41, 0x249, 0x1004, 0x3, 0x2, 0xC]] : List (List W32)).getD r []).getD w 0

/-- The rows of the block that holds an address (R489). -/
def blockRows (a : Nat) : List RegRow :=
  if a < 0x10000 then regsControl else
  if a < 0x20000 then regsBoot else
  if a < 0x30000 then regsTime else
  if a < 0x40000 then regsLane else
  if a < 0x50000 then regsLamp else
  if a < 0x60000 then regsNumeric else
  if a < 0x70000 then regsSmelter else
  if a < 0x80000 then regsAssay else
  if a < 0x90000 then regsRepeat else
  if a < 0xA0000 then regsTwin else
  if a < 0xB0000 then regsDeputy else
  if a < 0xC0000 then regsSurveyor else
  if a < 0x100000 then regsUpdate else
  if a < 0x140000 then regsMemory else
  if a < 0x200000 then [] else
  if a < 0x400000 then regsShaping else
  if a < 0x600000 then regsHost else
  if a < 0x800000 then [] else
  if a < 0xC00000 then regsRouting else
  if a < 0x1000000 then regsCollective else []

/-- The lock bit of the block that holds an address (R489, R495). -/
def blockLock (a : Nat) : Option Nat :=
  if a < 0x20000 then none else
  if a < 0x30000 then some 0 else
  if a < 0x40000 then some 1 else
  if a < 0x50000 then some 3 else
  if a < 0x60000 then none else
  if a < 0x70000 then some 5 else
  if a < 0x80000 then some 6 else
  if a < 0x90000 then some 10 else
  if a < 0xA0000 then some 11 else
  if a < 0xB0000 then some 12 else
  if a < 0xC0000 then some 13 else
  if a < 0x100000 then some 7 else
  if a < 0x140000 then some 8 else
  if a < 0x200000 then none else
  if a < 0x400000 then some 4 else
  if a < 0x600000 then some 9 else
  if a < 0x800000 then none else
  if a < 0xC00000 then some 2 else none

/-- The row of the register at an address; `none` is reserved space (R490). -/
def regRow (a : Nat) : Option RegRow := (blockRows a).find? (fun r => r.covers a)

/-- The reset value of the register at an address (R499). -/
def regReset (a : Nat) : W32 :=
  if a = 0x4 then BitVec.ofNat 32 (Config.stepping.toNat + 256 * Config.grade.toNat) else
  if a = 0x7000C then BitVec.ofNat 32 (0x6080 + 0x20000 * Config.grade.toNat) else
  if 0x61000 ≤ a ∧ a < 0x61800 then recipeBuiltIn ((a - 0x61000) / 0x80) ((a - 0x61000) % 0x80 / 4) else
  if 0x100060 ≤ a ∧ a < 0x100080 then BitVec.ofNat 32 (0x8000 + (a - 0x100060) / 4 * 0x8000000) else
  match regRow a with
  | some r => r.reset
  | none => 0

/-! Addresses of the registers that meanings name. -/

def aCTL_LOCK : Nat := 0x8
def aCTL_STAT : Nat := 0x10
def aCTL_BAD_ADDR : Nat := 0x14
def aBT_STAT : Nat := 0x10000
def aPT_CTRL : Nat := 0x20008
def aPT_STAT : Nat := 0x2000C
def aPT_RATE_LO : Nat := 0x20010
def aPT_RATE_HI : Nat := 0x20014
def aPT_STEP_LO : Nat := 0x20018
def aPT_STEP_HI : Nat := 0x2001C
def aPT_SERVO : Nat := 0x20020
def aPT_MARK : Nat := 0x20024
def aPT_LEAD : Nat := 0x20028
def aPT_PPS_OUT : Nat := 0x2002C
def aBEAT_CFG : Nat := 0x20030
def aBEAT_STAT : Nat := 0x20040
def aPT_CMP_RES : Nat := 0x20044
def aPT_ASYM (p : Nat) : Nat := if p = 256 then 0x20800 else 0x20400 + 4 * p
def aGE (g : Nat) : Nat := 0x21000 + 0x40 * g
def aGL (g : Nat) : Nat := 0x22000 + 0x800 * g
def aLN_GROUP_CFG (g : Nat) : Nat := 0x30000 + 4 * g
def aLN_RETRY_CFG : Nat := 0x30100
def aLN_FENCE_CFG : Nat := 0x30104
def aLN_TRAIN_CFG : Nat := 0x30108
def aLN_CNT_CLR : Nat := 0x3010C
def aLN_UNFENCE : Nat := 0x30110
def aLN_PORT_STAT (p : Nat) : Nat := 0x30400 + 4 * p
def aLN_PORT_CNT (p : Nat) : Nat := 0x30C00 + 4 * p
def aLN_LANE_STAT (l : Nat) : Nat := 0x32000 + 4 * l
def aLR_CFG : Nat := 0x40000
def aLR_STAT : Nat := 0x40004
def aLR_LOW : Nat := 0x40010
def aLR_RETIRED : Nat := 0x40014
def aCNT_PUSHOUT : Nat := 0x40018
def aCNT_FENCED_DROP : Nat := 0x4001C
def aCNT_PRUNED : Nat := 0x40020
def aCNT_QUOTA_WAIT : Nat := 0x40024
def aCNT_FLOW_INVALID : Nat := 0x40028
def aFC_MISS : Nat := 0x4002C
def aFC_STAT : Nat := 0x40030
def aLR_CNT_CLR : Nat := 0x40034
def aQT_UNIT (u : Nat) : Nat := 0x40400 + 4 * u
def aQT_PORT_QF (p : Nat) : Nat := 0x41000 + 16 * p
def aQT_PORT_PC (p : Nat) : Nat := 0x41004 + 16 * p
def aQT_PORT_SHARE (p : Nat) : Nat := 0x41008 + 16 * p
def aQT_PORT_RSQ (p : Nat) : Nat := 0x4100C + 16 * p
def aFD_MAP (i : Nat) : Nat := 0x43000 + 4 * i
def aNT_STAT : Nat := 0x50000
def aNT_LOG (i : Nat) : Nat := 0x50100 + 0x40 * i
def aSM_CFG : Nat := 0x60000
def aSM_TALLY_CFG : Nat := 0x60004
def aSM_STAT : Nat := 0x60008
def aSM_RETIRED : Nat := 0x60024
def aSM_SPARE : Nat := 0x60028
def aCNT_TALLY_LATE : Nat := 0x60030
def aCNT_TALLY_TIMEOUT : Nat := 0x60034
def aCNT_SM_UNGRANTED : Nat := 0x60038
def aCNT_SM_STAGED : Nat := 0x6003C
def aRCP (r : Nat) : Nat := 0x61000 + 0x80 * r
def aAS_CFG : Nat := 0x70000
def aAS_PROFILE : Nat := 0x70004
def aAS_STAT : Nat := 0x70008
def aAS_RESV : Nat := 0x70010
def aAS_SHAPE : Nat := 0x7000C
def aAS_SPARE : Nat := 0x70014
def aAS_LIVE (i : Nat) : Nat := 0x70018 + 4 * i
def aAS_SLOT (s : Nat) : Nat := 0x70100 + 4 * s
def aAS_FAULT0 : Nat := 0x70028
def aCNT_AS_LAUNCH : Nat := 0x70040
def aCNT_AS_FAIL : Nat := 0x70044
def aREP_STAT : Nat := 0x80000
def aREP_COMPAT : Nat := 0x80004
def aHM_CFG : Nat := 0x80008
def aHM_STAT : Nat := 0x8000C
def aHM_TOTAL : Nat := 0x80010
def aHM_LOG (e : Nat) : Nat := 0x81000 + 0x20 * e
def aTW_CFG : Nat := 0x90000
def aTW_KEY : Nat := 0x90004
def aTW_STAT : Nat := 0x90008
def aTW_BATCH : Nat := 0x9000C
def aTW_OPEN : Nat := 0x90010
def aTW_PEER_SHAPE : Nat := 0x90020
def aCNT_TW_AGREE : Nat := 0x90040
def aCNT_TW_YIELD : Nat := 0x90044
def aCNT_TW_DIVERGE : Nat := 0x90048
def aCNT_TW_TIMEOUT : Nat := 0x9004C
def aCNT_TW_DISCARD : Nat := 0x90050
def aDP_CFG : Nat := 0xA0000
def aDP_STAT : Nat := 0xA0004
def aDP_PEND : Nat := 0xA0008
def aDP_EVT_EN : Nat := 0xA0010
def aDP_THERM : Nat := 0xA0014
def aDP_TEMP : Nat := 0xA0018
def aDP_TEMP_FLOOR : Nat := 0xA001C
def aDP_FENCE_B : Nat := 0xA0040
def aDP_FENCE_S : Nat := 0xA0060
def aDP_FENCE_SORT : Nat := 0xA0070
def aDP_CNT (c : Nat) : Nat := 0xA0100 + 4 * c
def aDP_OPEN (c : Nat) : Nat := 0xA0200 + 4 * c
def aDP_LOG (e : Nat) : Nat := 0xA1000 + 0x20 * e
def aSU_CFG : Nat := 0xB0000
def aSU_STAT : Nat := 0xB0004
def aSU_WIN_BASE_LO : Nat := 0xB0008
def aSU_WIN (w : Nat) : Nat := 0xB0010 + 4 * w
def aSU_HOURS : Nat := 0xB0018
def aSU_VDD (d : Nat) : Nat := 0xB0020 + 4 * d
def aUP_STAT : Nat := 0xC0000
def aCNT_UP_COMMIT : Nat := 0xC0004
def aCNT_UP_VETO : Nat := 0xC0008
def aCNT_UP_DOUBT : Nat := 0xC000C
def aCNT_UP_LATE : Nat := 0xC0010
def aUP_POOL (d : Nat) : Nat := 0xC0020 + 4 * d
def aMEM_STAT : Nat := 0x100000
def aMEM_WS : Nat := 0x100004
def aMEM_SCRUB : Nat := 0x100008
def aMEM_REF_BASE_LO : Nat := 0x10000C
def aWS_CFG : Nat := 0x100014
def aCNT_MEM_CE : Nat := 0x100018
def aCNT_MEM_UE : Nat := 0x10001C
def aCNT_WS_SEND : Nat := 0x100020
def aCNT_WS_FAIL : Nat := 0x100024
def aMEM_PART (d : Nat) : Nat := 0x100040 + 4 * d
def aMEM_REF (s : Nat) : Nat := 0x100060 + 4 * s
def aMEM_SPARE (s : Nat) : Nat := 0x100080 + 4 * s
def aSV_STAT : Nat := 0x200000
def aCNT_POL_RED_DROP : Nat := 0x200004
def aCNT_POL_BADIDX : Nat := 0x200008
def aCNT_OVERSIZE : Nat := 0x20000C
def aCNT_C0_OVERRUN : Nat := 0x200010
def aC0_WATCH : Nat := 0x200018
def aSV_CLASS_LEN (t : Nat) : Nat := 0x200020 + 4 * t
def aSV_GATE_BIND (p : Nat) : Nat := 0x200400 + 4 * p
def aSV_QUANT (p q : Nat) : Nat := 0x210000 + 0x80 * p + 4 * q
def aPOL (i : Nat) : Nat := 0x300000 + 32 * i
def aHI_CFG : Nat := 0x400000
def aHI_STAT : Nat := 0x400004
def aDB_BASE_LO : Nat := 0x400008
def aDB_BASE_HI : Nat := 0x40000C
def aDB_POLL : Nat := 0x400010
def aEVT_VEC : Nat := 0x400014
def aCNT_POLL : Nat := 0x400018
def aCNT_POLL_EMPTY : Nat := 0x40001C
def aCNT_FETCH : Nat := 0x400020
def aCNT_CPL : Nat := 0x400024
def aCNT_HOST_ERR : Nat := 0x400028
def aMX_MOD (v : Nat) : Nat := 0x401000 + 4 * v
def aRING (r : Nat) : Nat := 0x500000 + 0x40 * r
def aRT_CFG : Nat := 0x800000
def aRT_STAT : Nat := 0x800004
def aCNT_BAD_HDR : Nat := 0x800008
def aCNT_NO_ROUTE : Nat := 0x80000C
def aCNT_HOP_LIMIT : Nat := 0x800010
def aCNT_SORT_DROP : Nat := 0x800014
def aCNT_STRAGGLER : Nat := 0x800018
def aCNT_STALE : Nat := 0x80001C
def aCNT_RSQ_GAP : Nat := 0x800020
def aCNT_RSQ_LATE : Nat := 0x800024
def aPORT_KIND (p : Nat) : Nat := 0x800400 + 4 * p
def aDT_SHADOW (e : Nat) : Nat := 0x900000 + 16 * e
def aDT_ACTIVE (e : Nat) : Nat := 0x980000 + 16 * e
def aSP_SHADOW (g : Nat) : Nat := 0xA00000 + 0x800 * g
def aSP_ACTIVE (g : Nat) : Nat := 0xA20000 + 0x800 * g
def aCL_STAT : Nat := 0xC00000
def aCNT_CL_DONE : Nat := 0xC00004
def aCNT_ORDER_TIMEOUT : Nat := 0xC00008
def aCNT_MEMBER_FENCED : Nat := 0xC0000C
def aCNT_CL_ABORTED : Nat := 0xC00010
def aGIX (g : Nat) : Nat := 0xC10000 + 4 * g
def aGR (r : Nat) : Nat := 0xC50000 + 0x40 * r
def aNB (n : Nat) : Nat := 0xD00000 + 16 * n
def aMB (m : Nat) : Nat := 0xE00000 + 4 * m

end Sys2Proof.Machine
end

