-- ==== Sys2Proof/Machine/State.lean ====
section
/-! DEFINITION. The state of the KX9800 as plain data, the reasons a step can stop, and the state after reset. -/

namespace Sys2Proof.Machine

/-- Everything of the device but the queue of commands, the bytes of stacked memory and the boot part of the embedded store. -/
structure Dev where
  /-- The set-up registers (R499), by BAR0 address: what a register that is not listed holds is `regReset`. -/
  regs : SMap W32
  /-- What the device has sent out or answered, oldest first. -/
  out : List Out
  /-- The model's own counter of free values; it stands for nothing in the device. -/
  free : Nat
  /-- PERST_N is high, so that the units are out of reset (R471). -/
  perst : Bool
  tm : TimeSt
  ports : SMap Port
  lanes : SMap Lane
  fb : FabricSt
  hi : HostSt
  dp : DeputySt
  sm : SmelterSt
  cl : CollSt
  sh : ShardSt
  tw : TwinSt
  as_ : AssaySt
  me : MemSt
  bt : BootSt
  deriving DecidableEq, Repr

/-- The state: the commands that wait, first in first out, the device, and the bytes of stacked memory: unlisted ones read as zero, since
boot writes every byte (R473, R474). -/
structure State where
  pending : List Instr
  dev : Dev
  mem : List Host.Cell
  deriving DecidableEq, Repr

/-- No command of the KX9800 ends in a fault: every one is given an effect by the manual. -/
inductive Fault where
  /-- Raised by no command (safe): the manual gives the block no fault that stops its commands. -/
  | none
  deriving DecidableEq, Repr

/-- Why a command has no meaning. -/
inductive Refusal where
  /-- The command is not modelled (safe): answered by the arm of that command alone. -/
  | notModelled (mnemonic : String)
  deriving DecidableEq, Repr

/-- The device as PERST_N has just risen (R471, R472). -/
def Dev.init : Dev := ⟨[], [], 0, true, .init, [], [], .init, .init, .init, .init, .init, .init, .init, .init, .init, .init⟩

/-- The machine right after reset. -/
def State.reset : State := ⟨[], .init, []⟩

end Sys2Proof.Machine
end

