-- ==== Sys2Proof/Machine/Ops.lean ====
section
/-! DEFINITION. Named operations over the state: registers and counters, plant time, what is sent out, the Deputy's taking of an
event (R442 to R451), the completion record (R401, R402, R406) and the rules every BAR0 write obeys (R490 to R497). -/

namespace Sys2Proof.Machine

/-- A command whose effect is on the device alone. -/
def devStep (f : Dev → Dev) (s : State) : Host.Outcome State Fault Refusal := .next { s with dev := f s.dev }

/-- An effect that happens only while a condition holds. -/
def Dev.when (d : Dev) (b : Bool) (f : Dev → Dev) : Dev := if b then f d else d

/-! ## Registers -/

/-- The register at an address. -/
def Dev.rg (d : Dev) (a : Nat) : W32 := mget (regReset a) a d.regs

/-- Set the register at an address. -/
def Dev.wr (d : Dev) (a : Nat) (v : W32) : Dev := { d with regs := mput (regReset a) a v d.regs }

/-- A field of a register. -/
def Dev.gf (d : Dev) (a lo w : Nat) : Nat := fld (d.rg a) lo w

/-- Set a field of a register. -/
def Dev.sf (d : Dev) (a lo w x : Nat) : Dev := d.wr a (setf (d.rg a) lo w x)

/-- A bit of a register. -/
def Dev.gb (d : Dev) (a i : Nat) : Bool := bitAt (d.rg a) i

/-- Set a bit of a register to a value. -/
def Dev.sb (d : Dev) (a i : Nat) (b : Bool) : Dev := d.wr a (setb (d.rg a) i b)

/-- Add to a counter that saturates at 0xFFFF_FFFF. -/
def Dev.countBy (d : Dev) (a n : Nat) : Dev := d.wr a (BitVec.ofNat 32 (min 0xFFFFFFFF ((d.rg a).toNat + n)))

/-- Add one to a counter that saturates at 0xFFFF_FFFF. -/
def Dev.count (d : Dev) (a : Nat) : Dev := d.countBy a 1

/-- A 64-bit value held in two registers, the low half first. -/
def Dev.rg64 (d : Dev) (a : Nat) : Nat := (d.rg a).toNat + 2 ^ 32 * (d.rg (a + 4)).toNat

/-- Set a 64-bit value held in two registers. -/
def Dev.wr64 (d : Dev) (a n : Nat) : Dev := (d.wr a (BitVec.ofNat 32 n)).wr (a + 4) (BitVec.ofNat 32 (n / 2 ^ 32))

/-- Write words to consecutive registers. -/
def Dev.wrs (d : Dev) (a : Nat) : List W32 → Dev
  | [] => d
  | v :: vs => (d.wr a v).wrs (a + 4) vs

/-- Set registers `a`, `a + st`, ... to zero or their reset values: `n` of them. -/
def Dev.clearRegs (d : Dev) (a st : Nat) : Nat → Dev
  | 0 => d
  | n + 1 => (d.wr (a + n * st) (regReset (a + n * st))).clearRegs a st n

/-- A field of a register as it is read and used: zero as one. -/
def orOne (n : Nat) : Nat := if n = 0 then 1 else n

/-! ## Output and free values -/

/-- Send something out. -/
def Dev.emit (d : Dev) (o : Out) : Dev := { d with out := d.out ++ [o] }

/-- The next free value. -/
def Dev.freeNat (d : Dev) : Nat := Config.freeNat d.free

/-- A free value for each place `a` below 2^64, beside those of `Dev.freeNat`. -/
def freeAt (free a : Nat) : Nat := Config.freeNat (2 ^ 64 * (free + 1) + a)

/-- Use up a free value. -/
def Dev.freeNext (d : Dev) : Dev := { d with free := d.free + 1 }

/-! ## Plant time -/

/-- Plant time: bits [95:32] of the accumulator (R18). -/
def Dev.now (d : Dev) : W64 := BitVec.ofNat 64 (d.tm.acc.toNat / 2 ^ 32)

/-- The signed difference of a plant time and the present count (R19). -/
def Dev.ahead (d : Dev) (t : W64) : Int := (t - d.now).toInt

/-- The signed ticks since a plant time. -/
def Dev.since (d : Dev) (t : W64) : Int := (d.now - t).toInt

/-! ## Device-wide state -/

/-- The device has stopped (R451). -/
def Dev.stopped (d : Dev) : Bool := d.gb aDP_STAT 8

/-- Boot stage (R474). -/
def Dev.stage (d : Dev) : Nat := d.gf aBT_STAT 0 3

/-- Out of reset and not stopped. -/
def Dev.live (d : Dev) : Bool := d.perst && !d.stopped

/-- In service: out of reset, boot complete and not stopped. -/
def Dev.ready (d : Dev) : Bool := d.live && d.stage == 5

/-- ROLE is FOLLOWER (R424). -/
def Dev.follower (d : Dev) : Bool := d.gf aTW_CFG 0 2 == 2

/-! ## Interrupts -/

/-- Word `i` of a vector's MSI-X entry (R379): 0 and 1 the message address, 2 the data. -/
def Dev.mxWord (d : Dev) (v i : Nat) : W32 := mget 0 (4 * v + i) d.hi.mxWords

/-- The MSI-X message of a vector as its entry gives it. -/
def Dev.message (d : Dev) (v : Nat) : Out := .msix v ((d.mxWord v 0).toNat + 2 ^ 32 * (d.mxWord v 1).toNat) (d.mxWord v 2)

/-- Send a vector's message, or set its pending bit while it is masked (R406). -/
def Dev.sendVec (d : Dev) (v : Nat) : Dev :=
  if mget true v d.hi.masked then { d with hi := { d.hi with pend := mput false v true d.hi.pend } } else d.emit (d.message v)

/-- The event vector (R407). -/
def Dev.eventMsg (d : Dev) : Dev := if d.gb aEVT_VEC 31 then d.sendVec (d.gf aEVT_VEC 0 11) else d

/-! ## The Deputy -/

/-- The level R443 gives a source of a class (class SECURITY as its callers give it). -/
def dpBase (cls src : Nat) : Nat :=
  match cls with
  | 1 => 1
  | 2 => 2
  | 3 => if src = 0 then 1 else 2
  | 9 => if src = 0 then 1 else 2
  | 10 => if src = 0 then 1 else 2
  | 11 => if src = 0 then 1 else 2
  | 12 => if src = 0 then 1 else 2
  | 13 => if src = 0 then 1 else 2
  | 14 => if src = 0 then 1 else 2
  | 15 => if src = 0 then 1 else if src = 1 then 2 else 3
  | 16 => if src = 0 then 0 else 2
  | 17 => if src = 0 then 1 else 3
  | 18 => if src = 0 then 2 else 3
  | 19 => 3
  | 20 => if src = 0 then 0 else 1
  | 22 => if src = 0 then 3 else 0
  | 23 => 3
  | _ => 0

/-- Whether a log entry holds the record of an open fault (R450). -/
def Dev.entryOpen (d : Dev) (e : Nat) : Bool :=
  d.dp.opens.any (fun o => match o.2 with
    | some f => f.entry == e && d.gb aDP_PEND o.1
    | none => false)

/-- The first entry from `e` on that holds no open fault's record, with how many were passed over. -/
def Dev.logEntry (d : Dev) (e : Nat) : Nat → Nat × Nat
  | 0 => (e % 256, 0)
  | n + 1 => if d.entryOpen (e % 256) then
      let r := d.logEntry (e + 1) n
      (r.1, r.2 + 1)
    else (e % 256, 0)

/-- The eight words of a fault record (R449). -/
def faultRecord (seq cls lvl base : Nat) (esc : Bool) (site src aux : Nat) (t : W64) : List W32 :=
  [BitVec.ofNat 32 seq, BitVec.ofNat 32 (cls % 32 + 256 * (lvl + 4 * base + 16 * esc.toNat) + 65536 * (site % 65536)),
   BitVec.ofNat 32 t.toNat, BitVec.ofNat 32 (t.toNat / 2 ^ 32), BitVec.ofNat 32 (src % 256),
   BitVec.ofNat 32 aux, BitVec.ofNat 32 (aux / 2 ^ 32), 0]

/-- Write a record at the next free log entry (R450): the device, the entry and the entries passed over. -/
def Dev.writeRecord (d : Dev) (cls lvl base : Nat) (esc : Bool) (site src aux : Nat) : Dev × Nat × Nat :=
  let e := d.logEntry (d.gf aDP_STAT 0 8) 256
  let seq := d.dp.seq + 1
  let d := { d with dp := { d.dp with seq := seq } }
  let d := d.wrs (aDP_LOG e.1) (faultRecord seq cls lvl base esc site src aux d.now)
  (d.sf aDP_STAT 0 8 (e.1 + 1), e.1, e.2)

/-- Whether a level-0 or level-1 event of a class writes a record (R450). -/
def Dev.lowDue (d : Dev) (cls : Nat) : Bool :=
  match mget none cls d.dp.lowLast with
  | none => true
  | some t => decide (d.since t < 0) || decide (Int.ofNat (2 ^ (max 16 (d.gf aDP_CFG 8 5))) ≤ d.since t)

/-- Write the record of a level-0 or level-1 event when one is due: the device and the entries passed over. -/
def Dev.lowRecord (d : Dev) (cls lvl site src aux : Nat) : Dev × Nat :=
  if d.lowDue cls then
    let r := d.writeRecord cls lvl lvl false site src aux
    let d := { r.1 with dp := { r.1.dp with lowLast := mput none cls (some r.1.now) r.1.dp.lowLast } }
    (if d.gb aDP_EVT_EN cls then d.eventMsg else d, r.2.2)
  else (d, 0)

/-- Each pass-over of an open fault's entry is a DEPUTY event of source 1 (R450). Within one period only the first writes a
record, so its own pass-overs are counted alone. -/
def Dev.passedOver (d : Dev) (n : Nat) : Dev :=
  if n = 0 then d else
  let r := d.lowRecord 22 0 0 1 0
  r.1.countBy (aDP_CNT 22) (n + r.2)

/-- Keep the highest level taken (DP_STAT.LEVEL_MAX). -/
def Dev.levelMax (d : Dev) (lvl : Nat) : Dev := if d.gf aDP_STAT 16 2 < lvl then d.sf aDP_STAT 16 2 lvl else d

/-- The hardware stop path (R451): the transmitters go idle, CANARY and PT_PPS_OUT are held, the record is kept in the embedded
store (R453), and the event vector's message is the last the device sends. -/
def Dev.stopNow (d : Dev) (record : List W32) : Dev :=
  let d := d.emit .electricalIdle
  let d := { d with tm := { d.tm with ppsHigh := false }, dp := { d.dp with canaryOn := false, nvLog := (record :: d.dp.nvLog).take 16 } }
  d.eventMsg.sb aDP_STAT 8 true

/-- Open a fault (R445): its record, DP_PEND and DP_OPEN; at level 3 the device stops. -/
def Dev.openFault (d : Dev) (cls lvl base : Nat) (site src aux : Nat) : Dev :=
  let r := d.writeRecord cls lvl base (decide (base < lvl)) site src aux
  let d := r.1
  let d := (d.sb aDP_PEND cls true).wr (aDP_OPEN cls) (BitVec.ofNat 32 d.dp.seq)
  let d := { d with dp := { d.dp with opens := mput none cls (some ⟨r.2.1, d.tm.cycle⟩) d.dp.opens } }
  let d := d.passedOver r.2.2
  if lvl = 3 then d.stopNow ((List.range 8).map (fun i => d.rg (aDP_LOG r.2.1 + 4 * i))) else d.eventMsg

/-- Whether a level-2 event merges into the open fault of its class (R446). -/
def Dev.merges (d : Dev) (f : OpenFault) (site : Nat) : Bool :=
  let w1 := d.rg (aDP_LOG f.entry + 4)
  let t := BitVec.ofNat 64 (d.rg64 (aDP_LOG f.entry + 8))
  let win := Int.ofNat (orOne (d.gf aDP_CFG 0 8) * 4096)
  fld w1 16 16 == site % 65536 && (f.cycle == d.tm.cycle || (decide (-win ≤ d.since t) && decide (d.since t ≤ win)))

/-- A memory or datapath event (classes 9 to 13) of level 1 or higher makes this member SUSPECT for each update that has launched here
and whose part is not formed yet (R435). -/
def Dev.markSuspect (d : Dev) (cls lvl : Nat) : Dev :=
  if cls < 9 ∨ 13 < cls ∨ lvl = 0 then d else
  { d with cl := { d.cl with ops := d.cl.ops.map (fun o =>
      if o.launched && rdLE o.body 0 1 == 0x28 && o.twin.waitFrom.isNone && !o.twin.sent then { o with twin := { o.twin with suspect := true } }
      else o) } }

/-- The Deputy takes an event at the level its class and source give (R442 to R447). A stopped device takes none (R452). -/
def Dev.event (d : Dev) (cls src lvl site aux : Nat) : Dev :=
  if d.stopped then d else
  let d := (d.count (aDP_CNT cls)).markSuspect cls lvl
  if lvl ≤ 1 then
    let r := (d.levelMax lvl).lowRecord cls lvl site src aux
    r.1.passedOver r.2
  else if lvl = 2 then
    match (if d.gb aDP_PEND cls then mget none cls d.dp.opens else none) with
    | none => (d.levelMax 2).openFault cls 2 2 site src aux
    | some f =>
      if d.merges f site then
        let a := aDP_LOG f.entry + 16
        (d.levelMax 2).sf a 16 16 (min 0xFFFF (d.gf a 16 16 + 1))
      else (d.levelMax 3).openFault cls 3 2 site src aux
  else (d.levelMax 3).openFault cls 3 3 site src aux

/-- An event at the level R443 gives. -/
def Dev.report (d : Dev) (cls src site aux : Nat) : Dev := d.event cls src (dpBase cls src) site aux

/-! ## Completion records -/

/-- What a completion record carries beside its descriptor (R401). -/
structure Cpl where
  status : Nat := 0
  ieee : Nat := 0
  count : Nat := 0
  member : Nat := 0
  flags : Nat := 0
  info : Nat := 0
  hall : Nat := 0
  deriving DecidableEq, Repr

/-- DEGRADED of the shape word (R302): a logical bench or Smelter has been lost. -/
def Dev.degraded (d : Dev) : Bool := d.gb 0x7000C 20

/-- DEGRADED_SHAPE (R10, R404): the shape has lost a bench, a Smelter or a sorter. DEDUCED (log 98): the shape word has no place for a sorter. -/
def Dev.shapeLost (d : Dev) : Bool := d.degraded || !d.fb.sortLost.isEmpty

/-- The 32 bytes of a completion record (R401). -/
def cplBytes (ref : DescRef) (c : Cpl) (phase : Bool) : Bytes :=
  [BitVec.ofNat 8 (c.ieee % 32 + 128 * phase.toNat), BitVec.ofNat 8 c.status, BitVec.ofNat 8 ref.op, BitVec.ofNat 8 c.count]
    ++ toLE 2 ref.slot ++ toLE 2 (c.member % 2 ^ 15) ++ toLE 4 c.flags ++ toLE 4 c.info ++ toLE 16 c.hall

/-- A ring's CQ size (R383). -/
def Dev.cqSize (d : Dev) (r : Nat) : Nat := 2 ^ (d.gf (aRING r) 12 4 + 4)
/-- A ring's SQ size (R383). -/
def Dev.sqSize (d : Dev) (r : Nat) : Nat := 2 ^ (d.gf (aRING r) 8 4 + 4)
/-- RING_STAT.STATE (R386). -/
def Dev.ringState (d : Dev) (r : Nat) : Nat := d.gf (aRING r + 4) 0 2

/-- Count a completion on a vector and send its message when COUNT is reached (R406). -/
def Dev.countVec (d : Dev) (v : Nat) : Dev :=
  let x := mget Vec.init v d.hi.vecs
  let n := x.count + 1
  if orOne (d.gf (aMX_MOD v) 0 8) ≤ n then
    { d with hi := { d.hi with vecs := mput Vec.init v Vec.init d.hi.vecs } }.sendVec v
  else { d with hi := { d.hi with vecs := mput Vec.init v ⟨n, some (x.started.getD d.now)⟩ d.hi.vecs } }

/-- One fetched descriptor fewer in flight; a DRAINING ring with none left goes OFF (R386). -/
def Dev.retire (d : Dev) (r : Nat) : Dev :=
  let n := d.gf (aRING r + 0x34) 0 17 - 1
  let d := d.sf (aRING r + 0x34) 0 17 n
  if n = 0 ∧ d.ringState r = 2 then d.sf (aRING r + 4) 0 2 0 else d

/-- Write the completion record of a descriptor (R402): bytes 1 to 31, then byte 0; advance CQ_TAIL; count it on its vector. An
operation fetched before a Function Level Reset writes nothing (R381); a stopped device writes nothing (R451). -/
def Dev.complete (d : Dev) (ref : DescRef) (c : Cpl) : Dev :=
  if ref.gen ≠ d.hi.gen ∨ d.stopped then d else
  let rb := aRING ref.ring
  let idx := d.gf (rb + 0x2C) 0 16
  let phase := d.gb (rb + 0x2C) 16
  let c := { c with flags := if d.shapeLost then c.flags ||| 64 else c.flags }
  let bytes := cplBytes ref c phase
  let addr := d.rg64 (rb + 0x10) + 32 * idx
  let d := (d.emit (.hostWrite (addr + 1) (bytes.drop 1))).emit (.hostWrite addr (bytes.take 1))
  let next := (idx + 1) % d.cqSize ref.ring
  let d := d.wr (rb + 0x2C) (BitVec.ofNat 32 (next + 65536 * (if next = 0 then !phase else phase).toNat))
  let d := (d.retire ref.ring).count aCNT_CPL
  if d.gb rb 2 && !ref.quiet then d.countVec (d.gf rb 16 11) else d

/-- Complete with a status and nothing more. -/
def Dev.completeS (d : Dev) (ref : DescRef) (status : Nat) : Dev := d.complete ref { status := status }

/-- A status of R405. -/
def stOK : Nat := 0
def stLENGTH_RANGE : Nat := 1
def stBAD_OPCODE : Nat := 2
def stCONFLICT : Nat := 3
def stSTRIKE_LATE : Nat := 4
def stSTRIKE_BUSY : Nat := 5
def stORDER_TIMEOUT : Nat := 6
def stMEMBER_FENCED : Nat := 7
def stTALLY_TIMEOUT : Nat := 8
def stSTEP_SKEW : Nat := 9
def stNAN_TRAPPED : Nat := 10
def stTWIN_DIVERGE : Nat := 11
def stUNIT_FENCED : Nat := 12
def stACCESS : Nat := 13
def stABORTED : Nat := 14
def stDATA_LOST : Nat := 15

/-- Take the oldest fetched descriptor of a ring when a test accepts it. -/
def Dev.takeFetched (d : Dev) (r : Nat) (p : Fetched → Bool) : Option (Fetched × Dev) :=
  match (if d.live then takeFirst (fun f => f.ref.ring == r) d.hi.fetched else none) with
  | some (f, rest) => if p f then some (f, { d with hi := { d.hi with fetched := rest } }) else none
  | none => none

/-- Whether a host range lies wholly in the window of a ring (R384). -/
def Dev.inWindow (d : Dev) (r addr len : Nat) : Bool :=
  let base := d.rg64 (aRING r + 0x18)
  let wlen := d.rg64 (aRING r + 0x20)
  decide (base ≤ addr ∧ addr + len ≤ base + wlen ∧ wlen ≠ 0)

/-! ## BAR0 writes -/

/-- Set a bit of CTL_STAT; the first access to do so while every bit is clear leaves its offset in CTL_BAD_ADDR (R498). -/
def Dev.ctlEvent (d : Dev) (bit addr : Nat) : Dev :=
  let d := if d.gf aCTL_STAT 0 4 = 0 then d.wr aCTL_BAD_ADDR (BitVec.ofNat 32 (addr % 2 ^ 28)) else d
  d.sb aCTL_STAT bit true

/-- Registers whose host writes a follower ignores (R427, R429): RCP[16..63], DT_SHADOW, SP_SHADOW, PORT_KIND, POL, SV_CLASS_LEN,
SV_QUANT, GL_SHADOW with its length, QT_PORT_* and QT_UNIT. -/
def mirroredReg (a : Nat) : Bool :=
  (decide (0x61800 ≤ a) && decide (a < 0x63000)) || (decide (0x900000 ≤ a) && decide (a < 0x980000)) ||
  (decide (0xA00000 ≤ a) && decide (a < 0xA20000)) || (decide (0x800400 ≤ a) && decide (a < 0x800800)) ||
  (decide (0x300000 ≤ a) && decide (a < 0x380000)) || (decide (0x200020 ≤ a) && decide (a < 0x200040)) ||
  (decide (0x210000 ≤ a) && decide (a < 0x218000)) ||
  (decide (0x22000 ≤ a) && decide (a < 0x2A000) && decide ((a - 0x22000) % 0x800 < 0x200 ∨ (a - 0x22000) % 0x800 = 0x400)) ||
  (decide (0x41000 ≤ a) && decide (a < 0x42000)) || (decide (0x40400 ≤ a) && decide (a < 0x40600))

/-- An address lies in a block, not in a reserved range (R489). -/
def inBlock (a : Nat) : Bool :=
  decide (a < 0x140000) || (decide (0x200000 ≤ a) && decide (a < 0x600000)) || (decide (0x800000 ≤ a) && decide (a < 0x1000000))

/-- Before READY writes to any block but the control and host-interface blocks are ignored (R494). -/
def Dev.early (d : Dev) (a : Nat) : Bool :=
  d.stage != 5 && inBlock a && !(decide (a < 0x10000) || (decide (0x400000 ≤ a) && decide (a < 0x600000)))

/-- A write of a block whose lock is set (R497). -/
def Dev.lockedAt (d : Dev) (a : Nat) : Bool := match blockLock a with
  | some b => d.gb aCTL_LOCK b
  | none => false

/-- The value a 4-byte write of BAR0 brings to its register, `none` where it has no effect there (R452, R490, R494 to R497): once a lock has
kept the RWL fields as they are. -/
def Dev.barSees (d : Dev) (a : Nat) (v : W32) : Option W32 :=
  if !d.live || (d.follower && mirroredReg a) || d.early a then none else
  match regRow a with
  | none => none
  | some r =>
    if !d.lockedAt a then some v
    else if r.rwl ≠ 0 ∧ r.rw = 0 ∧ r.w1c = 0 then none
    else some ((v &&& ~~~ r.rwl) ||| (d.rg a &&& r.rwl))

/-- What a write leaves beside its register: WR_IGN of a follower, and the bits of CTL_STAT (R494 to R498). -/
def Dev.barMarks (d : Dev) (a : Nat) (v : W32) : Dev :=
  if !d.live then d
  else if d.follower && mirroredReg a then d.sb aTW_STAT 9 true
  else match regRow a with
    | none => (if d.early a then d.ctlEvent 3 a else d).ctlEvent 2 a
    | some r =>
      if d.early a then d.ctlEvent 3 a
      else if d.lockedAt a && (v ^^^ d.rg a) &&& r.rwl != 0 then d.ctlEvent 0 a else d

/-- A 4-byte write of BAR0: `eff` is what the register does with the value that it sees. -/
def Dev.barWrite (d : Dev) (a : Nat) (v : W32) (eff : W32 → Dev → Dev) : Dev :=
  match d.barSees a v with
  | none => d.barMarks a v
  | some w => eff w (d.barMarks a v)

/-- What a register with no rule of its own does with a write (R5, R6): store its RW and RWL bits, clear its RW1C bits. -/
def Dev.plainWrite (a : Nat) (v : W32) (d : Dev) : Dev :=
  match regRow a with
  | none => d
  | some r =>
    let old := d.rg a
    let w := r.rw ||| r.rwl
    d.wr a (((old &&& ~~~ w) ||| (v &&& w)) &&& ~~~ (v &&& r.w1c))

/-! ## Comparators -/

/-- The comparators a user holds (PT_CMP_USE). -/
def Dev.cmpHeld (d : Dev) (user : Nat) : Nat := (d.tm.cmps.filter (fun c => c.user == user)).length

/-- A user's reservation (PT_CMP_RES). -/
def Dev.cmpRes (d : Dev) (user : Nat) : Nat := d.gf aPT_CMP_RES (8 * user) 7

/-- The comparators of the common pool still free (R41): 64 less the reservations less what users hold beyond theirs. -/
def Dev.cmpPool (d : Dev) : Nat :=
  64 - ((List.range 4).map d.cmpRes).sum - ((List.range 4).map (fun u => d.cmpHeld u - d.cmpRes u)).sum

/-- Whether a user finds `n` comparators (R41, R43). -/
def Dev.cmpFree (d : Dev) (user n : Nat) : Bool := decide (n ≤ (d.cmpRes user - d.cmpHeld user) + d.cmpPool)

/-- The lowest comparator number not in use. -/
def Dev.cmpId (d : Dev) : Nat := ((List.range 64).find? (fun i => d.tm.cmps.all (fun c => c.id != i))).getD 0

/-- Take a comparator (R40): `ord` is the number of its descriptor in the order of fetch. -/
def Dev.takeCmp (d : Dev) (user : Nat) (time : W64) (wait : Option (Nat × Nat)) (act : CmpAct) (ord : Nat := 0) : Dev :=
  { d with tm := { d.tm with cmps := d.tm.cmps ++ [⟨d.cmpId, user, time, wait, act, ord, none⟩] } }

/-- Release the comparators of an action (R40). -/
def Dev.dropCmp (d : Dev) (act : CmpAct) : Dev := { d with tm := { d.tm with cmps := d.tm.cmps.filter (fun c => c.act != act) } }

end Sys2Proof.Machine
end

