-- ==== Sys2Proof/Machine/Lanes.lean ====
section
/-! DEFINITION. Lanes and their ports (R50, R78): which lanes a port has, the alternatives of a lane and its preferred one. -/

namespace Sys2Proof.Machine

/-- LN_GROUP_CFG.WIDTH of a lane group. -/
def Dev.groupWidth (d : Dev) (g : Nat) : Nat := d.gf (aLN_GROUP_CFG g) 0 2

/-- The lanes of a port in logical order as the board runs them (R50): none for a port number that does not exist. -/
def Dev.lanesOf (d : Dev) (p : Nat) : List Nat :=
  if p = 256 then (List.range 16).map (fun i => 512 + i)
  else if 256 < p then []
  else
    let g := p / 4
    let k := p % 4
    match d.groupWidth g with
    | 0 => [8 * g + 2 * k, 8 * g + 2 * k + 1]
    | 1 => if k % 2 = 0 then (List.range 4).map (fun i => 8 * g + 2 * k + i) else []
    | 2 => if k = 0 then (List.range 8).map (fun i => 8 * g + i) else []
    | _ => []

/-- A port number that R50 gives. -/
def Dev.portExists (d : Dev) (p : Nat) : Bool := !(d.lanesOf p).isEmpty

/-- The port a lane belongs to. -/
def Dev.portOfLane (d : Dev) (l : Nat) : Option Nat :=
  if 512 ≤ l then (if l < 528 then some 256 else none)
  else
    let g := l / 8
    match d.groupWidth g with
    | 0 => some (4 * g + l % 8 / 2)
    | 1 => some (4 * g + 2 * (l % 8 / 4))
    | 2 => some (4 * g)
    | _ => none

/-- A lane's run-time state. -/
def Dev.lane (d : Dev) (l : Nat) : Lane := mget Lane.init l d.lanes

/-- Set a lane's run-time state. -/
def Dev.setLane (d : Dev) (l : Nat) (x : Lane) : Dev := { d with lanes := mput Lane.init l x d.lanes }

/-- Alternative `a` of a lane's board-table record may be used (R78): VALID, with taps that sum to at most 63. -/
def Lane.altValid (x : Lane) (a : Nat) : Bool :=
  let w := nfld x.alts (64 * a) 64
  let tap := fun (i : Nat) => (sext 8 (nfld w (8 * i) 8)).natAbs
  w.testBit 0 && decide (tap 1 + tap 2 + nfld w 24 8 + tap 4 ≤ 63)

/-- The next valid alternative after `a` in turn that a test accepts. -/
def Lane.nextAlt (x : Lane) (a : Nat) (ok : Nat → Bool) : Option Nat :=
  ((List.range 3).map (fun i => (a + 1 + i) % 4)).find? (fun i => x.altValid i && ok i)

/-- The preferred alternative of a lane (R79). -/
def Dev.pref (d : Dev) (l : Nat) : Nat := mget 0 l d.dp.lanePref

/-- Load samples in an hour. -/
def samplesPerHour : Nat := 3600 * 2 ^ 32 / 4096

/-- A FULL sample of a lane's port passes with no retry charged (R465): after STALE hours of them the Surveyor wants the next earlier
valid alternative. -/
def Dev.laneQuiet (d : Dev) (l : Nat) : Dev :=
  let x := d.lane l
  let back := ((List.range (d.pref l)).reverse).find? x.altValid
  match back with
  | none => d
  | some a =>
    let n := x.quiet + 1
    if orOne (d.gf aSU_CFG 16 16) * samplesPerHour ≤ n then d.setLane l { x with quiet := 0, wanted := some a }
    else d.setLane l { x with quiet := n }

end Sys2Proof.Machine
end

