-- ==== Sys2Proof/Machine/Time.lean ====
section
/-! DEFINITION. Plant time, beats, the strike specifier and the gate engines (chapter 2, and the lists of chapter 6): the
meanings of the commands that touch nothing beyond them. -/

namespace Sys2Proof.Machine

/-! ## The count -/

/-- The nominal rate (R18). -/
def nominalRate : Nat := 0x44B82FA0A

/-- SLEW_MAX parts per million of the nominal rate (R25), rounded down (log 3). -/
def Dev.slewDelta (d : Dev) : Nat := nominalRate * d.gf aPT_SERVO 0 8 / 1000000

/-- The rate changes: a PT_RATE_LO written before no longer counts (R49). -/
def TimeSt.setRate (t : TimeSt) (r : Nat) (slew : Int) : TimeSt := { t with rate := BitVec.ofNat 40 r, slew := slew, loHeld := none }

/-- What the slew has left after one cycle at the present rate, and the rate from then on. -/
def TimeSt.slewOn (t : TimeSt) : TimeSt :=
  if t.slew = 0 then t else
  let left := t.slew - (Int.ofNat t.rate.toNat - Int.ofNat nominalRate)
  if (decide (0 < t.slew) == decide (0 < left)) && left ≠ 0 then { t with slew := left }
  else t.setRate nominalRate 0

/-- The comparators whose time the count has just reached are due from this cycle on (R44). -/
def TimeSt.reach (t : TimeSt) : TimeSt :=
  let now := BitVec.ofNat 64 (t.acc.toNat / 2 ^ 32)
  { t with cmps := t.cmps.map (fun c =>
      if c.due.isNone && c.wait.isNone && decide ((c.time - now).toInt ≤ 0) then { c with due := some t.cycle } else c) }

/-- One cycle of the local clock (R18): the accumulator takes PT_RATE; a pulse of PT_PPS_OUT ends when its time is up; SU_HOURS counts
a power-on hour of 3.6e12 cycles (R467). -/
def Dev.tick (d : Dev) : Dev :=
  if !d.perst then d else
  let t := d.tm
  let t := { t with acc := t.acc + BitVec.ofNat 96 t.rate.toNat, cycle := t.cycle + 1, quiet := t.quiet + t.rate.toNat }
  let t := t.slewOn.reach
  let d := { d with tm := t }
  let d := if t.cycle % 3600000000000 = 0 then d.count aSU_HOURS else d
  if t.ppsHigh && decide (d.ahead t.ppsEnd ≤ 0) then { d with tm := { t with ppsHigh := false } } else d

/-- Step the count by a signed number of ticks (R25); the count leaves UNSET (R21). -/
def Dev.stepCount (d : Dev) (ticks : Int) : Dev :=
  { d with tm := { d.tm with acc := BitVec.ofInt 96 (Int.ofNat d.tm.acc.toNat + ticks * Int.ofNat (2 ^ 32)), leftUnset := true } }

/-- PT_STAT.DEPTH as R27 gives it. -/
def Dev.depthNow (d : Dev) : Nat :=
  match d.gf aPT_CTRL 0 3 with
  | 1 => if d.tm.everLocked then 0 else 15
  | 2 => if d.tm.everLocked then min 15 (d.tm.srcDepth + 1) else 15
  | 3 => if d.tm.everLocked then min 15 (d.tm.srcDepth + 1) else 15
  | 4 => if d.tm.leftUnset then 0 else 15
  | _ => 15

/-- Set PT_STAT.STATE, with DEPTH as it then is. -/
def Dev.ptState (d : Dev) (st : Nat) : Dev :=
  let d := d.sf aPT_STAT 0 3 st
  d.sf aPT_STAT 4 4 d.depthNow

/-- The state a source puts the unit in when it is selected or the count has just been stepped (R20, R21): HOLDOVER while the source
is lost (R26). -/
def Dev.stateOf (d : Dev) (src : Nat) : Nat :=
  if src = 0 then 1 else if !d.tm.leftUnset then 0 else if src = 4 then 1 else if d.tm.lost then 4 else 2

/-- The servo steps the count by the measured error, or slews it (R25). `e` is our count minus the source's. DESIGN CHOICE (log 92): after
a step, and where there is no error, the rate is the nominal one. -/
def Dev.servo (d : Dev) (e : Int) : Dev :=
  if decide (Int.ofNat (d.gf aPT_SERVO 16 16) < e.natAbs) && d.tm.cmps.isEmpty then
    let d := d.stepCount (-e)
    { d with tm := d.tm.setRate nominalRate 0 }
  else if e = 0 then { d with tm := d.tm.setRate nominalRate 0 }
  else
    let r := if e < 0 then nominalRate + d.slewDelta else nominalRate - d.slewDelta
    { d with tm := d.tm.setRate r (-e * Int.ofNat (2 ^ 32)) }

/-- The servo takes a measurement of the selected source (R20, R24 to R28): `depth` is the source's (0 for PPS). A source of depth 15 is
not locked to: in HOLDOVER it does not end the loss. DESIGN CHOICE (log 92): outside HOLDOVER the servo still acts on its error. -/
def Dev.measure (d : Dev) (e : Int) (depth : Nat) (hold : Bool) : Dev :=
  let src := d.gf aPT_CTRL 0 3
  let st := d.gf aPT_STAT 0 3
  let far := depth == 15 && src != 1
  let d := { d with tm := { d.tm with quiet := 0, lost := d.tm.lost && far && st == 4, srcDepth := depth } }
  let d := d.sb aPT_STAT 3 hold
  if far then
    let d := { d with tm := { d.tm with lockRun := 0 } }
    if st = 4 then d.ptState 4 else
    let d := d.servo e
    d.ptState (d.stateOf src)
  else
    let within := decide (e.natAbs ≤ d.gf aPT_SERVO 8 8)
    let run := if within then d.tm.lockRun + 1 else 0
    let d := { d with tm := { d.tm with lockRun := run } }
    let d := d.servo e
    if !d.tm.leftUnset then d.ptState 0
    else if 8 ≤ run then { d with tm := { d.tm with everLocked := true } }.ptState 3
    else d.ptState 2

/-- PT_STEP_HI (R25): the step acts unless a comparator is armed. -/
def ptStepEffect (v : W32) (d : Dev) : Dev :=
  if !d.tm.cmps.isEmpty then (d.sb aPT_STAT 9 true).report 0 1 0 0 else
  let d := d.stepCount (BitVec.ofNat 64 (d.tm.stepLo.toNat + 2 ^ 32 * v.toNat)).toInt
  let d := { d with tm := { d.tm with lockRun := 0 } }
  d.ptState (d.stateOf (d.gf aPT_CTRL 0 3))

/-- PT_STEP (R25). -/
def execPtStep (v : W32) (s : State) : Host.Outcome State Fault Refusal :=
  devStep (fun d => d.barWrite aPT_STEP_HI v ptStepEffect) s

/-- PT_RATE_LO: held until PT_RATE_HI is written; ignored where the servo writes the rate (R49). -/
def ptRateLoEffect (v : W32) (d : Dev) : Dev :=
  let src := d.gf aPT_CTRL 0 3
  if src = 1 ∨ src = 2 ∨ src = 3 then d else { d with tm := { d.tm with loHeld := some v } }

/-- PT_RATE_LO_WRITE (R49). -/
def execPtRateLoWrite (v : W32) (s : State) : Host.Outcome State Fault Refusal :=
  devStep (fun d => d.barWrite aPT_RATE_LO v ptRateLoEffect) s

/-- PT_RATE_HI: the whole rate at once, clamped in HOST mode (R22, R25, R49). -/
def ptRateHiEffect (v : W32) (d : Dev) : Dev :=
  let src := d.gf aPT_CTRL 0 3
  if src = 1 ∨ src = 2 ∨ src = 3 then d else
  let lo := (d.tm.loHeld.getD (BitVec.ofNat 32 d.tm.rate.toNat)).toNat
  let want := lo + 2 ^ 32 * fld v 0 8
  if src = 4 ∧ (want < nominalRate - d.slewDelta ∨ nominalRate + d.slewDelta < want) then
    let r := if want < nominalRate then nominalRate - d.slewDelta else nominalRate + d.slewDelta
    ({ d with tm := d.tm.setRate r 0 }.sb aPT_STAT 10 true).report 0 1 0 0
  else { d with tm := d.tm.setRate want 0 }

/-- PT_RATE_HI_WRITE (R49). -/
def execPtRateHiWrite (v : W32) (s : State) : Host.Outcome State Fault Refusal :=
  devStep (fun d => d.barWrite aPT_RATE_HI v ptRateHiEffect) s

/-- PT_CTRL: a reserved SRC_SEL leaves everything and sets CFG_REJ; another selection starts its discipline afresh, and selecting FREE
leaves UNSET (R21, R22). -/
def ptCtrlEffect (v : W32) (d : Dev) : Dev :=
  let src := fld v 0 3
  if 4 < src then d.sb aPT_STAT 11 true else
  let old := d.gf aPT_CTRL 0 3
  let same := src == old && (src != 2 || fld v 8 8 == d.gf aPT_CTRL 8 8)
  let d := Dev.plainWrite aPT_CTRL v d
  if same then (if src = 0 then ({ d with tm := { d.tm with leftUnset := true } }).ptState 1 else d) else
  let t := d.tm
  let d := { d with tm := { t with lockRun := 0, everLocked := false, srcDepth := 15, quiet := 0, lost := false,
                                   slew := 0, loHeld := none, leftUnset := t.leftUnset || src == 0 } }
  (d.sb aPT_STAT 3 false).ptState (d.stateOf src)

/-- PT_CTRL_WRITE (R22). -/
def execPtCtrlWrite (v : W32) (s : State) : Host.Outcome State Fault Refusal :=
  devStep (fun d => d.barWrite aPT_CTRL v ptCtrlEffect) s

/-- PT_NOW_LO_READ (R49, R493): the low half is returned and the high half latched, except on a stopped device (R452). -/
def execPtNowLoRead (s : State) : Host.Outcome State Fault Refusal :=
  devStep (fun d => d.when d.perst (fun d =>
    let n := d.now.toNat
    let d := d.emit (.readValue 0x20000 (BitVec.ofNat 32 n))
    if d.stopped then d else { d with tm := { d.tm with nowHi := BitVec.ofNat 32 (n / 2 ^ 32) } })) s

/-- BEAT_STAMP_LO_READ (R493). -/
def execBeatStampLoRead (s : State) : Host.Outcome State Fault Refusal :=
  devStep (fun d => d.when d.perst (fun d =>
    let n := d.tm.beatStamp.toNat
    let d := d.emit (.readValue 0x20038 (BitVec.ofNat 32 n))
    if d.stopped then d else { d with tm := { d.tm with stampHi := BitVec.ofNat 32 (n / 2 ^ 32) } })) s

/-- PT_CMP_RES: refused with CONFLICT where the sums or the holdings do not allow it (R42). -/
def ptCmpResEffect (v : W32) (d : Dev) : Dev :=
  let new := fun u => fld v (8 * u) 7
  let sum := ((List.range 4).map new).sum
  let beyond := ((List.range 4).map (fun u => d.cmpHeld u - new u)).sum
  if 64 < sum ∨ 64 - sum < beyond then d else Dev.plainWrite aPT_CMP_RES v d

/-- PT_CMP_RES_WRITE (R42). -/
def execPtCmpResWrite (v : W32) (s : State) : Host.Outcome State Fault Refusal :=
  devStep (fun d => d.barWrite aPT_CMP_RES v ptCmpResEffect) s

/-- BEAT_STAT.CLR (R49). -/
def beatStatEffect (v : W32) (d : Dev) : Dev := if bitAt v 31 then d.sf aBEAT_STAT 0 16 0 else d

/-- BEAT_STAT_CLR (R49). -/
def execBeatStatClr (v : W32) (s : State) : Host.Outcome State Fault Refusal :=
  devStep (fun d => d.barWrite aBEAT_STAT v beatStatEffect) s

/-- PPS_EDGE (R23): in PPS mode the edge is held against a count whose low half is zero. -/
def execPpsEdge (s : State) : Host.Outcome State Fault Refusal :=
  devStep (fun d => d.when (d.live && d.gf aPT_CTRL 0 3 == 1) (fun d =>
    let frac := d.now.toNat % 2 ^ 32
    d.measure (sext 32 frac) 0 false)) s

/-- SOURCE_LOST (R7, R26): no edge for 1.5 s, or no first-transmission marker for 4 intervals, in ticks of the count as it ran. -/
def execSourceLost (s : State) : Host.Outcome State Fault Refusal :=
  devStep (fun d =>
    let src := d.gf aPT_CTRL 0 3
    let quiet := d.tm.quiet / 2 ^ 32
    let due := (src == 1 && decide (3 * 2 ^ 31 ≤ quiet)) ||
      ((src == 2 || src == 3) && decide (4 * 2 ^ d.gf aPT_MARK 0 5 ≤ quiet))
    d.when (d.live && due && !d.tm.lost) (fun d =>
      let d := { d with tm := { d.tm with lost := true, lockRun := 0, slew := 0 } }
      let d := (d.sb aPT_STAT 8 true).report 0 0 0 0
      if d.tm.leftUnset then d.ptState 4 else d)) s

/-- PPS_OUT_PULSE (R49): PT_PPS_OUT goes high in the cycle in which the count comes to a whole second. -/
def execPpsOutPulse (s : State) : Host.Outcome State Fault Refusal :=
  devStep (fun d =>
    let sec := d.now.toNat / 2 ^ 32
    d.when (d.live && d.gb aPT_PPS_OUT 0 && decide (d.tm.acc.toNat % 2 ^ 64 < d.tm.rate.toNat) && d.tm.ppsSec != some sec) (fun d =>
      let w := orOne (d.gf aPT_PPS_OUT 16 16) * 4096
      { d with tm := { d.tm with ppsHigh := true, ppsEnd := BitVec.ofNat 64 (sec * 2 ^ 32 + w), ppsSec := some sec } })) s

/-- PT_10M_IN_PRESENCE (R18): the local clock locks to PT_10M_IN while a signal is there, else to LN_REFCLK[0]. -/
def execPt10mInPresence (present : Bool) (s : State) : Host.Outcome State Fault Refusal :=
  devStep (fun d => { d with tm := { d.tm with tenMHz := present } }) s

/-! ## CANARY (R455) -/

/-- The millisecond of plant time: crossings of ceil(k · 2^32 / 1000). -/
def msIndex (t : W64) : Nat := t.toNat / 2 ^ 32 * 1000 + t.toNat % 2 ^ 32 * 1000 / 2 ^ 32

/-- CANARY changes level. -/
def Dev.canaryFlip (d : Dev) : Dev := { d with dp := { d.dp with canary := !d.dp.canary, canaryAt := d.tm.cycle } }

/-- CANARY_TOGGLE (R455): plant time has crossed a millisecond since the last change. -/
def execCanaryToggle (s : State) : Host.Outcome State Fault Refusal :=
  devStep (fun d => d.when (d.live && d.dp.canaryOn && msIndex d.now != d.dp.canaryMs) (fun d =>
    let d := d.canaryFlip
    { d with dp := { d.dp with canaryMs := msIndex d.now } })) s

/-- CANARY_GAP_TOGGLE (R455): 1,048,576 local cycles without a change. -/
def execCanaryGapToggle (s : State) : Host.Outcome State Fault Refusal :=
  devStep (fun d => d.when (d.live && d.dp.canaryOn && decide (1048576 ≤ d.tm.cycle - d.dp.canaryAt)) Dev.canaryFlip) s

/-! ## Strike specifiers (R34 to R38) -/

/-- What judging a strike specifier gives. -/
inductive Strike where
  /-- The descriptor completes with this status. -/
  | bad (status : Nat)
  /-- MODE 0: launch when fetched. -/
  | now
  /-- A strike at a plant time. -/
  | fire (t : W64)
  /-- A comparator armed at the deadline until the beat comes: deadline, beat, OFFSET. -/
  | wait (deadline : W64) (beat ofs : Nat)
  deriving DecidableEq, Repr

/-- PT_LEAD.ARM_LEAD as used (R37, R49). -/
def Dev.armLead (d : Dev) : Nat := max 0x400 (d.gf aPT_LEAD 0 16)

/-- R19 and R37 at the plant time of the fetch: a status, or none where the time is future enough. DESIGN CHOICE (log 92): a time beyond
the horizon under UNSET completes with LENGTH_RANGE. -/
def Dev.judgeTime (d : Dev) (fetch t : W64) : Option Nat :=
  let diff := (t - fetch).toInt
  if Int.ofNat (2 ^ 52) ≤ diff then some stLENGTH_RANGE
  else if d.gf aPT_STAT 0 3 = 0 then some stSTRIKE_LATE
  else if diff < Int.ofNat d.armLead then some stSTRIKE_LATE else none

/-- Judge the 16 bytes of a strike specifier (R35 to R38) at the plant time of the fetch. -/
def Dev.judgeStrike (d : Dev) (spec : Bytes) (fetch : W64) : Strike :=
  let time := rdLE spec 0 8
  let mode := bfld spec 8 0 2
  let dl := bfld spec 8 8 56
  if mode = 3 then .bad stBAD_OPCODE
  else if (mode = 0 ∧ time ≠ 0) ∨ (mode ≠ 2 ∧ dl ≠ 0) then .bad stBAD_OPCODE
  else if mode = 2 ∧ (time / 2 ^ 32 = 0xFFFFFFFF ∨ dl = 2 ^ 56 - 1) then .bad stLENGTH_RANGE
  else if mode = 0 then .now
  else if mode = 1 then
    match d.judgeTime fetch (BitVec.ofNat 64 time) with
    | some st => .bad st
    | none => .fire (BitVec.ofNat 64 time)
  else
    let deadline := BitVec.ofNat 64 (dl * 256)
    match d.judgeTime fetch deadline with
    | some st => .bad st
    | none =>
      let beat := BitVec.ofNat 32 time
      match d.tm.beats.find? (fun b => b.1 == beat) with
      | some b =>
        let t := b.2 + BitVec.ofNat 64 (time / 2 ^ 32)
        match d.judgeTime fetch t with
        | some st => .bad st
        | none => .fire t
      | none => if (beat - d.tm.beatCount).toInt ≤ -16 then .bad stSTRIKE_LATE else .wait deadline beat.toNat (time / 2 ^ 32)

/-- Arm a comparator for a judged strike (R40): `ord` is the number of its descriptor in the order of fetch. -/
def Dev.armStrike (d : Dev) (user : Nat) (k : Strike) (act : CmpAct) (ord : Nat) : Dev :=
  match k with
  | .fire t => d.takeCmp user t none act ord
  | .wait dl beat ofs => d.takeCmp user dl (some (beat, ofs)) act ord
  | _ => d

/-- Whether a comparator is due: its count is reached, and it waits for no beat. -/
def Dev.cmpDue (d : Dev) (c : Cmp) : Bool := c.wait.isNone && decide (d.ahead c.time ≤ 0)

/-- The rank of a user among strikes of one count (R44). -/
def userRank (u : Nat) : Nat := match u with | 1 => 0 | 2 => 1 | 3 => 2 | _ => 3

/-- The group a LAUNCH strike is ordered by (R44): operations with no group id come last. -/
def actGroup : CmpAct → Nat
  | .launchCl g _ => g
  | .launchWs g _ => g
  | _ => 65536

/-- Whether one comparator's action takes effect before another's (R44): `now` stands for the cycle of one not yet seen due. Strikes whose
times the count reaches in one cycle fire on the same count (R18). -/
def cmpBefore (now : Nat) (a b : Cmp) : Bool :=
  let x := a.due.getD now
  let y := b.due.getD now
  decide (x < y) || (x == y && (decide (userRank a.user < userRank b.user) ||
    (userRank a.user == userRank b.user && (decide (actGroup a.act < actGroup b.act) ||
      (actGroup a.act == actGroup b.act && decide (a.ord < b.ord))))))

/-- The comparator of a number when it fires now: it is due, and no due comparator comes before it (R44). None fires in UNSET (R26). -/
def Dev.fires (d : Dev) (id : Nat) : Option Cmp :=
  match d.tm.cmps.find? (fun c => c.id == id) with
  | none => none
  | some c =>
    if d.gf aPT_STAT 0 3 != 0 && d.cmpDue c && d.tm.cmps.all (fun x => x.id == c.id || !(d.cmpDue x && cmpBefore d.tm.cycle x c)) then some c
    else none

/-- Release one comparator. -/
def Dev.freeCmp (d : Dev) (id : Nat) : Dev := { d with tm := { d.tm with cmps := d.tm.cmps.filter (fun c => c.id != id) } }

/-- Re-arm a periodic comparator (R40). -/
def Dev.rearm (d : Dev) (act : CmpAct) (t : W64) : Dev :=
  { d with tm := { d.tm with cmps := d.tm.cmps.map (fun c => if c.act = act then { c with time := t, due := none } else c) } }

/-- The first time after now of a series that starts at `base` and repeats every `period` ticks. -/
def Dev.nextOf (d : Dev) (base : W64) (period : Nat) : W64 :=
  let z := d.since base
  if z < 0 then base else base + BitVec.ofNat 64 ((z.toNat / period + 1) * period)

/-! ## Beats (R31, R32, R38) -/

/-- A beat enters the log and the count (R31, R32). -/
def Dev.logBeat (d : Dev) (n : W32) (stamp : W64) : Dev :=
  { d with tm := { d.tm with beatCount := n, beatStamp := stamp, beats := lastN 16 (d.tm.beats ++ [(n, stamp)]) } }

/-- The comparators that wait for a beat are reloaded with stamp + OFFSET where the deadline has not been reached and that time lies at
least 64 ticks ahead (R38); the others are left waiting, for their descriptors to complete with STRIKE_LATE. -/
def Dev.reload (d : Dev) (n : W32) (stamp : W64) : Dev :=
  { d with tm := { d.tm with cmps := d.tm.cmps.map (fun c => match c.wait with
      | some (b, ofs) =>
        let t := stamp + BitVec.ofNat 64 ofs
        if b = n.toNat ∧ 0 < d.ahead c.time ∧ 64 ≤ d.ahead t then { c with time := t, wait := none } else c
      | none => c) } }

/-- The comparators a beat has come for too late (R38). -/
def Dev.beatLate (d : Dev) (n : W32) : List Cmp :=
  d.tm.cmps.filter (fun c => match c.wait with
    | some (b, _) => b == n.toNat
    | none => false)

/-- The 126-bit word of a beat marker (R65). -/
def beatWord (n : W32) (stamp : W64) : Nat :=
  let b := n.toNat
  2 + b % 256 * 2 ^ 12 + b / 2 ^ 8 % 256 * 2 ^ 20 + b / 2 ^ 16 % 2 * 2 ^ 28 + b / 2 ^ 17 % 2 * 2 ^ 29 + b / 2 ^ 18 * 2 ^ 30
    + stamp.toNat * 2 ^ 62

/-! ## Gate engines (R46 to R48, R158 to R161) -/

/-- Entry `i` of an engine's list: INTERVAL and OPEN (R158). -/
def Dev.glEntry (d : Dev) (g : Nat) (shadow : Bool) (i : Nat) : Nat × Nat :=
  let a := aGL g + (if shadow then 0 else 0x200) + 8 * i
  ((d.rg a).toNat, d.gf (a + 4) 0 8)

/-- The list in force of an engine, or its shadow list, with the length given. -/
def Dev.glList (d : Dev) (g : Nat) (shadow : Bool) (len : Nat) : List (Nat × Nat) := (List.range len).map (d.glEntry g shadow)

/-- The guard band of a class at a width, in ticks (R159). -/
def Dev.guardBand (d : Dev) (t w : Nat) : Nat :=
  let flits := cdiv (d.gf (aSV_CLASS_LEN t) 0 13) 120 + 2
  cdiv (flits * 8 * 2 ^ 32) (w * 1000000000)

/-- The longest run of entries open for a class, in ticks, of a list written twice over and capped at one cycle. -/
def longestOpen (t : Nat) (total : Nat) (l : List (Nat × Nat)) : Nat :=
  min total ((l ++ l).foldl (fun (acc : Nat × Nat) e =>
    let run := if e.2.testBit t then acc.1 + e.1 else 0
    (run, max acc.2 run)) (0, 0)).2

/-- R161: no INTERVAL is 0 or all ones, and every class has a window of its guard band at 2 lanes. -/
def Dev.gateOk (d : Dev) (l : List (Nat × Nat)) : Bool :=
  let total := (l.map (fun e => e.1)).sum
  l.all (fun e => e.1 != 0 && e.1 != 0xFFFFFFFF) && (List.range 8).all (fun t => decide (d.guardBand t 2 ≤ longestOpen t total l))

/-- Whether any port is bound to an engine (R162); the registers of a port that does not exist are ignored (R50). -/
def Dev.gateBound (d : Dev) (g : Nat) : Bool :=
  (List.range 256).any (fun p => d.portExists p && d.gb (aSV_GATE_BIND p) 4 && d.gf (aSV_GATE_BIND p) 0 4 == g)

/-- Set an engine's run-time state. -/
def Dev.setGate (d : Dev) (g : Nat) (r : GateRun) : Dev := { d with tm := { d.tm with gates := mput GateRun.init g r d.tm.gates } }

/-- An engine's run-time state. -/
def Dev.gate (d : Dev) (g : Nat) : GateRun := mget GateRun.init g d.tm.gates

/-- GE_CTRL (R47, R161, R162). DESIGN CHOICE (log 92): the refusal of an enable with GE_CYCLE 0 (R49) sets LIST_SUM. -/
def geCtrlEffect (g : Nat) (v : W32) (d : Dev) : Dev :=
  let a := aGE g
  if bitAt v 0 then
    let l := d.glList g false (fld v 1 6 + 1)
    if (l.map (fun e => e.1)).sum ≠ (d.rg (a + 0xC)).toNat ∨ d.rg (a + 0xC) = 0 then d.sb (a + 0x18) 1 true
    else if !d.gateOk l then d.sb aSV_STAT 2 true
    else
      let was := d.gb a 0
      let d := Dev.plainWrite a v d
      if was then d else d.setGate g { GateRun.init with armed := (d.gate g).armed }
  else if d.gb a 0 && d.gateBound g then d.sb aSV_STAT 1 true
  else (Dev.plainWrite a v d).setGate g { GateRun.init with armed := (d.gate g).armed }

/-- GE_CTRL_WRITE (R47). -/
def execGeCtrlWrite (g : Nat) (v : W32) (s : State) : Host.Outcome State Fault Refusal :=
  devStep (fun d => d.when (decide (g < 16)) (fun d => d.barWrite (aGE g) v (geCtrlEffect g))) s

/-- GE_SWAP_HI: the write arms the swap (R48). -/
def geSwapEffect (g : Nat) (v : W32) (d : Dev) : Dev :=
  (Dev.plainWrite (aGE g + 0x14) v d).setGate g { d.gate g with armed := true }

/-- GE_SWAP_HI_WRITE (R48). -/
def execGeSwapHiWrite (g : Nat) (v : W32) (s : State) : Host.Outcome State Fault Refusal :=
  devStep (fun d => d.when (decide (g < 16)) (fun d => d.barWrite (aGE g + 0x14) v (geSwapEffect g))) s

/-- Exchange two ranges of `n` consecutive registers. -/
def Dev.exchange (d : Dev) (a b : Nat) : Nat → Dev
  | 0 => d
  | n + 1 =>
    let x := d.rg (a + 4 * n)
    let y := d.rg (b + 4 * n)
    (d.exchange a b n |>.wr (a + 4 * n) y).wr (b + 4 * n) x

/-- The shadow list becomes the list in force (R48, R171), or is refused under R47 or R161. -/
def Dev.gateSwap (d : Dev) (g : Nat) : Dev :=
  let a := aGE g
  let len := d.gf (aGL g + 0x400) 0 6
  let l := d.glList g true (len + 1)
  let d := d.setGate g { d.gate g with armed := false }
  if (l.map (fun e => e.1)).sum ≠ (d.rg (a + 0xC)).toNat then d.sb (a + 0x18) 1 true
  else if !d.gateOk l then d.sb aSV_STAT 2 true
  else ((d.exchange (aGL g) (aGL g + 0x200) 128).sf a 1 6 len).sb (a + 0x18) 0 true

/-- GATE_CYCLE_START (R46, R48): the engine begins the cycle that plant time has come to. -/
def execGateCycleStart (g : Nat) (s : State) : Host.Outcome State Fault Refusal :=
  devStep (fun d =>
    let a := aGE g
    let r := d.gate g
    let cyc := (d.rg (a + 0xC)).toNat
    let base := BitVec.ofNat 64 (d.rg64 (a + 4))
    let z := d.since base
    let start := base + BitVec.ofNat 64 (z.toNat / cyc * cyc)
    d.when (d.live && decide (g < 16) && d.gb a 0 && decide (0 ≤ z) && (!r.begun || r.start != start)) (fun d =>
      let swapAt := BitVec.ofNat 64 (d.rg64 (a + 0x10))
      let d := if r.armed && decide (0 ≤ (start - swapAt).toInt) then d.gateSwap g else d
      d.setGate g { begun := true, start := start, entry := 0, ends := start + BitVec.ofNat 64 (d.glEntry g false 0).1,
                    armed := (d.gate g).armed })) s

/-- GATE_ENTRY_BOUNDARY (R158): the interval in force ends and the next entry comes into force. -/
def execGateEntryBoundary (g : Nat) (s : State) : Host.Outcome State Fault Refusal :=
  devStep (fun d =>
    let r := d.gate g
    d.when (d.live && decide (g < 16) && d.gb (aGE g) 0 && r.begun && decide (d.ahead r.ends ≤ 0) && decide (r.entry < d.gf (aGE g) 1 6))
      (fun d => d.setGate g { r with entry := r.entry + 1, ends := r.ends + BitVec.ofNat 64 (d.glEntry g false (r.entry + 1)).1 })) s

/-- The ticks from a time within the cycle to the next closing of a class in a list entered `i` entries on, `rest` ticks before
that entry ends; `none` where the class stays open to the end of the list. -/
def untilClosing (t : Nat) (rest : Nat) : List (Nat × Nat) → Option Nat
  | [] => none
  | e :: es => if e.2.testBit t then (untilClosing t (rest + e.1) es) else some rest

/-- Whether a packet of a class may begin at a port of a width now (R158, R159). -/
def Dev.gateAllows (d : Dev) (p t w : Nat) : Bool :=
  if !d.gb (aSV_GATE_BIND p) 4 then true else
  let g := d.gf (aSV_GATE_BIND p) 0 4
  let r := d.gate g
  if !(d.gb (aGE g) 0 && r.begun) then true else
  let len := d.gf (aGE g) 1 6 + 1
  let l := d.glList g false len
  let e := d.glEntry g false r.entry
  if !e.2.testBit t then false else
  let rest := (d.ahead r.ends).toNat
  let swapNext := r.armed && decide (0 ≤ (r.start + BitVec.ofNat 64 (d.rg (aGE g + 0xC)).toNat - BitVec.ofNat 64 (d.rg64 (aGE g + 0x10))).toInt)
  let after := if swapNext then d.glList g true (d.gf (aGL g + 0x400) 0 6 + 1) else l
  match untilClosing t rest (l.drop (r.entry + 1) ++ after ++ after) with
  | none => true
  | some n => decide (d.guardBand t w ≤ n)

end Sys2Proof.Machine
end

