-- ==== Sys2Proof/Machine/Buffer.lean ====
section
/-! DEFINITION. Packets and the shared buffer (R86, chapter 5): the header's fields, cells and their counts, reservations and the
shared pool, re-homing and push-out, packets that the device originates, notices, fenced destinations. -/

namespace Sys2Proof.Machine

/-! ## The header (R86) -/

def Pkt.tc (p : Pkt) : Nat := nfld p.hdr 8 3
def Pkt.mclass (p : Pkt) : Nat := nfld p.hdr 11 2
def Pkt.fence (p : Pkt) : Bool := p.hdr.testBit 13
def Pkt.ordered (p : Pkt) : Bool := p.hdr.testBit 14
def Pkt.hasE2e (p : Pkt) : Bool := p.hdr.testBit 15
def Pkt.colour (p : Pkt) : Nat := nfld p.hdr 16 2
def Pkt.hops (p : Pkt) : Nat := nfld p.hdr 18 4
def Pkt.down (p : Pkt) : Bool := p.hdr.testBit 22
def Pkt.tepoch (p : Pkt) : Nat := nfld p.hdr 23 1
def Pkt.opcode (p : Pkt) : Nat := nfld p.hdr 24 8
def Pkt.dst (p : Pkt) : Nat := nfld p.hdr 32 15
def Pkt.src (p : Pkt) : Nat := nfld p.hdr 48 15
def Pkt.flow (p : Pkt) : Nat := nfld p.hdr 64 18
def Pkt.format (p : Pkt) : Nat := nfld p.hdr 82 5
def Pkt.oseq (p : Pkt) : Nat := nfld p.hdr 96 16
def Pkt.group (p : Pkt) : Nat := nfld p.hdr 112 16
def Pkt.len (p : Pkt) : Nat := nfld p.hdr 128 13
def Pkt.tag (p : Pkt) : Nat := nfld p.hdr 144 16
def Pkt.arg0 (p : Pkt) : Nat := nfld p.hdr 160 64
def Pkt.arg1 (p : Pkt) : Nat := nfld p.hdr 224 32

/-- Set a header field. -/
def Pkt.setH (p : Pkt) (lo w x : Nat) : Pkt := { p with hdr := nsetf p.hdr lo w x }

/-- A packet of the device's own: FRAME 0x5A and the fields given. -/
def mkPkt (tc mclass opcode dst src format group tag arg0 arg1 : Nat) (body : Bytes) : Pkt :=
  { hdr := 0x5A + tc % 8 * 2 ^ 8 + mclass % 4 * 2 ^ 11 + opcode % 256 * 2 ^ 24 + dst % 2 ^ 15 * 2 ^ 32 + src % 2 ^ 15 * 2 ^ 48
      + format % 32 * 2 ^ 82 + group % 2 ^ 16 * 2 ^ 112 + body.length % 2 ^ 13 * 2 ^ 128 + tag % 2 ^ 16 * 2 ^ 144
      + arg0 % 2 ^ 64 * 2 ^ 160 + arg1 % 2 ^ 32 * 2 ^ 224
    body := body
    e2e := 0
    own := none }

/-- Bytes on the link and in the buffer (R63, R118): header, padded payload, end-to-end CRC block. -/
def Pkt.size (p : Pkt) : Nat := 32 + cdiv p.len 8 * 8 + (if p.hasE2e then 8 else 0)

/-- Cells a packet takes (R118). -/
def Pkt.cellCount (p : Pkt) : Nat := cdiv p.size 256

/-- The bytes of a packet as they stand on the link. -/
def Pkt.wire (p : Pkt) : Bytes :=
  toLE 32 p.hdr ++ padTo (cdiv p.len 8 * 8) p.body ++ (if p.hasE2e then toLE 8 (p.e2e % 2 ^ 32) else [])

/-- A packet from its bytes on the link. -/
def Pkt.ofWire (bs : Bytes) : Pkt :=
  let h := rdLE bs 0 32
  let n := nfld h 128 13
  { hdr := h, body := padTo n (bs.drop 32), e2e := if h.testBit 15 then rdLE bs (32 + cdiv n 8 * 8) 4 else 0, own := none }

/-! ## Ports and lanes: what kind and where -/

/-- PORT_KIND.KIND (R94); the twin link counts as none of them, and a port that does not exist is OFF (R50). -/
def Dev.kind (d : Dev) (p : Nat) : Nat := if 256 ≤ p then 7 else if d.portExists p then d.gf (aPORT_KIND p) 0 3 else 0

/-- LN_PORT_STAT.STATE (R80). -/
def Dev.portState (d : Dev) (p : Nat) : Nat := d.gf (aLN_PORT_STAT p) 0 3

/-- A port's link state. -/
def Dev.port (d : Dev) (p : Nat) : Port := mget Port.init p d.ports

/-- Set a port's link state. -/
def Dev.setPort (d : Dev) (p : Nat) (x : Port) : Dev := { d with ports := mput Port.init p x d.ports }

/-- Change a port's link state. -/
def Dev.modPort (d : Dev) (p : Nat) (f : Port → Port) : Dev := d.setPort p (f (d.port p))

/-- EP_ID of an ENDPOINT port. -/
def Dev.epId (d : Dev) (p : Nat) : Nat := d.gf (aPORT_KIND p) 16 15

/-- Whether the sorter of a port's lane group has been lost (R16). -/
def Dev.sorterLost (d : Dev) (p : Nat) : Bool := d.fb.sortLost.contains (p / 4)

/-! ## Free store and reservations (R121 to R127) -/

/-- A requester's reservation in cells: key 8p + m, 8p + 4, or 4096 + u (R123). -/
def Dev.reserve (d : Dev) (key : Nat) : Nat :=
  if 4096 ≤ key then d.gf (aQT_UNIT (key - 4096)) 0 16 * 16 else
  let p := key / 8
  match key % 8 with
  | 0 => d.gf (aQT_PORT_QF p) 0 16
  | 1 => d.gf (aQT_PORT_QF p) 16 16
  | 2 => d.gf (aQT_PORT_PC p) 0 16
  | 3 => d.gf (aQT_PORT_PC p) 16 16
  | _ => d.gf (aQT_PORT_RSQ p) 0 16

/-- Cells a requester holds. -/
def Dev.usedBy (d : Dev) (key : Nat) : Nat := mget 0 key d.fb.used

/-- LR_SHARED_FREE (R127): the free store less the unused part of every reservation. -/
def Dev.sharedFree (d : Dev) : Nat := d.fb.free - d.fb.unused

/-- LR_LOW follows LR_SHARED_FREE down (R148). -/
def Dev.noteLow (d : Dev) : Dev :=
  if d.sharedFree < d.gf aLR_LOW 0 21 then d.wr aLR_LOW (BitVec.ofNat 32 d.sharedFree) else d

/-- Set how many cells a requester holds, keeping the count of unused reservations. -/
def Dev.setUsed (d : Dev) (key n : Nat) : Dev :=
  let r := d.reserve key
  { d with fb := { d.fb with used := mput 0 key n d.fb.used, unused := d.fb.unused + (r - n) - (r - d.usedBy key) } }

/-- Requester keys of a charge, and whether cells borrowed from the shared pool are counted for a port. -/
def Charge.key : Charge → Option Nat
  | .part p m => some (8 * p + m)
  | .rsq p => some (8 * p + 4)
  | .unit u => some (4096 + u)
  | .shared _ => none

/-- Charge `n` cells. -/
def Dev.chargeCells (d : Dev) (c : Charge) (n : Nat) : Dev :=
  match c with
  | .shared p => { d with fb := { d.fb with borrowed := mmod 0 p (fun b => b + n) d.fb.borrowed } }
  | .part p m => d.setUsed (8 * p + m) (d.usedBy (8 * p + m) + n)
  | .rsq p => d.setUsed (8 * p + 4) (d.usedBy (8 * p + 4) + n)
  | .unit u => d.setUsed (4096 + u) (d.usedBy (4096 + u) + n)

/-- Take back a charge of `n` cells. -/
def Dev.dischargeCells (d : Dev) (c : Charge) (n : Nat) : Dev :=
  match c with
  | .shared p => { d with fb := { d.fb with borrowed := mmod 0 p (fun b => b - n) d.fb.borrowed } }
  | .part p m => d.setUsed (8 * p + m) (d.usedBy (8 * p + m) - n)
  | .rsq p => d.setUsed (8 * p + 4) (d.usedBy (8 * p + 4) - n)
  | .unit u => d.setUsed (4096 + u) (d.usedBy (4096 + u) - n)

/-- A bank holds no pointer. -/
def CellBank.empty (b : CellBank) : Bool := b.back.isEmpty && b.fresh == 262144

/-- The banks in turn from `k`, the first that is not empty. -/
def pickBank (banks : List CellBank) (k : Nat) : Nat :=
  ((List.range 4).map (fun i => (k + i) % 4)).find? (fun i => !(banks.getD i ⟨262144, []⟩).empty) |>.getD 0

/-- Issue one cell from a bank (R121): a returned one first, else the next never issued. -/
def issueFrom (banks : List CellBank) (i : Nat) : Nat × List CellBank :=
  let b := banks.getD i ⟨262144, []⟩
  match b.back with
  | c :: cs => (c, lset i { b with back := cs } banks)
  | [] => (i * 262144 + b.fresh, lset i { b with fresh := b.fresh + 1 } banks)

/-- Issue `n` cells from the banks in turn, starting at bank `k`. -/
def issueCells : Nat → Nat → List CellBank → List Nat × List CellBank
  | 0, _, banks => ([], banks)
  | n + 1, k, banks =>
    let i := pickBank banks k
    let r := issueFrom banks i
    let rest := issueCells n (i + 1) r.2
    (r.1 :: rest.1, rest.2)

/-- Take `n` cells off the free store; the bank started at is a free value (R121, log 9). -/
def Dev.takeCells (d : Dev) (n : Nat) : List Nat × Dev :=
  let r := issueCells n (d.freeNat % 4) d.fb.banks
  (r.1, { d.freeNext with fb := { d.fb with banks := r.2, free := d.fb.free - n } })

/-- A cell whose count has reached zero returns to its bank, unless it is retired (R122, R135). -/
def Dev.giveCell (d : Dev) (c : Nat) : Dev :=
  if d.fb.badCells.contains c then
    { d with fb := { d.fb with badCells := d.fb.badCells.filter (fun x => x != c) } }.countBy aLR_RETIRED 1
  else
    { d with fb := { d.fb with free := d.fb.free + 1, banks := lmod (c / 262144) (fun b => { b with back := c :: b.back }) d.fb.banks } }

/-- Credits of a message class to be returned to a port's peer (R62, R128). -/
def Dev.oweCredits (d : Dev) (p m n : Nat) : Dev := d.modPort p (fun x => { x with owe := lmod m (fun k => k + n) x.owe })

/-- Credits are owed as partition cells return. -/
def Dev.oweFor (d : Dev) (c : Charge) (n : Nat) : Dev :=
  match c with
  | .part p m => d.oweCredits p m n
  | _ => d

/-! ## Packets in the buffer -/

/-- The packet of a number. -/
def Dev.pkt? (d : Dev) (id : Nat) : Option BPkt := d.fb.pkts.find? (fun b => b.id == id)

/-- Change the packet of a number. -/
def Dev.modPkt (d : Dev) (id : Nat) (f : BPkt → BPkt) : Dev :=
  { d with fb := { d.fb with pkts := d.fb.pkts.map (fun b => if b.id = id then f b else b) } }

/-- Put a packet into the buffer with its cells charged; its cells count one until it is queued. -/
def Dev.addPkt (d : Dev) (p : Pkt) (src : Option Nat) (hdrTime : W64) (replayed : Bool) (c : Charge) (place : Place) : Dev :=
  let r := d.takeCells p.cellCount
  let d := r.2.chargeCells c p.cellCount
  let b : BPkt := { id := d.fb.nextId, pkt := p, src := src, time := d.now, hdrTime := hdrTime, replayed := replayed,
                    cells := r.1.map (fun x => (x, 1)), charge := c, place := place, copies := [], multi := false, fence := [], dte := 0, outs := [] }
  { d with fb := { d.fb with pkts := d.fb.pkts ++ [b], nextId := d.fb.nextId + 1 } }.noteLow

/-- A packet no cell of which is counted any longer leaves the buffer. -/
def Dev.reap (d : Dev) (id : Nat) : Dev :=
  { d with fb := { d.fb with pkts := d.fb.pkts.filter (fun b => b.id != id || b.cells.any (fun c => c.2 != 0)) } }

/-- Decrement the count of one cell of a packet; at zero the cell returns, and its charge and credit with it (R122, R128). -/
def Dev.decCell (d : Dev) (id i : Nat) : Dev :=
  match d.pkt? id with
  | none => d
  | some b =>
    match b.cells[i]? with
    | none => d
    | some (c, n) =>
      let d := d.modPkt id (fun b => { b with cells := lset i (c, n - 1) b.cells })
      if n = 1 then ((((d.giveCell c).dischargeCells b.charge 1).oweFor b.charge 1).reap id).noteLow else d

/-- Decrement the counts of the cells from `i` on, `n` of them. -/
def Dev.decCells (d : Dev) (id i : Nat) : Nat → Dev
  | 0 => d
  | n + 1 => (d.decCell id i).decCells id (i + 1) n

/-- Remove a packet that is not queued: every cell returns. -/
def Dev.dropPkt (d : Dev) (id : Nat) : Dev :=
  match d.pkt? id with
  | none => d
  | some b => d.decCells id 0 b.cells.length

/-- Remove one queued copy as though sent (R122, R137): every cell is decremented. -/
def Dev.dropCopy (d : Dev) (id port : Nat) : Dev :=
  match d.pkt? id with
  | none => d
  | some b =>
    if b.copies.any (fun c => c.port == port) then
      (d.modPkt id (fun b => { b with copies := b.copies.filter (fun c => c.port != port) })).decCells id 0 b.cells.length
    else d

/-- Queue a packet at ports, a queue of each (R120, R122): every cell is counted once for each copy. -/
def Dev.queueAt (d : Dev) (id : Nat) (ports : List Nat) (fence : List Nat) : Dev :=
  match d.pkt? id with
  | none => d
  | some b =>
    if ports.isEmpty then d.dropPkt id else
    let q := 4 * b.pkt.tc + b.pkt.mclass
    let n := ports.length
    let cs := (ports.zip (List.range n)).map (fun x => (⟨x.1, q, d.fb.nextOrd + x.2⟩ : QCopy))
    let d := d.modPkt id (fun b => { b with place := .queued, copies := cs, multi := decide (1 < n), fence := fence,
                                            cells := b.cells.map (fun c => (c.1, n)) })
    { d with fb := { d.fb with nextOrd := d.fb.nextOrd + n } }

/-- Bytes queued at a port for a traffic class (R97). -/
def Dev.queuedBytes (d : Dev) (p t : Nat) : Nat :=
  d.fb.pkts.foldl (fun n b => if b.pkt.tc = t ∧ b.copies.any (fun c => c.port == p) then n + b.pkt.size else n) 0

/-! ## Re-homing and push-out (R128, R131 to R133) -/

/-- Whether the cap of a port's borrowing allows `n` more cells (R128). -/
def Dev.capAllows (d : Dev) (p n : Nat) : Bool := decide (mget 0 p d.fb.borrowed + n ≤ d.gf (aQT_PORT_SHARE p) 0 16 * 16)

/-- Whether a packet can be a victim for an arrival of class `t` (R132). -/
def Dev.victimOk (d : Dev) (t : Nat) (b : BPkt) : Bool :=
  decide (t < b.pkt.tc) && (decide (0 < b.pkt.tc) && d.gb aLR_CFG b.pkt.tc) && decide (b.pkt.mclass ≤ 2) && b.src.isSome &&
  (match b.charge with
   | .shared _ => true
   | _ => false) && b.cells.all (fun c => c.2 == 1) && b.place == .queued && !b.multi && b.copies.length == 1

/-- The order in which queues are looked at for the victim (R133): highest class, most bytes, lowest port, lowest message class. -/
def Dev.victim (d : Dev) (t : Nat) : Option BPkt :=
  let cand := d.fb.pkts.filter (d.victimOk t)
  let top := cand.foldl (fun m b => max m b.pkt.tc) 0
  let cand := cand.filter (fun b => b.pkt.tc == top)
  let keyOf := fun (b : BPkt) => match b.copies with
    | c :: _ => 4 * c.port + b.pkt.mclass
    | [] => 0
  let bytes := fun k => cand.foldl (fun n b => if keyOf b = k then n + b.pkt.size else n) 0
  let best := cand.foldl (fun (acc : Option Nat) b =>
    let k := keyOf b
    match acc with
    | none => some k
    | some k0 => if bytes k0 < bytes k ∨ (bytes k0 = bytes k ∧ k < k0) then some k else some k0) none
  match best with
  | none => none
  | some k => (cand.filter (fun b => keyOf b == k)).foldl (fun (acc : Option BPkt) b =>
      match acc with
      | none => some b
      | some a => if (a.copies.headD ⟨0, 0, 0⟩).ord < (b.copies.headD ⟨0, 0, 0⟩).ord then some b else some a) none

/-- Push out victims until `n` shared cells are free or none remains (R131, R133); `fuel` bounds the victims. -/
def Dev.pushOut (d : Dev) (t n : Nat) : Nat → Dev
  | 0 => d
  | fuel + 1 =>
    if n ≤ d.sharedFree then d else
    match d.victim t with
    | none => d
    | some b =>
      let d := d.dropCopy b.id (b.copies.headD ⟨0, 0, 0⟩).port
      ((d.count aCNT_PUSHOUT).report 6 0 0 0).pushOut t n fuel

/-- Re-home a packet charged to its partition, pushing out for it (R128, R131); its credits are then owed at once. -/
def Dev.reHome (d : Dev) (id : Nat) : Dev :=
  match d.pkt? id with
  | none => d
  | some b =>
    match b.charge with
    | .part p m =>
      let n := b.cells.length
      if m = 3 ∨ !d.capAllows p n then d else
      let d := if d.sharedFree < n ∧ d.gb aLR_CFG 0 then d.pushOut b.pkt.tc n d.fb.pkts.length else d
      if d.sharedFree < n then d else
      let d := (d.dischargeCells (.part p m) n).chargeCells (.shared p) n
      ((d.modPkt id (fun b => { b with charge := .shared p })).oweCredits p m n).noteLow
    | _ => d

/-! ## Packets the device originates (R123, R130) -/

/-- Whether a unit finds the cells of a packet now (R130). -/
def Dev.unitRoom (d : Dev) (u n : Nat) : Bool :=
  let used := d.usedBy (4096 + u)
  decide (n ≤ (d.reserve (4096 + u) - used) + d.sharedFree) && decide (used + n ≤ d.gf (aQT_UNIT u) 16 16 * 16)

/-- Take the cells of a unit's packet and queue its copies. -/
def Dev.unitQueue (d : Dev) (u : Nat) (p : Pkt) (ports : List Nat) : Dev :=
  let id := d.fb.nextId
  (d.addPkt p none d.now false (.unit u) .queued).queueAt id ports []

/-- No packet of a unit waits for cells. -/
def Dev.unitIdle (d : Dev) (u : Nat) : Bool := d.fb.unitWait.all (fun x => x.1 != u)

/-- A unit originates a packet to ports (R130): it takes all the cells at once, or waits; a unit that waits sends nothing later first, and
the wait is counted once (DEDUCED, log 94). The packet takes TEPOCH from EPOCH (R113), but for one of the twin link, which no table routes.
A port that is DOWN takes none (R137). A follower originates none on ports 0 to 255 (R427). -/
def Dev.originate (d : Dev) (u : Nat) (p : Pkt) (ports : List Nat) : Dev :=
  let ports := (if d.follower then ports.filter (fun x => decide (256 ≤ x)) else ports).filter (fun x => d.portState x != 7)
  let p := if u = 66 then p else p.setH 23 1 (d.gf aRT_STAT 0 1)
  if ports.isEmpty ∨ d.stopped then d
  else if d.unitIdle u && d.unitRoom u p.cellCount then d.unitQueue u p ports
  else { d with fb := { d.fb with unitWait := d.fb.unitWait ++ [(u, p, ports)] } }.when (d.unitIdle u) (fun d => d.count aCNT_QUOTA_WAIT)

/-- The unit that carries packets originated for no named unit: logical Smelter (GROUP mod 64) (R123). -/
def noUnit (group : Nat) : Nat := group % 64

/-! ## Mirroring (R429, R431) -/

/-- Lists of numbers as 8-byte words, each with its length first. -/
def partsBytes (xs : List (List Nat)) : Bytes := xs.flatMap (fun x => toLE 8 x.length ++ x.flatMap (toLE 8))

/-- Read lists of 8-byte words back; `fuel` at least their number. -/
def bytesParts : Nat → Bytes → List (List Nat)
  | 0, _ => []
  | _ + 1, [] => []
  | f + 1, b :: bs =>
    let n := rdLE (b :: bs) 0 8
    ((chunks 8 (sl (b :: bs) 8 (8 * n))).map leNat) :: bytesParts f ((b :: bs).drop (8 + 8 * n))

/-- The bytes of a change as TW_STAGE carries it (their layout is the model's own, log 15). -/
def Change.bytes : Change → Bytes
  | .reg a v => 0 :: (toLE 4 a ++ toLE 4 v.toNat)
  | .desc bs data => 1 :: (toLE 4 bs.length ++ bs ++ data)
  | .mem a data => 2 :: (toLE 8 a ++ data)
  | .swap fl ep => 3 :: (toLE 1 fl ++ toLE 2 ep)
  | .start => [4]
  | .raw a v => 5 :: (toLE 4 a ++ toLE 4 v.toNat)
  | .shard s xs => 6 :: (toLE 4 s ++ partsBytes xs)

/-- The change that bytes carry. -/
def Change.ofBytes (bs : Bytes) : Change :=
  match bs with
  | [] => .mem 0 []
  | k :: bs =>
    if k = 0 then .reg (rdLE bs 0 4) (BitVec.ofNat 32 (rdLE bs 4 4))
    else if k = 1 then .desc (sl bs 4 (rdLE bs 0 4)) (bs.drop (4 + rdLE bs 0 4))
    else if k = 2 then .mem (rdLE bs 0 8) (bs.drop 8)
    else if k = 3 then .swap (rdLE bs 0 1) (rdLE bs 1 2)
    else if k = 4 then .start
    else if k = 5 then .raw (rdLE bs 0 4) (BitVec.ofNat 32 (rdLE bs 4 4))
    else .shard (rdLE bs 0 4) (bytesParts bs.length (bs.drop 4))

/-- The CRC-32 of R61 chained over payloads in order (R431). -/
def crcChain (xs : List Change) : Nat := crc32 (xs.flatMap Change.bytes)

/-- TW_STAT.STATE (R425). -/
def Dev.twState (d : Dev) : Nat := d.gf aTW_STAT 0 3

/-- ROLE is LEAD (R424). -/
def Dev.lead (d : Dev) : Bool := d.gf aTW_CFG 0 2 == 1

/-- Send a change as TW_STAGE packets: ARG0 holds the bytes still to follow, ARG1 the staging number. -/
def Dev.twSend (d : Dev) (num : Nat) (c : Change) : Dev :=
  let cs := chunks 4096 c.bytes
  ((cs.zip (List.range cs.length)).foldl (fun (s : Dev × Nat) x =>
    (s.1.originate 66 (mkPkt 0 1 0xE8 0 0 0 0 0 (s.2 - x.1.length) num x.1) [256], s.2 - x.1.length)) (d, c.bytes.length)).1

/-- The lead stages a change that it has accepted, and sends it (R429). -/
def Dev.mirror (d : Dev) (c : Change) : Dev :=
  if d.lead && (d.twState == 2 || d.twState == 3 || d.twState == 4) then
    let num := (d.rg aTW_OPEN).toNat
    ({ d with tw := { d.tw with staged := d.tw.staged ++ [c] } }.wr aTW_OPEN (d.rg aTW_OPEN + 1)).twSend num c
  else d

/-! ## Tables and fenced destinations (R95, R96, R136) -/

/-- Whether the destination-table bank of an epoch bit is live, and the address of its entry `e` (R113). -/
def Dev.dteAddr (d : Dev) (tep e : Nat) : Option Nat :=
  if tep = d.gf aRT_STAT 0 1 then some (aDT_ACTIVE e)
  else
    let pend := match d.fb.swap with
      | some s => s.table
      | none => false
    if d.gb aRT_STAT 17 || pend then some (aDT_SHADOW e) else none

/-- The ports of an entry's set, in order (R95). -/
def Dev.dtePorts (d : Dev) (a : Nat) : List Nat :=
  let n := d.gf a 4 3 + 1
  ((List.range 8).map (fun i => d.gf (a + 8 + 4 * (i / 4)) (8 * (i % 4)) 8)).take n

/-- Endpoint `e` is a fenced destination (R16, R136). DESIGN CHOICE (log 94): the entry asked about is that of the active bank, and counts
only while it is VALID. -/
def Dev.fenced (d : Dev) (e : Nat) : Bool :=
  d.gb (aFD_MAP (e / 32)) (e % 32) ||
  (List.range 256).any (fun p => d.kind p == 1 && d.epId p == e && (d.portState p == 7 || d.sorterLost p)) ||
  (let a := aDT_ACTIVE e
   d.gb a 0 && !d.gb a 1 && (d.dtePorts a).all (fun p => d.portState p == 7))

/-- An ENDPOINT port of this device with an id. -/
def Dev.portOfEp (d : Dev) (e : Nat) : Option Nat := (List.range 256).find? (fun p => d.kind p == 1 && d.epId p == e)

/-- A port's kind and ring allow a packet to leave by it (R96), link state apart. DESIGN CHOICE (log 94): 0xF, which names no ring, equals 0xF
where OUT_RING is held against IN_RING. -/
def Dev.kindAllows (d : Dev) (p : Pkt) (src : Option Nat) (isLocal : Bool) (port : Nat) : Bool :=
  let k := d.kind port
  (if isLocal then k == 1 else (k == 2 || k == 3 || k == 4)) &&
  !(k == 2 && p.down) &&
  (if k = 4 then
    match src with
    | some s => if d.kind s = 4 then d.gf (aPORT_KIND s) 8 4 == d.gf (aPORT_KIND port) 4 4 else true
    | none => true
   else true)

/-- The usable ports of a set for a packet (R96): those UP, or where none is UP those that retrain. -/
def Dev.usable (d : Dev) (p : Pkt) (src : Option Nat) (isLocal : Bool) (ports : List Nat) : List Nat :=
  let ok := ports.filter (d.kindAllows p src isLocal)
  let up := ok.filter (fun x => d.portState x == 6)
  if up.isEmpty then ok.filter (fun x => (d.port x).retraining) else up

/-- Which of the usable ports a packet takes (R97). -/
def Dev.pickPort (d : Dev) (p : Pkt) (spray : Bool) (ports : List Nat) : Nat :=
  match ports with
  | [] => 0
  | x :: xs =>
    if spray then xs.foldl (fun m y => if d.queuedBytes y p.tc < d.queuedBytes m p.tc then y else m) x
    else (x :: xs).getD (crc32c (toLE 2 p.src ++ toLE 2 p.dst ++ toLE 4 p.flow) % (xs.length + 1)) x

/-- Earlier packets of a FENCE packet's triple that are still here or unacknowledged (R102). -/
def Dev.fenceIds (d : Dev) (b : BPkt) : List Nat :=
  let same := fun (id : Nat) (src : Option Nat) (p : Pkt) =>
    decide (id < b.id) && src.isSome && p.src == b.pkt.src && p.dst == b.pkt.dst && p.mclass == b.pkt.mclass
  if !b.pkt.fence then [] else
  ((d.fb.pkts.filter (fun x => same x.id x.src x.pkt)).map (fun x => x.id) ++
    (d.fb.unacked.filter (fun u => same u.id u.src u.pkt)).map (fun u => u.id)).dedup

/-! ## Notices (R138 to R141) -/

/-- The FENCED_NAK notice of a packet (R138, R141). -/
def nakPkt (p : Pkt) : Pkt :=
  (mkPkt p.tc 2 0xF0 p.src 0 0 p.group p.tag p.dst 0 []).setH 64 18 p.flow

/-- The PRUNED notice of a packet for a member (R139, R141). -/
def prunedPkt (p : Pkt) (member : Nat) : Pkt :=
  (mkPkt p.tc 2 0xF1 p.src 0 0 p.group p.tag (member % 2 ^ 15 + p.group * 2 ^ 31) 0 []).setH 64 18 p.flow

/-- Discard a packet that is not in the buffer for want of a way (R98). -/
def Dev.noWay (d : Dev) : Dev := (d.count aCNT_NO_ROUTE).report 4 1 0 0

/-- Send a notice `n` to the SRC of the packet `p` that caused it, by the destination table and under R97, R98 and R138 as any packet;
for SRC 0 (a packet that some device's own unit sent) it leaves by the port by which the packet came (log 12). -/
def Dev.sendNotice (d : Dev) (p : Pkt) (src : Option Nat) (n : Pkt) : Dev :=
  if p.src = 0 then d.originate (noUnit p.group) n src.toList
  else if d.fenced p.src then d.count aCNT_FENCED_DROP
  else
    let a := aDT_ACTIVE p.src
    let ports := if d.gb a 0 then d.usable n none (d.gb a 1) (d.dtePorts a) else []
    if ports.isEmpty then d.noWay else d.originate (noUnit p.group) n [d.pickPort n (d.gb a 2) ports]

/-- A unicast packet for a fenced destination has been discarded: it is counted, and a Q packet draws a FENCED_NAK (R138). -/
def Dev.fencedNote (d : Dev) (p : Pkt) (src : Option Nat) : Dev :=
  let d := d.count aCNT_FENCED_DROP
  if p.mclass = 0 then d.sendNotice p src (nakPkt p) else d

/-- Discard a unicast packet whose destination is fenced (R138). -/
def Dev.fencedDrop (d : Dev) (id : Nat) : Dev :=
  match d.pkt? id with
  | none => d
  | some b => (d.dropPkt id).fencedNote b.pkt b.src

/-- Pass a (SRC, TAG, member) triple through the filter of the last 256 (R139): whether it is new. -/
def Dev.pruneNew (d : Dev) (src tag member : Nat) : Bool := !d.fb.pruneSeen.contains (src, tag, member)

/-- Enter a triple into the filter. -/
def Dev.pruneNote (d : Dev) (src tag member : Nat) : Dev :=
  { d with fb := { d.fb with pruneSeen := ((src, tag, member) :: d.fb.pruneSeen).take 256 } }

end Sys2Proof.Machine
end

