-- ==== Sys2Proof/Machine/Sorter.lean ====
section
/-! DEFINITION. The sorters (R88 to R93): each instruction once, used by the command of its own name and by the program that
SORTER_CLASSIFY runs. -/

namespace Sys2Proof.Machine

/-- Read s_i. -/
def SorterRun.r (x : SorterRun) (i : Nat) : W32 := x.s.getD (i % 8) 0

/-- The second operand: IMM zero-extended when I is set (R90). -/
def SorterRun.b (x : SorterRun) (f : SrFields) : W32 := if f.i then BitVec.ofNat 32 (f.imm % 65536) else x.r f.b

/-- Go on at a slot; execution ends after slot 255 (R88). -/
def SorterRun.goto (x : SorterRun) (slot : Nat) : SorterRun := { x with pc := slot, ended := x.ended || decide (256 ≤ slot) }

/-- Set s_D and go on at the next slot. -/
def SorterRun.put (x : SorterRun) (f : SrFields) (v : W32) : SorterRun := ({ x with s := lset (f.d % 8) v x.s }).goto (x.pc + 1)

/-- A jump (R91): illegal with I set, with an offset of zero, or past slot 256. -/
def SorterRun.jump (x : SorterRun) (f : SrFields) (taken : Bool) : Option SorterRun :=
  if f.i ∨ f.imm % 256 = 0 ∨ 256 < x.pc + f.imm % 256 then none
  else some (x.goto (if taken then x.pc + f.imm % 256 else x.pc + 1))

/-- The header or port field that LDH reads (R92); values 24 to 31 are illegal. -/
def ldhField (p : Pkt) (port kind k : Nat) : Option Nat :=
  match k with
  | 0 => some p.tc
  | 1 => some p.mclass
  | 2 => some p.fence.toNat
  | 3 => some p.ordered.toNat
  | 4 => some p.colour
  | 5 => some p.hops
  | 6 => some p.down.toNat
  | 7 => some p.opcode
  | 8 => some p.dst
  | 9 => some p.src
  | 10 => some p.flow
  | 11 => some p.format
  | 12 => some p.oseq
  | 13 => some p.group
  | 14 => some p.len
  | 15 => some p.tag
  | 16 => some (p.arg0 % 2 ^ 32)
  | 17 => some (p.arg0 / 2 ^ 32)
  | 18 => some p.arg1
  | 19 => some port
  | 20 => some kind
  | 21 => some (rdLE p.body 0 4)
  | 22 => some (rdLE p.body 4 4)
  | 23 => some p.hasE2e.toNat
  | _ => none

/-- The packet a sorter is at, with its port and the port's kind. -/
def Dev.sorted (d : Dev) (x : SorterRun) : Pkt × Nat × Nat :=
  match x.id.bind d.pkt? with
  | some b => (b.pkt, b.src.getD 0, d.kind (b.src.getD 0))
  | none => (⟨0, [], 0, none⟩, 0, 0)

/-- The CRC-32C of two words, little-endian (R91). -/
def hash2 (a b : W32) : W32 := BitVec.ofNat 32 (crc32c (toLE 4 a.toNat ++ toLE 4 b.toNat))

/-- Set the output that OUT names (R89, R91); the program cannot clear ORDERED. -/
def SorterRun.out (x : SorterRun) (k : Nat) (v : W32) : Option SorterRun :=
  match k with
  | 0 => some { x with tc := v.toNat % 8 }
  | 1 => some { x with flow := v.toNat % 2 ^ 18 }
  | 2 => some { x with pol := v.toNat % 2 ^ 16 }
  | 3 => some { x with dte := v.toNat % 2 ^ 15 }
  | 4 => some { x with ord := x.ord || v.toNat % 2 == 1 }
  | _ => none

/-- One instruction of a sorter of group `g` (R91): `none` where it is illegal. -/
def Dev.srOp (d : Dev) (g op : Nat) (f : SrFields) (x : SorterRun) : Option SorterRun :=
  let a := x.r f.a
  let b := x.b f
  match op with
  | 0x00 => some { x with ended := true }
  | 0x01 => some { x with ended := true, dropped := true }
  | 0x02 =>
    let p := d.sorted x
    (ldhField p.1 p.2.1 p.2.2 (f.imm % 32)).map (fun n => x.put f (BitVec.ofNat 32 n))
  | 0x03 => some (x.put f (BitVec.ofNat 32 (f.imm % 65536)))
  | 0x04 => some (x.put f (BitVec.ofNat 32 (f.imm % 65536 * 65536 + (x.r f.d).toNat % 65536)))
  | 0x05 => some (x.put f (a + b))
  | 0x06 => some (x.put f (a - b))
  | 0x07 => some (x.put f (a &&& b))
  | 0x08 => some (x.put f (a ||| b))
  | 0x09 => some (x.put f (a ^^^ b))
  | 0x0A => some (x.put f (a <<< (b.toNat % 32)))
  | 0x0B => some (x.put f (a >>> (b.toNat % 32)))
  | 0x0C => some (x.put f (hash2 a b))
  | 0x0D => some (x.put f (d.rg (aSP_ACTIVE g + 0x400 + 4 * (a.toNat % 256))))
  | 0x10 => x.jump f (a == b)
  | 0x11 => x.jump f (a != b)
  | 0x12 => x.jump f (decide (a.toNat < b.toNat))
  | 0x13 => x.jump f (decide (b.toNat ≤ a.toNat))
  | 0x14 => x.jump f true
  | 0x18 => (x.out (f.imm % 8) a).map (fun y => y.goto (x.pc + 1))
  | _ => none

/-- The fields of an instruction word (R90). -/
def srDecode (w : W32) : Nat × SrFields := (fld w 0 6, ⟨fld w 6 3, fld w 9 3, fld w 12 3, bitAt w 15, fld w 16 16⟩)

/-- Whether an instruction word is legal in a slot (R91, R92). -/
def srLegal (slot : Nat) (w : W32) : Bool :=
  let i := srDecode w
  let jump := !i.2.i && i.2.imm % 256 != 0 && decide (slot + i.2.imm % 256 ≤ 256)
  match i.1 with
  | 0x02 => decide (i.2.imm % 32 < 24)
  | 0x10 => jump
  | 0x11 => jump
  | 0x12 => jump
  | 0x13 => jump
  | 0x14 => jump
  | 0x18 => decide (i.2.imm % 8 ≤ 4)
  | n => decide (n ≤ 0x0D)

/-- Every program word of the shadow bank is legal (R93): words not listed are zero, which is END. -/
def Dev.programsLegal (d : Dev) : Bool :=
  d.regs.all (fun e => !(decide (aSP_SHADOW 0 ≤ e.1) && decide (e.1 < aSP_SHADOW 64)) || decide (0x400 ≤ (e.1 - aSP_SHADOW 0) % 0x800)
    || srLegal ((e.1 - aSP_SHADOW 0) % 0x800 / 4) e.2)

/-- A sorter at the start of a packet (R89). -/
def SorterRun.start (b : BPkt) : SorterRun :=
  { s := List.replicate 8 0, pc := 0, tc := b.pkt.tc, flow := b.pkt.flow, pol := 0xFFFF, dte := b.pkt.dst, ord := b.pkt.ordered,
    ended := false, dropped := false, id := some b.id }

/-- One packet comes to the policers before another (R153): it arrived earlier, or in the same cycle on a lower port. -/
def meteredBefore (a b : BPkt) : Bool :=
  let z := (a.time - b.time).toInt
  decide (z < 0) || (z == 0 && decide (a.src.getD 0 < b.src.getD 0))

/-- The first packet that waits for the sorter of a lane group: none while one of the same cycle still waits at a lower port (R153). -/
def Dev.firstWaiting (d : Dev) (g : Nat) : Option BPkt :=
  let waits := d.fb.pkts.filter (fun b => b.place == .waiting)
  let first := (waits.filter (fun b => b.src.any (fun p => p / 4 == g))).foldl (fun (acc : Option BPkt) b => match acc with
    | none => some b
    | some a => if meteredBefore b a then some b else some a) none
  first.filter (fun b => !waits.any (fun a => a.time == b.time && meteredBefore a b))

/-- Set a sorter's registers. -/
def Dev.setSorter (d : Dev) (g : Nat) (x : SorterRun) : Dev :=
  { d with fb := { d.fb with sorters := mput SorterRun.init g x d.fb.sorters } }

/-- A sorter's registers. -/
def Dev.sorter (d : Dev) (g : Nat) : SorterRun := mget SorterRun.init g d.fb.sorters

/-- The sorter as an instruction finds it: one that has ended starts afresh on the first packet that waits. -/
def Dev.sorterAt (d : Dev) (g : Nat) : SorterRun :=
  let x := d.sorter g
  if x.ended then
    match d.firstWaiting g with
    | some b => .start b
    | none => { SorterRun.init with ended := false }
  else x

/-- One instruction as a command of its own: an illegal one acts as DROP and sets RT_STAT.PROG_BAD (R93); DROP is counted. -/
def Dev.srCommand (d : Dev) (g op : Nat) (f : SrFields) : Dev :=
  if !(d.live && decide (g < 64)) then d else
  let x := d.sorterAt g
  match d.srOp g op f x with
  | some y =>
    let d := d.setSorter g y
    if op = 1 then d.count aCNT_SORT_DROP else d
  | none => ((d.setSorter g { x with ended := true, dropped := true }).count aCNT_SORT_DROP).sb aRT_STAT 19 true

/-- Run a program from where a sorter stands, at most `fuel` instructions: the registers, and whether it came to an illegal one. -/
def Dev.srRun (d : Dev) (g : Nat) : Nat → SorterRun → SorterRun × Bool
  | 0, x => ({ x with ended := true }, false)
  | n + 1, x =>
    if x.ended then (x, false) else
    let i := srDecode (d.rg (aSP_ACTIVE g + 4 * x.pc))
    match d.srOp g i.1 i.2 x with
    | some y => d.srRun g n y
    | none => ({ x with ended := true, dropped := true }, true)

/-- SORTER_END (R91). -/
def execSrEnd (g : Nat) (f : SrFields) (s : State) : Host.Outcome State Fault Refusal :=
  devStep (fun d => d.srCommand g 0x00 f) s

/-- SORTER_DROP (R91). -/
def execSrDrop (g : Nat) (f : SrFields) (s : State) : Host.Outcome State Fault Refusal :=
  devStep (fun d => d.srCommand g 0x01 f) s

/-- SORTER_LDH (R91). -/
def execSrLdh (g : Nat) (f : SrFields) (s : State) : Host.Outcome State Fault Refusal :=
  devStep (fun d => d.srCommand g 0x02 f) s

/-- SORTER_LDI (R91). -/
def execSrLdi (g : Nat) (f : SrFields) (s : State) : Host.Outcome State Fault Refusal :=
  devStep (fun d => d.srCommand g 0x03 f) s

/-- SORTER_LUI (R91). -/
def execSrLui (g : Nat) (f : SrFields) (s : State) : Host.Outcome State Fault Refusal :=
  devStep (fun d => d.srCommand g 0x04 f) s

/-- SORTER_ADD (R91). -/
def execSrAdd (g : Nat) (f : SrFields) (s : State) : Host.Outcome State Fault Refusal :=
  devStep (fun d => d.srCommand g 0x05 f) s

/-- SORTER_SUB (R91). -/
def execSrSub (g : Nat) (f : SrFields) (s : State) : Host.Outcome State Fault Refusal :=
  devStep (fun d => d.srCommand g 0x06 f) s

/-- SORTER_AND (R91). -/
def execSrAnd (g : Nat) (f : SrFields) (s : State) : Host.Outcome State Fault Refusal :=
  devStep (fun d => d.srCommand g 0x07 f) s

/-- SORTER_OR (R91). -/
def execSrOr (g : Nat) (f : SrFields) (s : State) : Host.Outcome State Fault Refusal :=
  devStep (fun d => d.srCommand g 0x08 f) s

/-- SORTER_XOR (R91). -/
def execSrXor (g : Nat) (f : SrFields) (s : State) : Host.Outcome State Fault Refusal :=
  devStep (fun d => d.srCommand g 0x09 f) s

/-- SORTER_SHL (R91). -/
def execSrShl (g : Nat) (f : SrFields) (s : State) : Host.Outcome State Fault Refusal :=
  devStep (fun d => d.srCommand g 0x0A f) s

/-- SORTER_SHR (R91). -/
def execSrShr (g : Nat) (f : SrFields) (s : State) : Host.Outcome State Fault Refusal :=
  devStep (fun d => d.srCommand g 0x0B f) s

/-- SORTER_HASH (R91). -/
def execSrHash (g : Nat) (f : SrFields) (s : State) : Host.Outcome State Fault Refusal :=
  devStep (fun d => d.srCommand g 0x0C f) s

/-- SORTER_LUT (R91). -/
def execSrLut (g : Nat) (f : SrFields) (s : State) : Host.Outcome State Fault Refusal :=
  devStep (fun d => d.srCommand g 0x0D f) s

/-- SORTER_JEQ (R91). -/
def execSrJeq (g : Nat) (f : SrFields) (s : State) : Host.Outcome State Fault Refusal :=
  devStep (fun d => d.srCommand g 0x10 f) s

/-- SORTER_JNE (R91). -/
def execSrJne (g : Nat) (f : SrFields) (s : State) : Host.Outcome State Fault Refusal :=
  devStep (fun d => d.srCommand g 0x11 f) s

/-- SORTER_JLT (R91). -/
def execSrJlt (g : Nat) (f : SrFields) (s : State) : Host.Outcome State Fault Refusal :=
  devStep (fun d => d.srCommand g 0x12 f) s

/-- SORTER_JGE (R91). -/
def execSrJge (g : Nat) (f : SrFields) (s : State) : Host.Outcome State Fault Refusal :=
  devStep (fun d => d.srCommand g 0x13 f) s

/-- SORTER_JMP (R91). -/
def execSrJmp (g : Nat) (f : SrFields) (s : State) : Host.Outcome State Fault Refusal :=
  devStep (fun d => d.srCommand g 0x14 f) s

/-- SORTER_OUT (R91). -/
def execSrOut (g : Nat) (f : SrFields) (s : State) : Host.Outcome State Fault Refusal :=
  devStep (fun d => d.srCommand g 0x18 f) s

end Sys2Proof.Machine
end

