-- ==== Sys2Proof/Machine/Tree.lean ====
section
/-! DEFINITION. Group records as the device reads them (R247 to R250), the branches of a group's tree at this device (R99, R262), and what a
fence or a DOWN port does to copies: pruning and its notices (R137 to R140). -/

namespace Sys2Proof.Machine

/-! ## Reading the tables (R247 to R250) -/

/-- A group record as the device reads it (R248): `slot` is its record number. -/
structure Grp where
  num : Nat
  slot : Nat
  nnbr : Nat
  home : Nat
  nmemb : Nat
  nlocal : Nat
  tc : Nat
  ring : Nat
  tmo : Nat
  mbase : Nat
  nbase : Nat
  last : W32
  active : Nat
  deriving DecidableEq, Repr

/-- The record number of a group. -/
def Dev.gix (d : Dev) (g : Nat) : Option Nat := if g ≠ 0 ∧ g < 65536 ∧ d.gb (aGIX g) 15 then some (d.gf (aGIX g) 0 12) else none

/-- The record at a record number. -/
def Dev.grpAt (d : Dev) (r : Nat) : Grp :=
  let a := aGR r
  { num := d.gf a 0 16, slot := r, nnbr := d.gf a 16 5, home := d.gf a 24 5, nmemb := d.gf (a + 4) 0 16, nlocal := d.gf (a + 4) 16 16,
    tc := d.gf (a + 8) 0 3, ring := d.gf (a + 12) 0 13, tmo := d.gf (a + 12) 16 16, mbase := d.gf (a + 16) 0 18,
    nbase := d.gf (a + 20) 0 14, last := d.rg (a + 24), active := d.gf (a + 28) 0 16 }

/-- A group's record. -/
def Dev.grp? (d : Dev) (g : Nat) : Option Grp := (d.gix g).map d.grpAt

/-- This device is the group's home. -/
def Grp.isHome (x : Grp) : Bool := x.home == 0x1F

/-- ORDER_TMO in ticks (R248). -/
def Grp.tmoTicks (x : Grp) : Nat := orOne x.tmo * 4096

/-- EP_ID, LOCAL and VIA of a rank. -/
def Dev.memEp (d : Dev) (x : Grp) (rank : Nat) : Nat := d.gf (aMB (x.mbase + rank)) 0 15
def Dev.memLocal (d : Dev) (x : Grp) (rank : Nat) : Bool := d.gb (aMB (x.mbase + rank)) 15
def Dev.memVia (d : Dev) (x : Grp) (rank : Nat) : Nat := d.gf (aMB (x.mbase + rank)) 16 8

/-- The ranks attached to this device, ascending. -/
def Dev.localRanks (d : Dev) (x : Grp) : List Nat := (List.range x.nmemb).filter (d.memLocal x)

/-- The ranks behind a neighbour. -/
def Dev.ranksVia (d : Dev) (x : Grp) (n : Nat) : List Nat := (List.range x.nmemb).filter (fun r => !d.memLocal x r && d.memVia x r == n)

/-- The rank of an endpoint. -/
def Dev.rankOf (d : Dev) (x : Grp) (ep : Nat) : Option Nat := (List.range x.nmemb).find? (fun r => d.memEp x r == ep)

/-- The local rank behind a port. -/
def Dev.rankAt (d : Dev) (x : Grp) (port : Nat) : Option Nat :=
  (List.range x.nmemb).find? (fun r => d.memLocal x r && d.memVia x r == port)

/-- Ports of a neighbour entry (R249). -/
def Dev.nbPorts (d : Dev) (x : Grp) (n : Nat) : List Nat :=
  let a := aNB (x.nbase + n)
  ((List.range 8).map (fun i => d.gf (a + 8 + 4 * (i / 4)) (8 * (i % 4)) 8)).take (d.gf a 4 3 + 1)

/-- SPRAY and MINRANK of a neighbour entry. -/
def Dev.nbSpray (d : Dev) (x : Grp) (n : Nat) : Bool := d.gb (aNB (x.nbase + n)) 2
def Dev.nbMinRank (d : Dev) (x : Grp) (n : Nat) : Nat := d.gf (aNB (x.nbase + n)) 16 15

/-- The neighbour a port leads to. -/
def Dev.nbOfPort (d : Dev) (x : Grp) (p : Nat) : Option Nat := (List.range x.nnbr).find? (fun n => (d.nbPorts x n).contains p)

/-- The neighbours other than HOME. -/
def Grp.children (x : Grp) : List Nat := (List.range x.nnbr).filter (fun n => n != x.home)

/-- Every port of a neighbour entry is DOWN (R271). -/
def Dev.nbDown (d : Dev) (x : Grp) (n : Nat) : Bool := (d.nbPorts x n).all (fun p => d.portState p == 7)

/-! ## Branches (R99, R139, R262) -/

/-- What becomes of a copy of a group packet on one branch. -/
inductive Branch where
  /-- It leaves by this port. -/
  | port (p : Nat)
  /-- It is pruned, and these ranks lie behind it. -/
  | prune (ranks : List Nat)
  /-- No port of the branch is usable (R98). -/
  | noRoute
  /-- It would pass the hop limit (R98). -/
  | hopLimit
  deriving DecidableEq, Repr

/-- The branch to a neighbour: pruned when its ports are DOWN or every member behind it is fenced. DESIGN CHOICE (log 94): with no usable port and
HOPS 15 as well it counts as having no port. -/
def Dev.toNb (d : Dev) (x : Grp) (p : Pkt) (src : Option Nat) (n : Nat) : Branch :=
  let behind := d.ranksVia x n
  let ports := d.usable p src false (d.nbPorts x n)
  if d.nbDown x n || (!behind.isEmpty && behind.all (fun r => d.fenced (d.memEp x r))) then .prune behind
  else if ports.isEmpty then .noRoute
  else if p.hops = 15 then .hopLimit
  else .port (d.pickPort p (d.nbSpray x n) ports)

/-- The branch to a local member. -/
def Dev.toMember (d : Dev) (x : Grp) (p : Pkt) (src : Option Nat) (rank : Nat) : Branch :=
  let port := d.memVia x rank
  if d.fenced (d.memEp x rank) then .prune [rank]
  else if (d.usable p src true [port]).isEmpty then .noRoute else .port port

/-- The branch on the way to a rank. -/
def Dev.towardRank (d : Dev) (x : Grp) (p : Pkt) (src : Option Nat) (rank : Nat) : Branch :=
  if d.memLocal x rank then d.toMember x p src rank else d.toNb x p src (d.memVia x rank)

/-- The ports of branches. -/
def branchPorts (bs : List Branch) : List Nat := bs.filterMap (fun b => match b with
  | .port p => some p
  | _ => none)

/-- The ranks behind pruned branches. -/
def prunedRanks (bs : List Branch) : List Nat := bs.flatMap (fun b => match b with
  | .prune rs => rs
  | _ => [])

/-- Count the branches on which no copy leaves (R98, R139). -/
def Dev.countBranches (d : Dev) (bs : List Branch) : Dev :=
  bs.foldl (fun d b => match b with
    | .port _ => d
    | .prune _ => d.count aCNT_PRUNED
    | .noRoute => d.noWay
    | .hopLimit => (d.count aCNT_HOP_LIMIT).report 4 2 0 0) d

/-- PRUNED notices of a packet for members behind a pruned branch, to its SRC (R139); a class-C packet draws none (R140). -/
def Dev.pruneNotices (d : Dev) (x : Grp) (p : Pkt) (src : Option Nat) (ranks : List Nat) : Dev :=
  if p.mclass ≠ 1 then d else
  ranks.foldl (fun d r =>
    let m := d.memEp x r
    if d.pruneNew p.src p.tag m then
      (d.pruneNote p.src p.tag m).sendNotice p src (prunedPkt p m)
    else d) d

/-- Endpoints to which a copy of an own packet was pruned here reach the operation or send that it belongs to (R140). -/
def Dev.noteOwn (d : Dev) (p : Pkt) (eps : List Nat) : Dev :=
  match eps with
  | [] => d
  | e :: es =>
    let low := es.foldl min e
    let put := fun (a : Option Nat) => some (min low (a.getD low))
    if p.opcode = 0xE6 then
      { d with me := { d.me with sends := d.me.sends.map (fun w =>
          if p.own = some w.id then { w with fencedEp := put w.fencedEp } else w) } }
    else
      { d with cl := { d.cl with ops := d.cl.ops.map (fun o =>
          if o.group = p.group ∧ o.opseq = p.arg1 then { o with fencedEp := put o.fencedEp } else o) } }

/-- A packet of an operation or send is replayed on a link (R72). -/
def Dev.noteRetried (d : Dev) (p : Pkt) : Dev :=
  if p.opcode = 0xE6 then
    { d with me := { d.me with sends := d.me.sends.map (fun w =>
        if p.own = some w.id then { w with flags := w.flags ||| 128 } else w) } }
  else if p.opcode = 0xE0 ∨ p.opcode = 0xE1 ∨ p.opcode = 0xE3 ∨ p.opcode = 0xE4 ∨ p.opcode = 0xE5 then
    { d with cl := { d.cl with ops := d.cl.ops.map (fun o =>
        if o.group = p.group ∧ o.opseq = p.arg1 then { o with flags := o.flags ||| 128 } else o) } }
  else d

/-- Originate a packet of a unit on branches, and count the branches that carry none. -/
def Dev.sendBranches (d : Dev) (u : Nat) (p : Pkt) (bs : List Branch) : Dev :=
  let d := d.countBranches bs
  let d := match (if p.mclass = 1 then d.grp? p.group else none) with
    | some x => d.noteOwn p ((prunedRanks bs).map (d.memEp x))
    | none => d
  d.originate u p (branchPorts bs)

/-- A transit copy of multicast data goes to every local member but its sender and to every neighbour but the one it came from
(R262). -/
def Dev.multicastBranches (d : Dev) (x : Grp) (p : Pkt) (src : Option Nat) : List Branch :=
  let fromNb := src.bind (d.nbOfPort x)
  let fromRank := src.bind (d.rankAt x)
  ((d.localRanks x).filter (fun r => fromRank != some r)).map (d.toMember x p src) ++
    ((List.range x.nnbr).filter (fun n => fromNb != some n)).map (d.toNb x p src)

/-! ## Which way a packet goes (R99) -/

/-- Whether a packet is consumed by this device: reduction and control packets, group data, and notices to SRC 0 (log 12). -/
def consumedHere (p : Pkt) : Bool :=
  (p.mclass == 3 && (p.opcode == 0xE0 || p.opcode == 0xE1 || p.opcode == 0xE4 || p.opcode == 0xE5)) ||
  (p.mclass == 1 && p.opcode == 0xE3) ||
  (p.mclass == 2 && p.dst == 0 && (p.opcode == 0xE2 || p.opcode == 0xF0 || p.opcode == 0xF1))

/-- A packet that is routed by its group record, and not by the destination table (R99). -/
def byGroup (p : Pkt) : Bool := p.mclass == 3 || (p.mclass == 1 && p.group != 0)

/-- A packet that the destination table routes. -/
def byTable (p : Pkt) : Bool := !byGroup p && !consumedHere p

/-! ## Copies cut off (R137 to R140) -/

/-- The members behind a port of a group. -/
def Dev.behindPort (d : Dev) (x : Grp) (p : Nat) : List Nat :=
  match d.rankAt x p with
  | some r => [r]
  | none => ((d.nbOfPort x p).map (d.ranksVia x)).getD []

/-- The members behind a port of a group when its branch is cut off: a fenced member, or a neighbour that is DOWN or all of whose members
are fenced (R139). -/
def Dev.cutRanks (d : Dev) (x : Grp) (p : Nat) : List Nat :=
  let rs := d.behindPort x p
  if (d.nbOfPort x p).any (d.nbDown x) || rs.all (fun r => d.fenced (d.memEp x r)) then rs else []

/-- Members that a pruned copy does not reach: the operation or send of an own packet hears of them, a packet of another draws notices; a
class-C packet does neither (R139, R140). -/
def Dev.pruneTell (d : Dev) (x : Grp) (p : Pkt) (src : Option Nat) (ranks : List Nat) : Dev :=
  if p.mclass = 1 ∧ src.isNone then d.noteOwn p (ranks.map (d.memEp x)) else d.pruneNotices x p src ranks

/-- What a copy that a port in state DOWN cuts off leaves behind (R137 to R140): a group packet is pruned for the members behind the port, a
packet for a fenced endpoint is discarded, any other goes as though sent. -/
def Dev.cutNote (d : Dev) (port : Nat) (p : Pkt) (src : Option Nat) : Dev :=
  if byGroup p then
    let d := d.count aCNT_PRUNED
    match d.grp? p.group with
    | none => d
    | some x => d.pruneTell x p src (d.behindPort x port)
  else if byTable p && d.fenced p.dst then d.fencedNote p src
  else d

/-- A queued copy at a port that is DOWN (R137). -/
def Dev.downCopy (d : Dev) (port : Nat) (b : BPkt) : Dev := (d.dropCopy b.id port).cutNote port b.pkt b.src

/-- A copy queued at a port in service goes where its destination has been fenced since (R138 to R140). -/
def Dev.sweepCopy (d : Dev) (port : Nat) (b : BPkt) : Dev :=
  if byGroup b.pkt then
    match d.grp? b.pkt.group with
    | none => d
    | some x =>
      let rs := d.cutRanks x port
      if rs.isEmpty then d else ((d.dropCopy b.id port).count aCNT_PRUNED).pruneTell x b.pkt b.src rs
  else if byTable b.pkt && d.fenced b.pkt.dst then (d.dropCopy b.id port).fencedNote b.pkt b.src
  else d

/-- A queued copy that a DOWN port or a fence cuts off goes. -/
def Dev.cutCopy (d : Dev) (port : Nat) (b : BPkt) : Dev :=
  if d.portState port = 7 then d.downCopy port b else d.sweepCopy port b

/-- The copies of a packet that a DOWN port or a fence cuts off go. -/
def Dev.cutPkt (d : Dev) (id : Nat) : Dev :=
  match d.pkt? id with
  | none => d
  | some b => b.copies.foldl (fun d c => d.cutCopy c.port b) d

/-- Every queued copy that a fence cuts off goes (R138, R139). -/
def Dev.sweepQueued (d : Dev) : Dev :=
  d.fb.pkts.foldl (fun d b => b.copies.foldl (fun d c => d.sweepCopy c.port b) d) d

/-- Queue a packet of the buffer at its ports (R122), but for what a DOWN port or a fence has cut off since they were chosen (R138, R139). -/
def Dev.deliver (d : Dev) (id : Nat) (ports : List Nat) : Dev :=
  match d.pkt? id with
  | none => d
  | some b => if byTable b.pkt && d.fenced b.pkt.dst then d.fencedDrop id else (d.queueAt id ports (d.fenceIds b)).cutPkt id

/-- UNIT_CELL_TAKE (R130): the first packet that a unit waits with takes its cells once they suffice; where the next one then lacks cells, the
unit waits anew. What a DOWN port or a fence has cut off meanwhile goes (R137 to R140). -/
def Dev.unitTake (d : Dev) (u : Nat) (p : Pkt) (ports : List Nat) : Dev :=
  let d := (d.unitQueue u p ports).cutPkt d.fb.nextId
  match d.fb.unitWait.find? (fun x => x.1 == u) with
  | some x => if d.unitRoom u x.2.1.cellCount then d else d.count aCNT_QUOTA_WAIT
  | none => d

/-- UNIT_CELL_TAKE (R130). -/
def execUnitCellTake (u : Nat) (s : State) : Host.Outcome State Fault Refusal :=
  devStep (fun d => d.when d.live (fun d =>
    match takeFirst (fun (x : Nat × Pkt × List Nat) => x.1 == u) d.fb.unitWait with
    | none => d
    | some (x, rest) =>
      if d.unitRoom u x.2.1.cellCount then { d with fb := { d.fb with unitWait := rest } }.unitTake u x.2.1 x.2.2 else d)) s

end Sys2Proof.Machine
end

