-- ==== Sys2Proof/Machine/Path.lean ====
section
/-! DEFINITION. The way of a packet through the device (chapters 4 to 6): arrival, policing, routing by the destination table or the group
record, flow contexts and resequencing, queue service, and the change of tables. -/

namespace Sys2Proof.Machine

/-! ## Arrival (R87, R128, R131) -/

/-- Discard a packet at arrival under R87: it holds no cell, and its credits go back at once. -/
def Dev.badHeader (d : Dev) (p : Nat) (x : Pkt) : Dev := ((d.count aCNT_BAD_HDR).report 4 0 0 0).oweCredits p x.mclass x.cellCount

/-- The header as R87 fixes it up for the kind of its port. -/
def fixHeader (kind : Nat) (x : Pkt) : Pkt :=
  if kind = 1 then ((x.setH 18 4 0).setH 22 1 0).setH 23 1 0 else if kind = 2 then x.setH 22 1 1 else x

/-- A packet of the twin link waits for cells of the twin link's quota; the wait is counted once (R130). -/
def Dev.twinWait (d : Dev) (p : Nat) : Dev :=
  if (d.port p).waits then d else (d.modPort p (fun q => { q with waits := true })).count aCNT_QUOTA_WAIT

/-- PACKET_ARRIVE (R87): the first whole packet that the link layer of a port hands over. Packets of the twin link bypass all this;
their cells are charged to the twin link's quota (R130, R428). -/
def Dev.arrive (d : Dev) (p : Nat) : Dev :=
  match (d.port p).rxWhole with
  | [] => d
  | x :: rest =>
    let pk := x.pkt
    let n := pk.cellCount
    let taken := d.modPort p (fun q => { q with rxWhole := rest, waits := false })
    if p = 256 then
      if d.unitRoom 66 n then taken.addPkt pk (some 256) x.hdrTime x.replayed (.unit 66) .inbox else d.twinWait p
    else if d.follower then (taken.count aCNT_TW_DISCARD).oweCredits p pk.mclass n
    else
      let k := d.kind p
      if k = 0 ∨ 4096 < pk.len ∨ (k = 1 ∧ pk.src ≠ d.epId p) then taken.badHeader p pk
      else if d.reserve (8 * p + pk.mclass) < d.usedBy (8 * p + pk.mclass) + n then d
      else
        let id := d.fb.nextId
        (taken.addPkt (fixHeader k pk) (some p) x.hdrTime x.replayed (.part p pk.mclass) .waiting).reHome id

/-- PACKET_ARRIVE (R87). -/
def execPacketArrive (p : Nat) (s : State) : Host.Outcome State Fault Refusal := devStep (fun d => d.when d.live (fun d => d.arrive p)) s

/-! ## Policers (R150 to R154) -/

/-- A policer's entry in force. -/
def Dev.policer (d : Dev) (i : Nat) : Policer := mget Policer.init i d.fb.policers

/-- The two-rate three-colour meter (R151): the entry after it and the colour (0 green, 1 yellow, 2 red). -/
def Policer.meter (x : Policer) (now : W64) (b colour : Nat) : Policer × Nat :=
  let dt := (max 0 ((now - x.last).toInt)).toNat
  let tc := min (x.tc + x.cir * dt) (x.cbs * 65536)
  let tp := min (x.tp + x.pir * dt) (x.pbs * 65536)
  let x := { x with last := now }
  let c := if x.aware then colour else 0
  let b := b * 65536
  if 2 ≤ c ∨ tp < b then ({ x with tc := tc, tp := tp }, 2)
  else if c = 1 ∨ tc < b then ({ x with tc := tc, tp := tp - b }, 1)
  else ({ x with tc := tc - b, tp := tp - b }, 0)

/-- Meter a classified packet and discard it where R150 or R152 says so: the device, and whether the packet goes on. -/
def Dev.police (d : Dev) (b : BPkt) (pol : Nat) : Dev × Bool :=
  if b.pkt.mclass = 3 ∨ pol = 0xFFFF then (d, true)
  else if 16384 ≤ pol then (((d.dropPkt b.id).count aCNT_POL_BADIDX).report 4 5 0 0, false)
  else
    let x := d.policer pol
    if !x.en then (d, true) else
    let r := x.meter d.now b.pkt.size b.pkt.colour
    let d := { d with fb := { d.fb with policers := mput Policer.init pol r.1 d.fb.policers } }
    let d := d.modPkt b.id (fun b => { b with pkt := b.pkt.setH 16 2 r.2 })
    if r.2 = 2 ∧ x.redDrop ∧ b.pkt.mclass ≠ 2 then ((d.dropPkt b.id).count aCNT_POL_RED_DROP, false) else (d, true)

/-- The CTRL word of a policer commits the entry (R154). -/
def polCommitEffect (i : Nat) (v : W32) (d : Dev) : Dev :=
  let a := aPOL i
  let cir := (d.rg a).toNat
  let pir := (d.rg (a + 4)).toNat
  let cbs := d.gf (a + 8) 0 24
  let pbs := fld v 0 24
  if pir < cir ∨ cbs = 0xFFFFFF ∨ pbs = 0xFFFFFF ∨ fld v 27 5 ≠ 0 then d.sb aSV_STAT 0 true else
  let d := d.wr (a + 0xC) v
  let x : Policer := ⟨cir, pir, cbs, pbs, bitAt v 24, bitAt v 25, bitAt v 26, cbs * 65536, pbs * 65536, d.now⟩
  { d with fb := { d.fb with policers := mput Policer.init i x d.fb.policers } }.mirror (.reg (a + 0xC) v)

/-- POLICER_COMMIT (R154). -/
def execPolicerCommit (i : Nat) (v : W32) (s : State) : Host.Outcome State Fault Refusal :=
  devStep (fun d => d.when (decide (i < 16384)) (fun d => d.barWrite (aPOL i + 0xC) v (polCommitEffect i))) s

/-- POL_LAST_LO_READ (R493). -/
def execPolLastLoRead (i : Nat) (s : State) : Host.Outcome State Fault Refusal :=
  devStep (fun d => d.when (d.perst && decide (i < 16384)) (fun d =>
    let n := (d.policer i).last.toNat
    let d := d.emit (.readValue (aPOL i + 0x18) (BitVec.ofNat 32 n))
    if d.stopped then d else { d with fb := { d.fb with polHi := mput 0 i (BitVec.ofNat 32 (n / 2 ^ 32)) d.fb.polHi } })) s

/-! ## Flow contexts (R142 to R147) -/

/-- A flow's context. -/
def Dev.flowCtx (d : Dev) (f : Nat) : FlowCtx := mget FlowCtx.init f d.fb.flows

/-- Set a flow's context. -/
def Dev.setFlow (d : Dev) (f : Nat) (x : FlowCtx) : Dev := { d with fb := { d.fb with flows := mput FlowCtx.init f x d.fb.flows } }

/-- Bring a context into the cache (R145): its set holds 8 ways, and the least recently used unpinned one gives way. -/
def Dev.cacheTouch (d : Dev) (f : Nat) : Dev :=
  let rest := d.fb.cached.filter (fun x => x != f)
  let inSet := rest.filter (fun x => x % 2048 == f % 2048)
  let out := if 8 ≤ inSet.length then inSet.reverse.find? (fun x => !(d.flowCtx x).pin) else none
  { d with fb := { d.fb with cached := f :: rest.filter (fun x => some x != out) } }

/-- Packets of a flow that a resequencer holds. -/
def Dev.heldOf (d : Dev) (f : Nat) : List BPkt :=
  d.fb.pkts.filter (fun b => b.pkt.flow == f && (match b.place with
    | .reseq _ => true
    | _ => false))

/-- Deliver the held packets of a flow that now follow in order (R104); `fuel` bounds them. -/
def Dev.deliverHeld (d : Dev) (f : Nat) : Nat → Dev
  | 0 => d
  | n + 1 =>
    let x := d.flowCtx f
    match (d.heldOf f).find? (fun b => b.pkt.oseq == x.recvExp) with
    | some b => ((d.deliver b.id b.outs).setFlow f { x with recvExp := (x.recvExp + 1) % 65536 }).deliverHeld f n
    | none => d

/-- A gap of a flow (R104): the expected number becomes the lowest of those held (and of `extra`), the packets that then follow are delivered,
and the gap is counted and reported. -/
def Dev.gap (d : Dev) (f : Nat) (extra : List Nat) : Dev :=
  let x := d.flowCtx f
  let ahead := fun (o : Nat) => (o + 65536 - x.recvExp) % 65536
  match (d.heldOf f).map (fun b => b.pkt.oseq) ++ extra with
  | [] => d
  | o :: os =>
    let low := os.foldl (fun m y => if ahead y < ahead m then y else m) o
    (((d.setFlow f { x with recvExp := low }).deliverHeld f d.fb.pkts.length).count aCNT_RSQ_GAP).report 5 0 0 0

/-- A packet's cells move to the resequencing quota of its egress port, with any credits still owed returned (R134). -/
def Dev.toQuota (d : Dev) (b : BPkt) (port : Nat) : Dev :=
  let n := b.cells.length
  let d := ((d.dischargeCells b.charge n).oweFor b.charge n).chargeCells (.rsq port) n
  d.modPkt b.id (fun b => { b with charge := .rsq port, place := .reseq port })

/-- The ports of a packet that lead to endpoints of this device. -/
def Dev.localOuts (d : Dev) (ports : List Nat) : List Nat := ports.filter (fun p => d.kind p == 1)

/-- The resequencer acts on a packet of an ordered flow (R104); `fuel` bounds the gaps that a full quota brings about. DESIGN CHOICE (log 95): a
multicast packet is held whole, in the quota of its first local port, and where it is late only its copies for other devices go on. -/
def Dev.resequence (d : Dev) (id : Nat) : Nat → Dev
  | 0 => d
  | n + 1 =>
    match d.pkt? id with
    | none => d
    | some b =>
      let f := b.pkt.flow
      let x := d.flowCtx f
      let port := (d.localOuts b.outs).headD 0
      let delta := (b.pkt.oseq + 65536 - x.recvExp) % 65536
      if delta = 0 then
        ((d.deliver id b.outs).setFlow f { x with recvExp := (x.recvExp + 1) % 65536 }).deliverHeld f d.fb.pkts.length
      else if 32768 ≤ delta then (d.deliver id (b.outs.filter (fun p => d.kind p != 1))).count aCNT_RSQ_LATE
      else if d.usedBy (8 * port + 4) + b.cells.length ≤ d.reserve (8 * port + 4) then d.toQuota b port
      else (d.gap f [b.pkt.oseq]).resequence id n

/-- RSQ_GAP_TIMEOUT (R104): the oldest held packet of the flow has waited RSQ_GAP. -/
def execRsqGapTimeout (flow : Nat) (s : State) : Host.Outcome State Fault Refusal :=
  devStep (fun d =>
    let wait := Int.ofNat (orOne (d.gf aRT_CFG 16 8) * 4096)
    d.when (d.live && (d.heldOf flow).any (fun b => decide (wait ≤ d.since b.time))) (fun d => d.gap flow [])) s

/-- Count a packet in its flow's context (R142). -/
def Dev.countFlow (d : Dev) (p : Pkt) : Dev :=
  let x := d.flowCtx p.flow
  d.setFlow p.flow { x with pkts := (x.pkts + 1) % 2 ^ 64, bytes := (x.bytes + p.size) % 2 ^ 64, last := d.now }

/-- At its first device an ORDERED packet takes OSEQ from the send counter (R103). -/
def Dev.takeOseq (d : Dev) (b : BPkt) : Dev :=
  let x := d.flowCtx b.pkt.flow
  (d.modPkt b.id (fun b => { b with pkt := b.pkt.setH 96 16 x.sendSeq })).setFlow b.pkt.flow { x with sendSeq := (x.sendSeq + 1) % 65536 }

/-- This device is a packet's first: it came on an ENDPOINT port (DEDUCED, log 95: a packet of the device's own is not forwarded, R142). -/
def Dev.firstHere (d : Dev) (b : BPkt) : Bool := b.src.any (fun p => d.kind p == 1)

/-- A packet that this device is the first of, or delivers, consults the context of its flow (R143 to R145): one that is not VALID discards an
ORDERED packet, one that is not cached makes it wait, any other counts it, and gives OSEQ at the first device. `go` is what follows. -/
def Dev.consult (d : Dev) (b : BPkt) (delivers : Bool) (go : Dev → Dev) : Dev :=
  let x := d.flowCtx b.pkt.flow
  if !(d.firstHere b || delivers) then go d
  else if !x.valid then (if b.pkt.ordered then ((d.dropPkt b.id).count aCNT_FLOW_INVALID).report 4 4 0 0 else go d)
  else if !d.fb.cached.contains b.pkt.flow then (d.modPkt b.id (fun b => { b with place := .miss })).count aFC_MISS
  else
    let d := (d.cacheTouch b.pkt.flow).countFlow b.pkt
    go (if d.firstHere b && b.pkt.ordered then d.takeOseq b else d)

/-- Queue a packet at the ports chosen for it, in the order of its flow where it leaves for an endpoint (R103). -/
def Dev.queueOuts (d : Dev) (id : Nat) : Dev :=
  match d.pkt? id with
  | none => d
  | some b => if b.pkt.ordered && !(d.localOuts b.outs).isEmpty then d.resequence id (d.fb.pkts.length + 1) else d.deliver id b.outs

/-- Choose a packet's ports, and queue it there once its flow's context allows (R143). -/
def Dev.sendBy (d : Dev) (id : Nat) (ports : List Nat) : Dev :=
  let d := d.modPkt id (fun b => { b with outs := ports })
  match d.pkt? id with
  | none => d
  | some b => d.consult b (!(d.localOuts ports).isEmpty) (fun d => d.queueOuts id)

/-- At its first device a packet takes TEPOCH from EPOCH (R113). -/
def Dev.takeEpoch (d : Dev) (b : BPkt) : Pkt := if d.firstHere b then b.pkt.setH 23 1 (d.gf aRT_STAT 0 1) else b.pkt

/-! ## Routing (R95 to R99, R113, R138, R143) -/

/-- Discard a packet that finds no way (R98). -/
def Dev.noRoute (d : Dev) (id : Nat) : Dev := (d.dropPkt id).noWay

/-- Route a packet by the destination table, or discard it. DESIGN CHOICE (log 94): with no usable port and HOPS 15 as well it counts in
CNT_NO_ROUTE. -/
def Dev.routePkt (d : Dev) (id : Nat) : Dev :=
  match d.pkt? id with
  | none => d
  | some b =>
    let e0 := d.gf aRT_STAT 0 1
    let pk := d.takeEpoch b
    let d := d.modPkt id (fun b => { b with pkt := pk })
    match d.dteAddr pk.tepoch b.dte with
    | none => ((d.dropPkt id).count aCNT_STALE).report 4 3 0 0
    | some a =>
      let ports := d.usable pk b.src (d.gb a 1) (d.dtePorts a)
      if d.fenced pk.dst then d.fencedDrop id
      else if !d.gb a 0 || ports.isEmpty then d.noRoute id
      else if pk.hops = 15 ∧ !d.gb a 1 then ((d.dropPkt id).count aCNT_HOP_LIMIT).report 4 2 0 0
      else
        let d := if d.gb aRT_STAT 17 && pk.tepoch != e0 && d.fb.changed.contains b.dte then d.count aCNT_STRAGGLER else d
        d.sendBy id [d.pickPort pk (d.gb a 2) ports]

/-- Send a packet of the buffer on branches (R122), with pruning and its notices; with no copy left it is discarded. -/
def Dev.queueBranches (d : Dev) (x : Grp) (id : Nat) (bs : List Branch) : Dev :=
  match d.pkt? id with
  | none => d
  | some b =>
    let pk := d.takeEpoch b
    let d := ((d.modPkt id (fun b => { b with pkt := pk })).countBranches bs).pruneTell x pk b.src (prunedRanks bs)
    if (branchPorts bs).isEmpty then d.dropPkt id else d.sendBy id (branchPorts bs)

/-- Route a packet that is routed by its group record and consumed by no unit here (R99, R375): with no record it is discarded. -/
def Dev.groupRoute (d : Dev) (id : Nat) : Dev :=
  match d.pkt? id with
  | none => d
  | some b =>
    match (if b.pkt.mclass = 1 then d.grp? b.pkt.group else none) with
    | none => d.noRoute id
    | some x =>
      if b.pkt.opcode = 0xE6 ∧ b.pkt.dst ≠ 0 then
        match d.rankOf x b.pkt.dst with
        | some r => d.queueBranches x id [d.towardRank x b.pkt b.src r]
        | none => d.noRoute id
      else d.queueBranches x id (d.multicastBranches x b.pkt b.src)

/-- A packet that this device consumes waits for its command; group data consults its flow's context as it is routed on (R262), any other at
its first device. -/
def Dev.toInbox (d : Dev) (b : BPkt) : Dev :=
  let rest := fun (d : Dev) => d.modPkt b.id (fun b => { b with place := .inbox })
  if b.pkt.opcode = 0xE3 then rest d else d.consult b false rest

/-- Route a classified packet (R99). -/
def Dev.routeAny (d : Dev) (id : Nat) : Dev :=
  match d.pkt? id with
  | none => d
  | some b => if consumedHere b.pkt then d.toInbox b else if byGroup b.pkt then d.groupRoute id else d.routePkt id

/-- A packet whose flow's context has been fetched goes on (R145): to the ports chosen for it, or by the table as it now stands. -/
def Dev.resumeMiss (d : Dev) (id : Nat) : Dev :=
  match d.pkt? id with
  | none => d
  | some b => if byGroup b.pkt && !b.outs.isEmpty then d.sendBy id b.outs else d.routeAny id

/-! ## Classification (R88, R149) -/

/-- A packet from an ENDPOINT port while a pending TABLE_SWAP drains (R114). -/
def Dev.drains (d : Dev) (b : BPkt) (f : PendSwap → Bool) : Bool :=
  match d.fb.swap with
  | none => false
  | some w => w.drained && f w && b.src.any (fun p => d.kind p == 1)

/-- Held from DRAIN on because the program of its group was written. -/
def Dev.holdSorter (d : Dev) (b : BPkt) : Bool := d.drains b (fun w => w.sorters && b.src.any (fun p => d.fb.spDirty.contains (p / 4)))

/-- Held from DRAIN on because the entry that routes it is DIRTY. -/
def Dev.holdTable (d : Dev) (b : BPkt) (dte : Nat) : Bool := d.drains b (fun w => w.table && d.gb (aDT_SHADOW dte) 3 && byTable b.pkt)

/-- The packets that wait for a fetched context go on in order (R145), but for those that a pending TABLE_SWAP holds (R114). -/
def Dev.resumeFlow (d : Dev) (test : Nat → Bool) : Dev :=
  ((d.fb.pkts.filter (fun b => b.place == .miss && test b.pkt.flow && !d.holdTable b b.dte)).map (fun b => b.id)).foldl
    (fun d id => d.resumeMiss id) d

/-- Stacked memory's refresh window of a stack is open (R366). -/
def Dev.stackShut (d : Dev) (s : Nat) : Bool := (mget none s d.me.open_).isSome

/-- FLOW_CTX_FETCH (R145): the fetch from the backing store, on stack 7 (R362), completes, and the waiting packets are queued in order; while the
stack's refresh window is open it waits (R366). -/
def execFlowCtxFetch (flow : Nat) (s : State) : Host.Outcome State Fault Refusal :=
  devStep (fun d => d.when (d.live && !d.stackShut 7 && d.fb.pkts.any (fun b => b.place == .miss && b.pkt.flow == flow)) (fun d =>
    (if (d.flowCtx flow).valid then d.cacheTouch flow else d).resumeFlow (fun f => f == flow))) s

/-- SORTER_CLASSIFY (R88, R149): the sorter runs over the first packet that waits in the group; the packet is policed, checked for
length, and routed. -/
def Dev.classify (d : Dev) (g : Nat) : Dev :=
  match d.firstWaiting g with
  | none => d
  | some b =>
    let run := d.srRun g 257 (.start b)
    let x := run.1
    let d := d.setSorter g x
    if d.holdSorter b then d.modPkt b.id (fun b => { b with place := .drain }) else
    let d := if run.2 then d.sb aRT_STAT 19 true else d
    if x.dropped then (d.dropPkt b.id).count aCNT_SORT_DROP else
    if d.holdTable b x.dte then d.modPkt b.id (fun b => { b with place := .drain }) else
    let pk := ((b.pkt.setH 8 3 x.tc).setH 64 18 x.flow).setH 14 1 (b.pkt.ordered || x.ord).toNat
    let b := { b with pkt := pk, dte := x.dte }
    let d := d.modPkt b.id (fun _ => b)
    let r := d.police b x.pol
    if !r.2 then r.1 else
    let d := r.1
    if d.gf (aSV_CLASS_LEN pk.tc) 0 13 < pk.size then ((d.dropPkt b.id).count aCNT_OVERSIZE).report 4 6 0 0
    else d.routeAny b.id

/-- SORTER_CLASSIFY (R88, R149). -/
def execSorterClassify (g : Nat) (s : State) : Host.Outcome State Fault Refusal :=
  devStep (fun d => d.when (d.live && decide (g < 64)) (fun d => d.classify g)) s

/-! ## Queue service (R155, R156, R169) -/

/-- The head of a queue of a port. -/
def Dev.headOf (d : Dev) (p q : Nat) : Option BPkt :=
  d.fb.pkts.foldl (fun (acc : Option (Nat × BPkt)) b =>
    match b.copies.find? (fun c => c.port == p && c.q == q) with
    | none => acc
    | some c => match acc with
      | some (o, _) => if c.ord < o then some (c.ord, b) else acc
      | none => some (c.ord, b)) none |>.map (fun x => x.2)

/-- Credit for a packet at the peer (R62, R129, R110); the twin link's quota takes the place of credits there (log 13). -/
def Dev.creditOk (d : Dev) (p : Nat) (b : BPkt) : Bool :=
  if 256 ≤ p then true else
  let m := b.pkt.mclass
  let have_ := (d.port p).credit.getD m 0
  let n := b.cells.length
  let hold := if b.pkt.tc = 0 ∨ m = 3 then 0 else d.gf (aQT_PORT_SHARE p) 16 8
  let enters := d.kind p == 4 && !(b.src.any (fun s => d.kind s == 4 && d.gf (aPORT_KIND s) 8 4 == d.gf (aPORT_KIND p) 4 4))
  decide (n + hold ≤ have_) && (!enters || decide (34 ≤ have_))

/-- CL_DATA waits in its queue until the member at a port has its grant, and under ALLTOALLV its receive vector (R262). -/
def Dev.memberOpen (d : Dev) (p : Nat) (x : Pkt) : Bool :=
  if x.opcode = 0xE3 ∧ x.mclass = 1 ∧ d.kind p = 1 then
    d.cl.ops.all (fun o => !(o.group == x.group && o.opseq == x.arg1) || o.opened.contains p)
  else true

/-- The grant of a local member leaves by its port: data of the operation may follow it (R262). Under ALLTOALLV that is the grant after the
receive vector, which goes before it in the same queue (R263). -/
def Dev.noteOpened (d : Dev) (p : Nat) (x : Pkt) : Dev :=
  if x.opcode = 0xE1 ∧ d.kind p = 1 then
    { d with cl := { d.cl with ops := d.cl.ops.map (fun o =>
        if o.group = x.group ∧ o.opseq = x.arg1 ∧ (o.countDone ∨ rdLE o.body 0 1 ≠ 0x26) ∧ !o.opened.contains p then
          { o with opened := p :: o.opened } else o) } }
  else d

/-- Whether a queue of a port is eligible, with its head. -/
def Dev.eligible (d : Dev) (p q : Nat) : Option BPkt :=
  match d.headOf p q with
  | none => none
  | some b => if b.fence.isEmpty && d.creditOk p b && d.memberOpen p b.pkt && d.gateAllows p (q / 4) (d.gf (aLN_PORT_STAT p) 3 5) then some b else none

/-- The class-0 head that is served: the one that arrived earliest, ties in the order P, F, Q, C (R155). -/
def Dev.classZero (d : Dev) (p : Nat) : Option BPkt :=
  ([2, 1, 0, 3].filterMap (fun m => d.eligible p m)).foldl (fun (acc : Option BPkt) b =>
    match acc with
    | none => some b
    | some a => if (b.time - a.time).toInt < 0 then some b else some a) none

/-- The deficit round robin from the port's position (R156): the packet sent and the port after it; `fuel` bounds the visits. -/
def Dev.drr (d : Dev) (p : Nat) : Nat → Port → Option (BPkt × Port)
  | 0, _ => none
  | n + 1, x =>
    let q := x.pos
    match d.eligible p (q + 4) with
    | none =>
      if (List.range 28).any (fun i => (d.eligible p (i + 4)).isSome) then d.drr p n { x with pos := (q + 1) % 28 } else none
    | some b =>
      let quantum := d.gf (aSV_QUANT p q) 0 16 * 64
      let x := if x.fresh.getD q false then x
        else { x with deficit := lset q (min (x.deficit.getD q 0 + quantum) (quantum + 4136)) x.deficit, fresh := lset q true x.fresh }
      if b.pkt.size ≤ x.deficit.getD q 0 then
        let left := (d.fb.pkts.filter (fun y => y.copies.any (fun c => c.port == p && c.q == q + 4))).length
        if left ≤ 1 then some (b, { x with deficit := lset q 0 x.deficit, fresh := lset q false x.fresh, pos := (q + 1) % 28 })
        else some (b, { x with deficit := lset q (x.deficit.getD q 0 - b.pkt.size) x.deficit })
      else d.drr p n { x with fresh := lset q false x.fresh, pos := (q + 1) % 28 }

/-- The packet as it leaves by a port (R96): HOPS and DOWN. -/
def Dev.leaving (d : Dev) (p : Nat) (x : Pkt) : Pkt :=
  let k := d.kind p
  let x := if k = 2 ∨ k = 3 ∨ k = 4 then x.setH 18 4 (x.hops + 1) else x
  if k = 3 ∨ k = 4 then x.setH 22 1 1 else x

/-- A copy starts on the link: its credits are used, and a class-0 packet's time in the device is measured (R167, R169). -/
def Dev.startCopy (d : Dev) (p : Nat) (b : BPkt) : Dev :=
  let n := b.cells.length
  let d := (d.noteOpened p b.pkt).modPkt b.id (fun b => { b with copies := b.copies.filter (fun c => c.port != p) })
  let d := d.modPort p (fun x => { x with credit := if p < 256 then lmod b.pkt.mclass (fun c => c - n) x.credit else x.credit,
                                          tx := x.tx ++ [⟨b.id, (d.leaving p b.pkt).wire, 0, none⟩] })
  if b.src.isSome ∧ b.pkt.tc = 0 ∧ b.pkt.len ≤ 512 ∧ Int.ofNat (d.gf aC0_WATCH 0 16) < d.since b.hdrTime then
    (d.count aCNT_C0_OVERRUN).report 5 1 0 p
  else d

/-- Whether the link of a port can start a packet: it is UP, carries traffic, replays nothing (R70), and the next flit has room. -/
def Dev.canStart (d : Dev) (p : Nat) : Bool :=
  d.portState p == 6 && d.kind p != 0 && (d.port p).resend == 0 && decide (((d.port p).tx.map (fun c => c.left.length)).sum < 120)

/-- PACKET_DEPART (R155, R156). -/
def Dev.depart (d : Dev) (p : Nat) : Dev :=
  if !d.canStart p then d else
  match d.classZero p with
  | some b => d.startCopy p b
  | none =>
    match d.drr p 4000 (d.port p) with
    | some (b, x) => (d.setPort p x).startCopy p b
    | none => d

/-- PACKET_DEPART (R155). -/
def execPacketDepart (p : Nat) (s : State) : Host.Outcome State Fault Refusal := devStep (fun d => d.when d.live (fun d => d.depart p)) s

/-- FENCE_RELEASE (R102): a held FENCE packet of a port may go once every earlier packet of its triple has been acknowledged or
pushed out. -/
def execFenceRelease (p : Nat) (s : State) : Host.Outcome State Fault Refusal :=
  devStep (fun d =>
    let done := fun (i : Nat) => d.fb.pkts.all (fun b => b.id != i) && d.fb.unacked.all (fun u => u.id != i)
    match d.fb.pkts.find? (fun b => !b.fence.isEmpty && b.copies.any (fun c => c.port == p) && b.fence.all done) with
    | none => d
    | some b => d.when d.live (fun d => d.modPkt b.id (fun b => { b with fence := [] }))) s

/-! ## Changing tables (R112 to R116) -/

/-- TABLE_SWAP (R114): judged at fetch; two TABLE comparators are taken for DRAIN and SWAP. -/
def Dev.tableSwap (d : Dev) (f : Fetched) : Dev :=
  let drain := sl f.bytes 16 16
  let swap := sl f.bytes 32 16
  let flags := bfld f.bytes 48 0 2
  let td := BitVec.ofNat 64 (rdLE drain 0 8)
  let ts := BitVec.ofNat 64 (rdLE swap 0 8)
  let late := fun (t : W64) => d.judgeTime f.time t
  if bfld drain 8 0 2 ≠ 1 ∨ bfld swap 8 0 2 ≠ 1 then d.completeS f.ref stBAD_OPCODE
  else if bfld drain 8 8 56 ≠ 0 ∨ bfld swap 8 8 56 ≠ 0 then d.completeS f.ref stBAD_OPCODE
  else if (ts - td).toInt ≤ 0 then d.completeS f.ref stLENGTH_RANGE
  else match late td with
    | some st => d.completeS f.ref st
    | none => match late ts with
      | some st => d.completeS f.ref st
      | none =>
        if d.fb.swap.isSome ∨ d.gb aRT_STAT 17 then d.completeS f.ref stCONFLICT
        else if flags / 2 = 1 ∧ !d.programsLegal then (d.sb aRT_STAT 19 true).completeS f.ref stBAD_OPCODE
        else if flags = 0 then d.completeS f.ref stOK
        else if !d.cmpFree 2 2 then d.completeS f.ref stSTRIKE_BUSY
        else
          let d := (d.takeCmp 2 td none .drain).takeCmp 2 ts none .swap
          { d with fb := { d.fb with swap := some ⟨f.ref, flags % 2 == 1, flags / 2 == 1, false⟩ } }.sb aRT_STAT 16 true

/-- TABLE_SWAP (R114). -/
def execTableSwap (r : Nat) (s : State) : Host.Outcome State Fault Refusal :=
  devStep (fun d => match d.takeFetched r (fun f => f.ref.op == 0x60) with
    | some (f, d) => d.tableSwap f
    | none => d) s

/-- TABLE_DRAIN_STRIKE (R114). -/
def execTableDrainStrike (c : Nat) (s : State) : Host.Outcome State Fault Refusal :=
  devStep (fun d => match (if d.live then d.fires c else none) with
    | none => d
    | some x =>
      if x.act = .drain then
        let d := d.freeCmp c
        { d with fb := { d.fb with swap := d.fb.swap.map (fun w => { w with drained := true }) } }
      else d) s

/-- Exchange two banks of `n` bytes in the register file; both read as zero where nothing is listed. -/
def Dev.exchangeBanks (d : Dev) (a b n : Nat) : Dev :=
  let inA := d.regs.filter (fun e => decide (a ≤ e.1) && decide (e.1 < a + n))
  let inB := d.regs.filter (fun e => decide (b ≤ e.1) && decide (e.1 < b + n))
  let rest := mclear b n (mclear a n d.regs)
  let rest := inA.foldl (fun m e => mput 0 (e.1 - a + b) e.2 m) rest
  { d with regs := inB.foldl (fun m e => mput 0 (e.1 - b + a) e.2 m) rest }

/-- Copy a bank of `n` bytes from `a` to `b`. -/
def Dev.copyBank (d : Dev) (a b n : Nat) : Dev :=
  let inA := d.regs.filter (fun e => decide (a ≤ e.1) && decide (e.1 < a + n))
  { d with regs := inA.foldl (fun m e => mput 0 (e.1 - a + b) e.2 m) (mclear b n d.regs) }

/-- Entries of the shadow destination table whose DIRTY bit is set (R95). -/
def Dev.dirtyEntries (d : Dev) : List Nat :=
  d.regs.filterMap (fun e => if aDT_SHADOW 0 ≤ e.1 ∧ e.1 < aDT_SHADOW 32768 ∧ (e.1 - aDT_SHADOW 0) % 16 = 0 ∧ e.2.toNat.testBit 3
    then some ((e.1 - aDT_SHADOW 0) / 16) else none)

/-- Exchange the destination-table banks (R112, R114): EPOCH counts, the old bank lives on, DIRTY reads 0 in the active bank. -/
def Dev.swapTables (d : Dev) (at_ : W64) : Dev :=
  let dirty := d.dirtyEntries
  let d := dirty.foldl (fun d e => d.sb (aDT_SHADOW e) 3 false) d
  let d := d.exchangeBanks (aDT_SHADOW 0) (aDT_ACTIVE 0) 0x80000
  let d := (d.sf aRT_STAT 0 16 (d.gf aRT_STAT 0 16 + 1)).sb aRT_STAT 17 true
  { d with fb := { d.fb with changed := dirty, retireAt := at_ + BitVec.ofNat 64 (2 ^ d.gf aRT_CFG 0 6) } }

/-- Exchange the sorter-program banks (R114): the new shadow takes a copy of the new active programs. -/
def Dev.swapSorters (d : Dev) : Dev :=
  let d := d.copyBank (aSP_SHADOW 0) (aSP_ACTIVE 0) 0x20000
  { d.sb aRT_STAT 20 (!d.gb aRT_STAT 20) with fb := { d.fb with spDirty := [] } }

/-- The SWAP strike of the pending TABLE_SWAP (R114): the banks selected are exchanged, the held packets go on, and the descriptor
completes. -/
def Dev.swapNow (d : Dev) (w : PendSwap) (c : Nat) (time : W64) : Dev :=
  let d := d.freeCmp c
  let d := if w.table then d.swapTables time else d
  let d := if w.sorters then d.swapSorters else d
  let d := { d with fb := { d.fb with swap := none, pkts := d.fb.pkts.map (fun (b : BPkt) =>
    if b.place = Place.drain then { b with place := Place.waiting } else b) } }
  let d := (d.sb aRT_STAT 16 false).resumeFlow d.fb.cached.contains
  (d.mirror (.swap (w.table.toNat + 2 * w.sorters.toNat) (d.gf aRT_STAT 0 16))).completeS w.ref stOK

/-- OLD_BANK_RETIRE (R116). -/
def execOldBankRetire (s : State) : Host.Outcome State Fault Refusal :=
  devStep (fun d => d.when (d.live && d.gb aRT_STAT 17 && decide (d.ahead d.fb.retireAt ≤ 0)) (fun d =>
    let d := (d.copyBank (aDT_ACTIVE 0) (aDT_SHADOW 0) 0x80000).sb aRT_STAT 17 false
    { d with fb := { d.fb with changed := [] } })) s

/-- A shadow write is ignored while a swap is pending or the old bank is live (R112). -/
def Dev.shadowClosed (d : Dev) : Bool := d.fb.swap.isSome || d.gb aRT_STAT 17

/-- DT_SHADOW word `w` of entry `e` (R112): the entry's DIRTY bit is set. -/
def dtShadowEffect (e w : Nat) (v : W32) (d : Dev) : Dev :=
  if d.shadowClosed then d.sb aRT_STAT 18 true else
  ((Dev.plainWrite (aDT_SHADOW e + 4 * w) v d).sb (aDT_SHADOW e) 3 true).mirror (.reg (aDT_SHADOW e + 4 * w) v)

/-- DT_SHADOW_WRITE (R112). -/
def execDtShadowWrite (e w : Nat) (v : W32) (s : State) : Host.Outcome State Fault Refusal :=
  devStep (fun d => d.when (decide (e < 32768) && decide (w < 4)) (fun d => d.barWrite (aDT_SHADOW e + 4 * w) v (dtShadowEffect e w))) s

/-- SP_SHADOW word `w` of group `g` (R112). -/
def spShadowEffect (g w : Nat) (v : W32) (d : Dev) : Dev :=
  if d.shadowClosed then d.sb aRT_STAT 18 true else
  let d := Dev.plainWrite (aSP_SHADOW g + 4 * w) v d
  { d with fb := { d.fb with spDirty := if d.fb.spDirty.contains g then d.fb.spDirty else g :: d.fb.spDirty } }.mirror
    (.reg (aSP_SHADOW g + 4 * w) v)

/-- SP_SHADOW_WRITE (R112). -/
def execSpShadowWrite (g w : Nat) (v : W32) (s : State) : Host.Outcome State Fault Refusal :=
  devStep (fun d => d.when (decide (g < 64) && decide (w < 512)) (fun d => d.barWrite (aSP_SHADOW g + 4 * w) v (spShadowEffect g w))) s

/-- RT_CNT_CLR (R117). -/
def rtCntClrEffect (v : W32) (d : Dev) : Dev := if bitAt v 0 then d.clearRegs aCNT_BAD_HDR 4 8 else d

/-- RT_CNT_CLR (R117). -/
def execRtCntClr (v : W32) (s : State) : Host.Outcome State Fault Refusal := devStep (fun d => d.barWrite 0x800028 v rtCntClrEffect) s

/-! ## FLOW_CTX (R146, R147) -/

/-- The image of a context (R142): HELD and OLDEST from the packets held. -/
def Dev.flowImage (d : Dev) (f : Nat) : Bytes :=
  let x := d.flowCtx f
  let held := d.heldOf f
  toLE 4 (x.valid.toNat + 2 * x.pin.toNat) ++ toLE 2 x.sendSeq ++ toLE 2 x.recvExp ++ toLE 2 held.length ++ toLE 6 0
    ++ toLE 8 ((held.map (fun b => b.time.toNat)).headD 0) ++ toLE 8 x.pkts ++ toLE 8 x.bytes ++ toLE 8 x.last.toNat ++ toLE 16 0

/-- A context from its image. -/
def flowOfImage (bs : Bytes) : FlowCtx :=
  { valid := bfld bs 0 0 1 == 1, pin := bfld bs 0 1 1 == 1, sendSeq := rdLE bs 4 2, recvExp := rdLE bs 6 2, pkts := rdLE bs 24 8,
    bytes := rdLE bs 32 8, last := BitVec.ofNat 64 (rdLE bs 40 8) }

/-- The contexts pinned (FC_STAT.PINNED). -/
def Dev.pinned (d : Dev) : List Nat := d.fb.flows.filterMap (fun e => if e.2.pin then some e.1 else none)

/-- The pin limits of R145: 2,048 in all and 6 in a set. -/
def pinsOk (pins : List Nat) : Bool :=
  decide (pins.length ≤ 2048) && pins.all (fun f => decide ((pins.filter (fun x => x % 2048 == f % 2048)).length ≤ 6))

/-- The expected number of a flow becomes the lowest held (R147). -/
def Dev.gapQuiet (d : Dev) (f : Nat) : Dev :=
  let x := d.flowCtx f
  match (d.heldOf f).map (fun b => b.pkt.oseq) with
  | [] => d
  | o :: os => d.setFlow f { x with recvExp := os.foldl (fun m y =>
      if (y + 65536 - x.recvExp) % 65536 < (m + 65536 - x.recvExp) % 65536 then y else m) o }

/-- FC_STAT.PINNED follows the contexts pinned (R148). -/
def Dev.notePins (d : Dev) : Dev := d.wr aFC_STAT (BitVec.ofNat 32 (d.pinned.length % 4096))

/-- Write one context (R147): packets held are first delivered in order, as at a gap. A pinned context is brought into the cache (R145). -/
def Dev.writeFlow (d : Dev) (f : Nat) (x : FlowCtx) : Dev :=
  let held := d.heldOf f
  let d := if held.isEmpty then d else
    (held.foldl (fun d _ => match (d.heldOf f) with
      | [] => d
      | _ => (d.gapQuiet f).deliverHeld f held.length) d).count aCNT_RSQ_GAP
  let d := (d.setFlow f x).notePins
  if x.pin then d.cacheTouch f else d

/-- The checks that FLOW_CTX makes before any context changes (R146): a status, or none. `op` 3 is reserved. -/
def Dev.flowJudge (d : Dev) (f : Fetched) : Option Nat :=
  let op := bfld f.bytes 32 0 2
  let first := rdLE f.bytes 16 4
  let n := rdLE f.bytes 20 4
  if op = 3 then some stBAD_OPCODE
  else if n = 0 then some stOK
  else if n = 0xFFFFFFFF ∨ 262144 < first + n then some stLENGTH_RANGE
  else if op ≠ 2 ∧ !d.inWindow f.ref.ring (rdLE f.bytes 24 8) (64 * n) then some stACCESS
  else none

/-- Take the oldest fetched FLOW_CTX of a ring when its OP is the one named; the command of OP WRITE takes OP 3 too, which is
judged BAD_OPCODE. -/
def Dev.takeFlowCtx (d : Dev) (r op : Nat) : Option (Fetched × Dev) :=
  d.takeFetched r (fun f => f.ref.op == 0x62 && (bfld f.bytes 32 0 2 == op || (op == 0 && bfld f.bytes 32 0 2 == 3)))

/-- Write the images of a FLOW_CTX WRITE, or refuse it where it would pass a pin limit. -/
def Dev.flowWrite (d : Dev) (first n : Nat) (images : Bytes) : Option Dev :=
  let xs := (List.range n).map (fun i => (first + i, flowOfImage (sl images (64 * i) 64)))
  let pins := d.pinned.filter (fun f => decide (f < first ∨ first + n ≤ f)) ++ xs.filterMap (fun x => if x.2.pin then some x.1 else none)
  if !pinsOk pins then none else
  some (xs.foldl (fun d x => d.writeFlow x.1 x.2) d)

/-- FLOW_CTX_WRITE (R146): `images` is the array that the host's memory holds. -/
def execFlowCtxWrite (r : Nat) (images : Bytes) (s : State) : Host.Outcome State Fault Refusal :=
  devStep (fun d => match d.takeFlowCtx r 0 with
    | none => d
    | some (f, d) => match d.flowJudge f with
      | some st => d.completeS f.ref st
      | none =>
        let n := rdLE f.bytes 20 4
        let images := padTo (64 * n) images
        match d.flowWrite (rdLE f.bytes 16 4) n images with
        | none => d.completeS f.ref stCONFLICT
        | some d => (d.mirror (.desc f.bytes images)).completeS f.ref stOK) s

/-- FLOW_CTX_READ (R146). -/
def execFlowCtxRead (r : Nat) (s : State) : Host.Outcome State Fault Refusal :=
  devStep (fun d => match d.takeFlowCtx r 1 with
    | none => d
    | some (f, d) => match d.flowJudge f with
      | some st => d.completeS f.ref st
      | none =>
        let first := rdLE f.bytes 16 4
        let addr := rdLE f.bytes 24 8
        let d := (List.range (rdLE f.bytes 20 4)).foldl (fun d i => d.emit (.hostWrite (addr + 64 * i) (d.flowImage (first + i)))) d
        d.completeS f.ref stOK) s

/-- Zero PKTS, BYTES and LAST of contexts. -/
def Dev.flowZero (d : Dev) (first n : Nat) : Dev :=
  { d with fb := { d.fb with flows := mmapKeys d.fb.flows } }
where
  /-- The listed contexts, those of the range zeroed. -/
  mmapKeys (m : SMap FlowCtx) : SMap FlowCtx :=
    (m.map (fun e => if first ≤ e.1 ∧ e.1 < first + n then (e.1, { e.2 with pkts := 0, bytes := 0, last := 0 }) else e)).filter
      (fun e => decide (e.2 ≠ FlowCtx.init))

/-- FLOW_CTX_ZERO (R146). -/
def execFlowCtxZero (r : Nat) (s : State) : Host.Outcome State Fault Refusal :=
  devStep (fun d => match d.takeFlowCtx r 2 with
    | none => d
    | some (f, d) => match d.flowJudge f with
      | some st => d.completeS f.ref st
      | none => ((d.flowZero (rdLE f.bytes 16 4) (rdLE f.bytes 20 4)).mirror (.desc f.bytes [])).completeS f.ref stOK) s

/-! ## Set-up of quotas and service (R124, R126, R130, R157, R162, R163) -/

/-- The sum of every reservation (R126). -/
def Dev.sumReserved (d : Dev) : Nat := d.fb.unused + d.fb.used.foldl (fun n e => n + min e.2 (d.reserve e.1)) 0

/-- The most that reservations may sum to (R126). -/
def Dev.reserveLimit (d : Dev) : Nat := 1048576 - 256 * d.gf aLR_CFG 8 12 - (d.rg aLR_RETIRED).toNat

/-- Change reservations: `keys` are those the write touches; the count of unused cells follows. -/
def Dev.setQuota (d : Dev) (a : Nat) (v : W32) (keys : List Nat) : Dev :=
  let old := (keys.map (fun k => d.reserve k - d.usedBy k)).sum
  let d' := Dev.plainWrite a v d
  let new := (keys.map (fun k => d'.reserve k - d'.usedBy k)).sum
  ({ d' with fb := { d'.fb with unused := d'.fb.unused + new - old } }.noteLow).mirror (.reg a v)

/-- A write of reservations: refused under R126, else made. -/
def Dev.tryQuota (d : Dev) (a : Nat) (v : W32) (keys : List Nat) : Dev :=
  let d' := Dev.plainWrite a v d
  let old := (keys.map d.reserve).sum
  let new := (keys.map d'.reserve).sum
  if d.reserveLimit < d.sumReserved + new - old then d.sb aLR_STAT 1 true else d.setQuota a v keys

/-- QT_PORT_QF (R124). -/
def qtPortQfEffect (p : Nat) (v : W32) (d : Dev) : Dev :=
  if fld v 0 16 < 17 ∨ fld v 16 16 < 17 ∨ fld v 0 16 = 0xFFFF ∨ fld v 16 16 = 0xFFFF ∨ d.portState p ≠ 0 then d.sb aLR_STAT 0 true
  else d.tryQuota (aQT_PORT_QF p) v [8 * p, 8 * p + 1]

/-- QT_PORT_QF_WRITE (R124). -/
def execQtPortQfWrite (p : Nat) (v : W32) (s : State) : Host.Outcome State Fault Refusal :=
  devStep (fun d => d.when (decide (p < 256)) (fun d => d.barWrite (aQT_PORT_QF p) v (qtPortQfEffect p))) s

/-- QT_PORT_PC (R124): a C partition of zero is allowed. -/
def qtPortPcEffect (p : Nat) (v : W32) (d : Dev) : Dev :=
  if fld v 0 16 < 17 ∨ fld v 0 16 = 0xFFFF ∨ fld v 16 16 = 0xFFFF ∨ d.portState p ≠ 0 then d.sb aLR_STAT 0 true
  else d.tryQuota (aQT_PORT_PC p) v [8 * p + 2, 8 * p + 3]

/-- QT_PORT_PC_WRITE (R124). -/
def execQtPortPcWrite (p : Nat) (v : W32) (s : State) : Host.Outcome State Fault Refusal :=
  devStep (fun d => d.when (decide (p < 256)) (fun d => d.barWrite (aQT_PORT_PC p) v (qtPortPcEffect p))) s

/-- QT_PORT_RSQ (R124). -/
def qtPortRsqEffect (p : Nat) (v : W32) (d : Dev) : Dev :=
  if fld v 0 16 = 0xFFFF ∨ d.portState p ≠ 0 then d.sb aLR_STAT 0 true else d.tryQuota (aQT_PORT_RSQ p) v [8 * p + 4]

/-- QT_PORT_RSQ_WRITE (R124). -/
def execQtPortRsqWrite (p : Nat) (v : W32) (s : State) : Host.Outcome State Fault Refusal :=
  devStep (fun d => d.when (decide (p < 256)) (fun d => d.barWrite (aQT_PORT_RSQ p) v (qtPortRsqEffect p))) s

/-- QT_UNIT (R130). -/
def qtUnitEffect (u : Nat) (v : W32) (d : Dev) : Dev :=
  if fld v 16 16 < fld v 0 16 ∨ fld v 0 16 = 0xFFFF ∨ fld v 16 16 = 0xFFFF then d.sb aLR_STAT 0 true
  else d.tryQuota (aQT_UNIT u) v [4096 + u]

/-- QT_UNIT_WRITE (R130). -/
def execQtUnitWrite (u : Nat) (v : W32) (s : State) : Host.Outcome State Fault Refusal :=
  devStep (fun d => d.when (decide (u < 67)) (fun d => d.barWrite (aQT_UNIT u) v (qtUnitEffect u))) s

/-- LR_CNT_CLR (R148): counters to zero, LR_LOW to LR_SHARED_FREE. -/
def lrCntClrEffect (v : W32) (d : Dev) : Dev :=
  if bitAt v 0 then (d.clearRegs aCNT_PUSHOUT 4 6).wr aLR_LOW (BitVec.ofNat 32 d.sharedFree) else d

/-- LR_CNT_CLR (R148). -/
def execLrCntClr (v : W32) (s : State) : Host.Outcome State Fault Refusal := devStep (fun d => d.barWrite 0x40034 v lrCntClrEffect) s

/-- SV_QUANT (R157). -/
def svQuantEffect (p q : Nat) (v : W32) (d : Dev) : Dev :=
  if fld v 0 16 = 0 ∨ fld v 0 16 = 0xFFFF then d.sb aSV_STAT 0 true
  else (Dev.plainWrite (aSV_QUANT p q) v d).mirror (.reg (aSV_QUANT p q) v)

/-- SV_QUANT_WRITE (R157). -/
def execSvQuantWrite (p q : Nat) (v : W32) (s : State) : Host.Outcome State Fault Refusal :=
  devStep (fun d => d.when (decide (p < 256) && decide (q < 28)) (fun d => d.barWrite (aSV_QUANT p q) v (svQuantEffect p q))) s

/-- SV_CLASS_LEN (R163). -/
def svClassLenEffect (t : Nat) (v : W32) (d : Dev) : Dev :=
  let n := fld v 0 13
  if n % 8 ≠ 0 ∨ n < 32 ∨ 4136 < n then d.sb aSV_STAT 0 true
  else (Dev.plainWrite (aSV_CLASS_LEN t) v d).mirror (.reg (aSV_CLASS_LEN t) v)

/-- SV_CLASS_LEN_WRITE (R163). -/
def execSvClassLenWrite (t : Nat) (v : W32) (s : State) : Host.Outcome State Fault Refusal :=
  devStep (fun d => d.when (decide (t < 8)) (fun d => d.barWrite (aSV_CLASS_LEN t) v (svClassLenEffect t))) s

/-- SV_GATE_BIND (R47, R162): refused with CONFLICT for a disabled engine, or for a port that is bound already. -/
def svGateBindEffect (p : Nat) (v : W32) (d : Dev) : Dev :=
  let a := aSV_GATE_BIND p
  let g := fld v 0 4
  if bitAt v 4 && (!d.gb (aGE g) 0 || d.gb a 4) then d.sb aSV_STAT 1 true else Dev.plainWrite a v d

/-- SV_GATE_BIND_WRITE (R162). -/
def execSvGateBindWrite (p : Nat) (v : W32) (s : State) : Host.Outcome State Fault Refusal :=
  devStep (fun d => d.when (decide (p < 256)) (fun d => d.barWrite (aSV_GATE_BIND p) v (svGateBindEffect p))) s

end Sys2Proof.Machine
end

