-- ==== Sys2Proof/Machine/Groups.lean ====
section
/-! DEFINITION. GROUP_SET (R252). -/

namespace Sys2Proof.Machine

/-! ## GROUP_SET (R252) -/

/-- Shift the table entries above a removed run down by its length, in bytes. -/
def shiftDown (base size start len : Nat) (m : SMap W32) : SMap W32 :=
  m.filterMap (fun e =>
    if e.1 < base + start ∨ base + size ≤ e.1 then some e
    else if e.1 < base + start + len then none
    else some (e.1 - len, e.2))

/-- The records in use. -/
def Dev.recsUsed (d : Dev) : List Nat :=
  d.regs.filterMap (fun e => if aGIX 0 ≤ e.1 ∧ e.1 < aGIX 65536 ∧ bitAt e.2 15 then some (fld e.2 0 12) else none)

/-- Move the base of every record that lies above a removed run: word `w` of the record, field width `k`. -/
def Dev.rebase (d : Dev) (w k start n : Nat) : Dev :=
  d.recsUsed.foldl (fun d r =>
    let a := aGR r + 4 * w
    if start < d.gf a 0 k then d.sf a 0 k (d.gf a 0 k - n) else d) d

/-- Remove a group's record; the runs above its own move down (R252, log 14), so the free entries are always one run. -/
def Dev.groupRemove (d : Dev) (x : Grp) : Dev :=
  let d := d.wr (aGIX x.num) 0
  let d := { d with regs := shiftDown (aMB 0) 0x100000 (4 * x.mbase) (4 * x.nmemb)
                              (shiftDown (aNB 0) 0x40000 (16 * x.nbase) (16 * x.nnbr) (mclear (aGR x.slot) 64 d.regs)) }
  let d := (d.rebase 4 18 x.mbase x.nmemb).rebase 5 14 x.nbase x.nnbr
  let d := d.wr 0xC00018 (d.rg 0xC00018 + 1)
  let d := d.wr 0xC0001C (d.rg 0xC0001C + BitVec.ofNat 32 x.nmemb)
  d.wr 0xC00020 (d.rg 0xC00020 + BitVec.ofNat 32 x.nnbr)

/-- The image of a group: NNBR, HOME, NMEMB and the entries it holds. -/
def imgNnbr (im : Bytes) : Nat := bfld im 2 0 5
def imgHome (im : Bytes) : Nat := bfld im 3 0 5
def imgNmemb (im : Bytes) : Nat := rdLE im 4 2
def imgNb (im : Bytes) (n : Nat) : Bytes := sl im (64 + 16 * n) 16
def imgMb (im : Bytes) (r : Nat) : Nat := rdLE im (64 + 16 * imgNnbr im + 4 * r) 4

/-- The ports of an image's neighbour entry. -/
def imgPorts (im : Bytes) (n : Nat) : List Nat := ((imgNb im n).drop 8 |>.map (fun b => b.toNat)).take (bfld (imgNb im n) 0 4 3 + 1)

/-- Check 5 of R252 on an image. -/
def Dev.imageOk (d : Dev) (im : Bytes) : Bool :=
  let nn := imgNnbr im
  let mems := (List.range (imgNmemb im)).map (imgMb im)
  let eps := mems.map (fun m => m % 2 ^ 15)
  (imgHome im == 0x1F || decide (imgHome im < nn)) &&
  mems.all (fun m =>
    let via := nfld m 16 8
    if m.testBit 15 then d.kind via == 1 && d.epId via == m % 2 ^ 15 else decide (via < nn)) &&
  eps.Nodup &&
  (List.range nn).all (fun n =>
    (imgPorts im n).all (fun p => d.kind p == 2 || d.kind p == 3 || d.kind p == 4) &&
    (n == imgHome im || mems.any (fun m => !m.testBit 15 && nfld m 16 8 == n)))

/-- MINRANK of an image's neighbour. -/
def imgMinRank (im : Bytes) (n : Nat) : Nat :=
  ((List.range (imgNmemb im)).find? (fun r => !(imgMb im r).testBit 15 && nfld (imgMb im r) 16 8 == n)).getD 0x7FFF

/-- Write a group's record and entries from its image: `last` is the LAST_OPSEQ kept. -/
def Dev.groupWrite (d : Dev) (g : Nat) (last : W32) (im : Bytes) : Dev :=
  let nn := imgNnbr im
  let nm := imgNmemb im
  let used := d.recsUsed
  let r := ((List.range 4096).find? (fun r => !used.contains r)).getD 0
  let mbase := 262144 - (d.rg 0xC0001C).toNat
  let nbase := (16384 - (d.rg 0xC00020).toNat) % 16384
  let nlocal := ((List.range nm).filter (fun i => (imgMb im i).testBit 15)).length
  let d := d.wr (aGIX g) (BitVec.ofNat 32 (r + 2 ^ 15))
  let d := d.wrs (aGR r) [BitVec.ofNat 32 (g + nn * 2 ^ 16 + imgHome im * 2 ^ 24), BitVec.ofNat 32 (nm + nlocal * 2 ^ 16),
    BitVec.ofNat 32 (bfld im 8 0 3), BitVec.ofNat 32 (bfld im 12 0 13 + orOne (rdLE im 14 2) * 2 ^ 16), BitVec.ofNat 32 mbase,
    BitVec.ofNat 32 nbase, last, 0]
  let d := (List.range nn).foldl (fun d n =>
    let e := imgNb im n
    d.wrs (aNB (nbase + n)) [BitVec.ofNat 32 (rdLE e 0 2 % 128 / 4 % 2 * 4 + bfld e 0 4 3 * 16 + bfld e 0 0 1 + imgMinRank im n * 2 ^ 16), 0,
      BitVec.ofNat 32 (rdLE e 8 4), BitVec.ofNat 32 (rdLE e 12 4)]) d
  let d := (List.range nm).foldl (fun d i => d.wr (aMB (mbase + i)) (BitVec.ofNat 32 (imgMb im i % 2 ^ 24))) d
  let d := d.wr 0xC00018 (d.rg 0xC00018 - 1)
  let d := d.wr 0xC0001C (d.rg 0xC0001C - BitVec.ofNat 32 nm)
  d.wr 0xC00020 (d.rg 0xC00020 - BitVec.ofNat 32 nn)

/-- The free entries suffice for a new record, those its replacement frees counted (R252 check 6). -/
def Dev.groupRoom (d : Dev) (old : Option Grp) (im : Bytes) : Bool :=
  let o := old.getD ⟨0, 0, 0, 0, 0, 0, 0, 0, 0, 0, 0, 0, 0⟩
  (old.isSome || d.rg 0xC00018 != 0) && decide (imgNmemb im ≤ (d.rg 0xC0001C).toNat + o.nmemb) &&
    decide (imgNnbr im ≤ (d.rg 0xC00020).toNat + o.nnbr)

/-- GROUP_SET with its checks in order (R252): the device after it, and the status. `host` is false when the lead's mirrored
descriptor is applied, whose window was checked there. -/
def Dev.groupSet (d : Dev) (host : Bool) (ring : Nat) (bs im : Bytes) : Dev × Nat :=
  let g := rdLE bs 16 2
  let addr := rdLE bs 24 8
  let im := padTo (64 + 16 * imgNnbr im + 4 * imgNmemb im) im
  let old := d.grp? g
  let busy := (old.map (fun x => x.active)).getD 0 != 0
  if g = 0 then (d, stBAD_OPCODE)
  else if bfld bs 18 0 1 = 1 then
    if busy then (d.sb aCL_STAT 0 true, stCONFLICT)
    else match old with
      | none => (d, stOK)
      | some x =>
        let d := { d with cl := { d.cl with aborts := d.cl.aborts.filter (fun b => b.1 != g), gone := d.cl.gone.filter (fun b => b.1 != g) } }
        (d.groupRemove x, stOK)
  else if host && !d.inWindow ring addr 64 then (d, stACCESS)
  else if rdLE im 0 2 ≠ g then (d, stBAD_OPCODE)
  else if imgNmemb im = 0 ∨ 32768 < imgNmemb im ∨ 16 < imgNnbr im then (d, stLENGTH_RANGE)
  else if host && !d.inWindow ring addr (64 + 16 * imgNnbr im + 4 * imgNmemb im) then (d, stACCESS)
  else if !d.imageOk im then (d, stBAD_OPCODE)
  else if busy || !d.groupRoom old im then (d.sb aCL_STAT 0 true, stCONFLICT)
  else
    let last := (old.map (fun x => x.last)).getD 0
    let d := match old with
      | none => d
      | some x => d.groupRemove x
    (d.groupWrite g last im, stOK)

/-- A GROUP_SET descriptor of a ring: mirrored when it changes the tables. -/
def Dev.groupSetDesc (d : Dev) (r : Nat) (del : Bool) (im : Bytes) : Dev :=
  match d.takeFetched r (fun f => f.ref.op == 0x61 && (bfld f.bytes 18 0 1 == 1) == del) with
  | none => d
  | some (f, d) =>
    let x := d.groupSet true r f.bytes im
    let d := if x.2 = stOK then x.1.mirror (.desc f.bytes im) else x.1
    d.completeS f.ref x.2

/-- GROUP_SET (R252): `image` is what the host's memory holds at ADDR. -/
def execGroupSet (r : Nat) (image : Bytes) (s : State) : Host.Outcome State Fault Refusal := devStep (fun d => d.groupSetDesc r false image) s

/-- GROUP_DELETE (R252). -/
def execGroupDelete (r : Nat) (s : State) : Host.Outcome State Fault Refusal := devStep (fun d => d.groupSetDesc r true []) s

/-- CL_CNT_CLR (R274). -/
def clCntClrEffect (v : W32) (d : Dev) : Dev := if bitAt v 0 then d.clearRegs aCNT_CL_DONE 4 4 else d

/-- CL_CNT_CLR (R274). -/
def execClCntClr (v : W32) (s : State) : Host.Outcome State Fault Refusal := devStep (fun d => d.barWrite 0xC00014 v clCntClrEffect) s

end Sys2Proof.Machine
end

