-- ==== Sys2Proof/Machine/Recipe.lean ====
section
/-! DEFINITION. Recipes (R232 to R240): the sequencer's instructions, one section over the beats of a piece, the fixed merge, the
output stage of a piece. -/

namespace Sys2Proof.Machine

/-- A register of the sequencer. -/
def RcRun.reg (x : RcRun) (i : Nat) : List Nat := x.v.getD i []

/-- What the NaN events of a section name as operands (R197): in ARRIVE the accumulator and the arriving term, in FINAL the two
sources. -/
def RcRun.event (x : RcRun) (lane cause a b : Nat) : RcEv :=
  if x.final then { lane := lane, cause := cause, fmtA := x.accFmt, opA := a, fmtB := x.accFmt, opB := b, two := true, pc := x.pc }
  else { lane := lane, cause := cause, fmtA := x.accFmt, opA := x.acc.getD lane 0, fmtB := x.inFmt, opB := x.inp.getD lane 0, two := true,
         pc := x.pc }

/-- Write a register from results by lane, gathering flags and produced NaNs. -/
def RcRun.write (x : RcRun) (dst : Nat) (as bs : List Nat) (rs : List NRes) : RcRun :=
  let evs := (rs.zip (List.range rs.length)).filterMap (fun r =>
    if r.1.cause = 0 then none else some (x.event r.2 r.1.cause (as.getD r.2 0) (bs.getD r.2 0)))
  { x with v := lset dst (rs.map (fun r => r.code)) x.v, ieee := rs.foldl (fun n r => n ||| r.ieee) x.ieee,
           ovf := x.ovf || rs.any (fun r => r.ovf), evs := x.evs ++ evs }

/-- An operation on two registers, lane by lane. -/
def RcRun.lanes2 (x : RcRun) (f : RcFields) (op : Nat → Nat → NRes) : RcRun :=
  let as := x.reg f.a
  let bs := x.reg f.b
  x.write f.d as bs ((as.zip bs).map (fun p => op p.1 p.2))

/-- LDIN (R234): the input beat expanded; a NaN in it is received (R195). ARRIVE only. -/
def RcRun.ldin (x : RcRun) (f : RcFields) : RcRun :=
  if x.final then x else
  let rs := x.inp.map (expandRaw x.inFmt x.accFmt x.strict)
  let evs := (x.inp.zip (List.range x.inp.length)).filterMap (fun p =>
    if (rawValue x.inFmt p.1).isNaN then
      some { lane := p.2, cause := 1, fmtA := x.inFmt, opA := p.1, fmtB := 0, opB := 0, two := false, pc := x.pc : RcEv }
    else none)
  let y := x.write f.d [] [] rs
  { y with evs := y.evs ++ evs }

/-- LDACC: the accumulator beat; a fresh piece reads as zero. -/
def RcRun.ldacc (x : RcRun) (f : RcFields) : RcRun :=
  { x with v := lset f.d (if x.fresh then x.acc.map (fun _ => 0) else x.acc) x.v }

/-- STACC: the accumulator beat = v_A. ARRIVE only. -/
def RcRun.stacc (x : RcRun) (f : RcFields) : RcRun := if x.final then x else { x with acc := x.reg f.a }

/-- RED: v_B on a fresh piece, else v_A OPR v_B. -/
def RcRun.red (x : RcRun) (f : RcFields) : RcRun :=
  if x.fresh then { x with v := lset f.d (x.reg f.b) x.v } else x.lanes2 f (combine x.accFmt x.opr x.strict)

/-- ABS. -/
def RcRun.abs (x : RcRun) (f : RcFields) : RcRun := x.write f.d (x.reg f.a) [] ((x.reg f.a).map (accAbs x.accFmt x.strict))

/-- NEG. -/
def RcRun.neg (x : RcRun) (f : RcFields) : RcRun := x.write f.d (x.reg f.a) [] ((x.reg f.a).map (accNeg x.accFmt x.strict))

/-- LDK: a constant in every lane. -/
def RcRun.ldk (x : RcRun) (f : RcFields) : RcRun := x.write f.d [] [] ((x.reg f.d).map (fun _ => accConst x.accFmt x.strict f.imm))

/-- EMIT: v_A passes to the output stage. FINAL only. -/
def RcRun.emit (x : RcRun) (f : RcFields) : RcRun := if x.final then { x with out := x.reg f.a, emitted := true } else x

/-- One instruction by its OP (R234). -/
def RcRun.exec (x : RcRun) (op : Nat) (f : RcFields) : RcRun :=
  match op with
  | 1 => x.ldin f
  | 2 => x.ldacc f
  | 3 => x.stacc f
  | 4 => x.red f
  | 5 => x.lanes2 f (combine x.accFmt 0 x.strict)
  | 6 => x.lanes2 f (combine x.accFmt 1 x.strict)
  | 7 => x.lanes2 f (combine x.accFmt 2 x.strict)
  | 8 => x.lanes2 f (combine x.accFmt 3 x.strict)
  | 9 => x.abs f
  | 10 => x.neg f
  | 11 => x.ldk f
  | 12 => x.emit f
  | _ => x

/-- OP and fields of a recipe word (R233). -/
def rcOp (w : W32) : Nat := fld w 0 6
def rcFields (w : W32) : RcFields := ⟨fld w 6 3, fld w 9 3, fld w 12 3, fld w 16 16⟩

/-- Run the words of a section, the first one at word address `pc`. -/
def RcRun.section_ (x : RcRun) (pc : Nat) : List W32 → RcRun
  | [] => x
  | w :: ws => (({ x with pc := pc }).exec (rcOp w) (rcFields w)).section_ (pc + 1) ws

/-! ## Whole pieces -/

/-- What a piece's operation is run under. -/
structure RcCtx where
  opr : Nat
  accFmt : Nat
  inFmt : Nat
  outFmt : Nat
  arrive : List W32
  fin : List W32
  out : OutBlock
  num : NumCtl
  deriving DecidableEq, Repr

/-- What a run over a piece raises: IEEE flags, OVERFLOW, and NaN events with their element of the piece. -/
structure Raised where
  ieee : Nat := 0
  ovf : Bool := false
  evs : List (Nat × RcEv) := []
  deriving DecidableEq, Repr

/-- Add what one beat raised. -/
def Raised.add (r : Raised) (beat : Nat) (x : RcRun) : Raised :=
  { ieee := r.ieee ||| x.ieee, ovf := r.ovf || x.ovf, evs := r.evs ++ x.evs.map (fun e => (32 * beat + e.lane, e)) }

/-- Both of two. -/
def Raised.both (a b : Raised) : Raised := { ieee := a.ieee ||| b.ieee, ovf := a.ovf || b.ovf, evs := a.evs ++ b.evs }

/-- A run at the start of a section: every register reads as zero (R235). -/
def RcCtx.start (c : RcCtx) (fresh final : Bool) (acc inp : List Nat) : RcRun :=
  { RcRun.init with v := List.replicate 8 (acc.map (fun _ => 0)), acc := acc, inp := inp, fresh := fresh, final := final, opr := c.opr,
                    accFmt := c.accFmt, inFmt := c.inFmt, strict := c.num.strict }

/-- The ARRIVE section over an input's elements (R235): the new accumulator, what was raised, and the last run. -/
def RcCtx.arriveAll (c : RcCtx) (fresh : Bool) (acc inp : List Nat) : List Nat × Raised × RcRun :=
  let acc := if fresh then inp.map (fun _ => 0) else acc
  let beats := (chunks 32 acc).zip (chunks 32 inp)
  (beats.zip (List.range beats.length)).foldl (fun (s : List Nat × Raised × RcRun) b =>
    let x := (c.start fresh false b.1.1 b.1.2).section_ 1 c.arrive
    (s.1 ++ x.acc, s.2.1.add b.2 x, x)) ([], {}, RcRun.init)

/-- The fixed merge of a partial sum (R235): RED with OPR, no recipe word; NaNs that enter are received. An element raises at most one
event, and events come by element (R195). -/
def RcCtx.merge (c : RcCtx) (fresh arriving : Bool) (acc part : List Nat) : List Nat × Raised :=
  let f := ffmtOf c.accFmt
  let isN := fun (x : Nat) => c.accFmt != 15 && (f.decode x).isNaN
  let one := fun (i a b : Nat) (r : NRes) =>
    if arriving && isN b then
      some (i, { lane := i % 32, cause := 1, fmtA := c.accFmt, opA := b, fmtB := 0, opB := 0, two := false, pc := 0 : RcEv })
    else if r.cause = 0 then none
    else some (i, { lane := i % 32, cause := r.cause, fmtA := c.accFmt, opA := a, fmtB := c.accFmt, opB := b, two := true, pc := 0 : RcEv })
  if fresh then (part, { evs := (part.zip (List.range part.length)).filterMap (fun p => one p.2 0 p.1 { code := p.1 }) }) else
  let rs := (acc.zip part).map (fun p => (p.1, p.2, combine c.accFmt c.opr c.num.strict p.1 p.2))
  (rs.map (fun r => r.2.2.code),
   { ieee := rs.foldl (fun n r => n ||| r.2.2.ieee) 0, ovf := rs.any (fun r => r.2.2.ovf),
     evs := (rs.zip (List.range rs.length)).filterMap (fun r => one r.2 r.1.1 r.1.2.1 r.1.2.2) })

/-- One round of adjacent pairs (R220): each list with its lowest rank, and what each merge has raised with the rank of its second list,
which is the arriving term (R242). -/
def RcCtx.pairs (c : RcCtx) : List (Nat × List Nat) → List (Nat × List Nat) × List (Nat × Raised)
  | a :: b :: rest =>
    let m := c.merge false false a.2 b.2
    let r := c.pairs rest
    ((a.1, m.1) :: r.1, (b.1, m.2) :: r.2)
  | xs => (xs, [])

/-- Pair until one list remains. -/
def RcCtx.pairwise (c : RcCtx) : Nat → List (Nat × List Nat) → List Nat × List (Nat × Raised)
  | 0, xs => ((xs.headD (0, [])).2, [])
  | n + 1, xs =>
    match xs with
    | [] => ([], [])
    | [x] => (x.2, [])
    | xs =>
      let r := c.pairs xs
      let s := c.pairwise n r.1
      (s.1, r.2 ++ s.2)

/-- FINAL and the output stage over a complete piece (R239, R240): the raw output elements, the first at index `idx`. -/
def RcCtx.finish (c : RcCtx) (idx : Nat) (acc : List Nat) : List Nat × Raised × RcRun :=
  let beats := chunks 32 acc
  (beats.zip (List.range beats.length)).foldl (fun (s : List Nat × Raised × RcRun) b =>
    let x := (c.start false true b.1 []).section_ (1 + c.arrive.length) c.fin
    let a := x.out
    if c.num.explicit then (s.1 ++ a, s.2.1.add b.2 x, x) else
    let vs := a.map (stageValue c.accFmt c.num.strict c.out)
    let rs := deliverBeat c.outFmt c.num.strict (fun i => c.num.sr 1 (idx + 32 * b.2 + i)) (vs.map (fun v => v.1))
    let evs := (vs.zip (a.zip (List.range a.length))).filterMap (fun v =>
      if v.1.2.cause = 0 then none else
      some (32 * b.2 + v.2.2, { lane := v.2.2, cause := v.1.2.cause, fmtA := c.accFmt, opA := v.2.1, fmtB := 1,
                                opB := if v.1.2.cause = 2 then c.out.scale else c.out.bias, two := true, pc := x.pc : RcEv }))
    let up : Raised := { ieee := (vs.map (fun v => v.2.ieee)).foldl (fun n i => n ||| i) (rs.foldl (fun n r => n ||| r.ieee) 0),
                         ovf := rs.any (fun r => r.ovf) || vs.any (fun v => v.2.ovf), evs := evs }
    (s.1 ++ rs.map (fun r => r.code), (s.2.1.add b.2 x).both up, x)) ([], {}, RcRun.init)

end Sys2Proof.Machine
end

