-- ==== Sys2Proof/Machine/Smelter.lean ====
section
/-! DEFINITION. Smelters as units (R204, R10), the NaN trap's log (R195 to R199), the part log (R420, R421), and the commands of the
Smelter and numeric blocks that concern one register or one sequencer. -/

namespace Sys2Proof.Machine

/-! ## Units and spares (R10, R11, R204) -/

/-- A physical Smelter is fenced. -/
def Dev.smFenced (d : Dev) (phys : Nat) : Bool := d.gb (aDP_FENCE_S + 4 * (phys / 32)) (phys % 32)

/-- The physical Smelter that carries a logical one: its own, or the spare of its deck. -/
def Dev.smPhys (d : Dev) (l : Nat) : Option Nat :=
  let deck := l / 16
  let own := 17 * deck + l % 16
  if !d.smFenced own then some own
  else if d.gf aSM_SPARE (8 * deck) 6 = l ∧ !d.smFenced (17 * deck + 16) then some (17 * deck + 16) else none

/-- The logical Smelters that stand. -/
def Dev.smLive (d : Dev) : List Nat := (List.range 64).filter (fun l => (d.smPhys l).isSome)

/-- The logical Smelter that the device chooses for a piece (R205): a free value. -/
def Dev.pickSmelter (d : Dev) : Nat := d.smLive.getD (d.freeNat % d.smLive.length) 0

/-- Some operation holds a context. -/
def Dev.ctxInUse (d : Dev) : Bool := d.cl.ops.any (fun o => o.ctxHeld != 0)

/-- Reductions combine in pairs (R220, R415). -/
def Dev.pairwise (d : Dev) : Bool := d.gb aSM_CFG 0 || d.gb aREP_COMPAT 0

/-! ## The NaN trap (R195 to R199) -/

/-- A NaN event with what its record needs. -/
structure TrapEv where
  cause : Nat
  fmtA : Nat
  opA : Nat
  fmtB : Nat
  opB : Nat
  two : Bool
  pc : Nat
  elem : Nat
  bench : Bool
  unit : Nat
  sub : Nat
  member : Option Nat
  group : Nat
  deriving DecidableEq, Repr

/-- The operands and formats of a recipe's event. -/
def TrapEv.ofRc (e : RcEv) (elem unit sub : Nat) (member : Option Nat) (group : Nat) : TrapEv :=
  { cause := e.cause, fmtA := e.fmtA, opA := e.opA, fmtB := e.fmtB, opB := e.opB, two := e.two, pc := e.pc, elem := elem, bench := false,
    unit := unit, sub := sub, member := member, group := group }

/-- The sixteen words of a trap record (R197). -/
def trapRecord (ref : DescRef) (halt strict : Bool) (e : TrapEv) (t : W64) : List W32 :=
  let opB := if e.two then e.opB else 0
  [BitVec.ofNat 32 (ref.ring % 8192 + 65536 * ref.op + 2 ^ 24 * e.cause + 2 ^ 28 * halt.toNat + 2 ^ 29 * strict.toNat),
   BitVec.ofNat 32 ref.slot, BitVec.ofNat 32 e.elem, BitVec.ofNat 32 (e.elem / 2 ^ 32),
   BitVec.ofNat 32 (e.bench.toNat + 256 * (e.unit % 128) + 65536 * (e.sub % 65536)),
   BitVec.ofNat 32 (e.fmtA + 256 * (if e.two then e.fmtB else 0) + 8192 * e.two.toNat + 65536 * (e.pc % 65536)),
   BitVec.ofNat 32 e.opA, BitVec.ofNat 32 (e.opA / 2 ^ 32), BitVec.ofNat 32 opB, BitVec.ofNat 32 (opB / 2 ^ 32),
   BitVec.ofNat 32 t.toNat, BitVec.ofNat 32 (t.toNat / 2 ^ 32),
   BitVec.ofNat 32 (e.member.getD 0 % 2 ^ 15 + 2 ^ 15 * e.member.isSome.toNat + 65536 * e.group), 0, 0, 0]

/-- The trap takes an event (R195, R198, R199): the first one is recorded and reported, each further one counted in MORE. -/
def Dev.trapTake (d : Dev) (t : Trap) (ref : DescRef) (num : NumCtl) (e : TrapEv) : Dev × Trap :=
  if !num.trap then (d, t)
  else if t.fired then
    if t.serial ≠ 0 ∧ mget 0 t.entry d.sm.ntOwner = t.serial then (d.count (aNT_LOG t.entry + 52), t) else (d, t)
  else
    let d := d.report 7 0 0 0
    let n := d.gf aNT_STAT 16 4
    if d.gb aNT_STAT n then (d.sf aNT_STAT 24 8 (min 255 (d.gf aNT_STAT 24 8 + 1)), ⟨true, 0, 0⟩)
    else
      let serial := d.sm.ntSerial + 1
      let d := d.wrs (aNT_LOG n) (trapRecord ref num.halt num.strict e d.now)
      let d := (d.sb aNT_STAT n true).sf aNT_STAT 16 4 (n + 1)
      ({ d with sm := { d.sm with ntOwner := mput 0 n serial d.sm.ntOwner, ntSerial := serial } }, ⟨true, n, serial⟩)

/-- The trap takes events in order. -/
def Dev.trapAll (d : Dev) (t : Trap) (ref : DescRef) (num : NumCtl) : List TrapEv → Dev × Trap
  | [] => (d, t)
  | e :: es =>
    let r := d.trapTake t ref num e
    r.1.trapAll r.2 ref num es

/-! ## The part log (R420, R421) -/

/-- Write an entry of the part log (R420, R421). DEDUCED (log 109): under FILTER the group of an operation without one is the 0 that its entry
shows. -/
def Dev.hmNote (d : Dev) (op status group id info part : Nat) : Dev :=
  if !d.gb aHM_CFG 0 || (d.gb aHM_CFG 1 && d.gf aHM_CFG 16 16 != group) then d else
  let n := d.gf aHM_STAT 0 10
  let d := d.wrs (aHM_LOG n) ([BitVec.ofNat 32 (op % 256 + 256 * (status % 256) + 65536 * group), BitVec.ofNat 32 id, BitVec.ofNat 32 info,
    BitVec.ofNat 32 d.degraded.toNat] ++ (List.range 4).map (fun i => BitVec.ofNat 32 (part / 2 ^ (32 * i))))
  let d := d.sf aHM_STAT 0 10 (n + 1)
  let d := if 1024 ≤ (d.rg aHM_TOTAL).toNat then d.sb aHM_STAT 10 true else d
  d.wr aHM_TOTAL (d.rg aHM_TOTAL + 1)

/-- The ID of an entry for a descriptor that belongs to no group operation. -/
def DescRef.hmId (r : DescRef) : Nat := r.slot % 65536 + 65536 * (r.ring % 8192)

/-! ## Registers -/

/-- NT_CLR (R203). -/
def ntClrEffect (v : W32) (d : Dev) : Dev := if bitAt v 0 then d.sf aNT_STAT 24 8 0 else d

/-- NT_CLR (R203). -/
def execNtClr (v : W32) (s : State) : Host.Outcome State Fault Refusal := devStep (fun d => d.barWrite 0x50004 v ntClrEffect) s

/-- RCP[r] word w (R232, R236): ignored while a context names the recipe, which is noted; the built-in recipes are read-only. -/
def rcpEffect (r w : Nat) (v : W32) (d : Dev) : Dev :=
  if d.cl.ops.any (fun o => o.ctxHeld != 0 && bfld o.body 48 15 6 == r) then d.sb aSM_STAT 0 true
  else if r < 16 then d
  else (Dev.plainWrite (aRCP r + 4 * w) v d).mirror (.reg (aRCP r + 4 * w) v)

/-- RCP_WRITE (R236): recipes 0 to 15 are read-only. -/
def execRcpWrite (r w : Nat) (v : W32) (s : State) : Host.Outcome State Fault Refusal :=
  devStep (fun d => d.when (decide (r < 64) && decide (w < 32)) (fun d => d.barWrite (aRCP r + 4 * w) v (rcpEffect r w))) s

/-- SM_CNT_CLR (R246). -/
def smCntClrEffect (v : W32) (d : Dev) : Dev := if bitAt v 0 then d.clearRegs aCNT_TALLY_LATE 4 4 else d

/-- SM_CNT_CLR (R246). -/
def execSmCntClr (v : W32) (s : State) : Host.Outcome State Fault Refusal := devStep (fun d => d.barWrite 0x60040 v smCntClrEffect) s

/-! ## Recipe instructions (R234), each on the run of a logical Smelter -/

/-- Change the run of a logical Smelter that stands. -/
def Dev.rcStep (d : Dev) (sm : Nat) (f : RcRun → RcRun) : Dev :=
  d.when (d.live && decide (sm < 64) && (d.smPhys sm).isSome) (fun d =>
    { d with sm := { d.sm with runs := mmod RcRun.init sm (fun x => { f x with pc := x.pc + 1 }) d.sm.runs } })

/-- RECIPE_NOP. -/
def execRcNop (sm : Nat) (f : RcFields) (s : State) : Host.Outcome State Fault Refusal := devStep (fun d => d.rcStep sm (fun x => x.exec 0 f)) s
/-- RECIPE_LDIN. -/
def execRcLdin (sm : Nat) (f : RcFields) (s : State) : Host.Outcome State Fault Refusal := devStep (fun d => d.rcStep sm (fun x => x.exec 1 f)) s
/-- RECIPE_LDACC. -/
def execRcLdacc (sm : Nat) (f : RcFields) (s : State) : Host.Outcome State Fault Refusal := devStep (fun d => d.rcStep sm (fun x => x.exec 2 f)) s
/-- RECIPE_STACC. -/
def execRcStacc (sm : Nat) (f : RcFields) (s : State) : Host.Outcome State Fault Refusal := devStep (fun d => d.rcStep sm (fun x => x.exec 3 f)) s
/-- RECIPE_RED. -/
def execRcRed (sm : Nat) (f : RcFields) (s : State) : Host.Outcome State Fault Refusal := devStep (fun d => d.rcStep sm (fun x => x.exec 4 f)) s
/-- RECIPE_ADD. -/
def execRcAdd (sm : Nat) (f : RcFields) (s : State) : Host.Outcome State Fault Refusal := devStep (fun d => d.rcStep sm (fun x => x.exec 5 f)) s
/-- RECIPE_MUL. -/
def execRcMul (sm : Nat) (f : RcFields) (s : State) : Host.Outcome State Fault Refusal := devStep (fun d => d.rcStep sm (fun x => x.exec 6 f)) s
/-- RECIPE_MAX. -/
def execRcMax (sm : Nat) (f : RcFields) (s : State) : Host.Outcome State Fault Refusal := devStep (fun d => d.rcStep sm (fun x => x.exec 7 f)) s
/-- RECIPE_MIN. -/
def execRcMin (sm : Nat) (f : RcFields) (s : State) : Host.Outcome State Fault Refusal := devStep (fun d => d.rcStep sm (fun x => x.exec 8 f)) s
/-- RECIPE_ABS. -/
def execRcAbs (sm : Nat) (f : RcFields) (s : State) : Host.Outcome State Fault Refusal := devStep (fun d => d.rcStep sm (fun x => x.exec 9 f)) s
/-- RECIPE_NEG. -/
def execRcNeg (sm : Nat) (f : RcFields) (s : State) : Host.Outcome State Fault Refusal := devStep (fun d => d.rcStep sm (fun x => x.exec 10 f)) s
/-- RECIPE_LDK. -/
def execRcLdk (sm : Nat) (f : RcFields) (s : State) : Host.Outcome State Fault Refusal := devStep (fun d => d.rcStep sm (fun x => x.exec 11 f)) s
/-- RECIPE_EMIT. -/
def execRcEmit (sm : Nat) (f : RcFields) (s : State) : Host.Outcome State Fault Refusal := devStep (fun d => d.rcStep sm (fun x => x.exec 12 f)) s

end Sys2Proof.Machine
end

