-- ==== Sys2Proof/Machine/Shards.lean ====
section
/-! DEFINITION. Shard sets (R330 to R341, R348 to R350, R360): records and images, frames and claims, the descriptors that define, fill
and read a set. Physical frames are counted and not named (log 16). -/

namespace Sys2Proof.Machine

def aUP_SET (s : Nat) : Nat := 0xD0000 + 0x20 * s
def aUP_POOL_FREE (d : Nat) : Nat := 0xC0030 + 4 * d
def aUP_FRAMES_FREE (d : Nat) : Nat := 0xC0040 + 4 * d

/-- A set's record. -/
def Dev.shard? (d : Dev) (s : Nat) : Option ShardSet := if s = 0 ∨ 4095 < s then none else mget none s d.sh.sets

/-- Set or remove a set's record. -/
def Dev.putShard (d : Dev) (s : Nat) (x : Option ShardSet) : Dev := { d with sh := { d.sh with sets := mput none s x d.sh.sets } }

/-- Change a set's record. -/
def Dev.modShard (d : Dev) (s : Nat) (f : ShardSet → ShardSet) : Dev := d.putShard s ((d.shard? s).map f)

/-- UP_SET[s].STATE: 0 NONE, 1 LOADING, 2 READY, 3 IN_DOUBT, 4 LOST (R361). -/
def Dev.shState (d : Dev) (s : Nat) : Nat := d.gf (aUP_SET s) 0 3

/-- Some set is in doubt: TW_STAT.DOUBT follows (R441). -/
def Dev.noteDoubt (d : Dev) : Dev := d.sb aTW_STAT 8 (d.sh.sets.any (fun e => d.shState e.1 == 3))

/-- Set a set's state. -/
def Dev.setShState (d : Dev) (s st : Nat) : Dev := (d.sf (aUP_SET s) 0 3 st).noteDoubt

/-- UP_SET[s].STEP. -/
def Dev.shStep (d : Dev) (s : Nat) : Nat := (d.rg (aUP_SET s + 4)).toNat

/-- BUSY: an update of the set is pending or running, or in doubt. -/
def Dev.shBusy (d : Dev) (s : Nat) : Bool := d.gb (aUP_SET s) 3 || d.shState s == 3

/-! ## Images (R334 to R338) -/

/-- A slice entry of an image. -/
def imgSlice (im : Bytes) (i : Nat) : Slice :=
  let e := sl im (64 + 16 * i) 16
  ⟨rdLE e 0 4, rdLE e 4 4, bfld e 8 0 5, bfld e 9 0 2⟩

/-- The slice entries of an image. -/
def imgSlices (im : Bytes) : List Slice := (List.range (rdLE im 8 2)).map (imgSlice im)

/-- The bytes of block entry `i` of an image. -/
def imgBlockBytes (im : Bytes) (i : Nat) : Bytes := sl im (64 + 16 * rdLE im 8 2 + 16 * i) 16

/-- A block entry of an image. -/
def imgBlock (im : Bytes) (i : Nat) : Block :=
  let e := imgBlockBytes im i
  ⟨rdLE e 0 4, rdLE e 4 4, bfld e 12 0 11, bfld e 12 11 11, bfld e 12 22 1 == 1, bfld e 12 23 1 == 1⟩

/-- The block entries of an image. -/
def imgBlocks (im : Bytes) : List Block := (List.range (rdLE im 12 4)).map (imgBlock im)

/-- The local slices. -/
def localSlices (xs : List Slice) : List Slice := xs.filter (fun x => x.owner == 0x1F)

/-- Slices tile the set from `p` on (R331). -/
def slicesTile (nparam p : Nat) : List Slice → Bool
  | [] => p == nparam
  | x :: xs => x.first == p && x.first % 4096 == 0 && (x.count % 4096 == 0 || x.first + x.count == nparam) &&
      slicesTile nparam (p + x.count) xs

/-- Blocks tile the local slices: `p` to `e` is what remains of the present slice. -/
def blocksTile (p e : Nat) (rest : List Slice) : List Block → Bool
  | [] => p == e && rest.all (fun x => x.count == 0)
  | b :: bs =>
    if p < e then b.first == p && decide (p + b.count ≤ e) && blocksTile (p + b.count) e rest bs
    else match rest.dropWhile (fun x => x.count == 0) with
      | [] => false
      | x :: xs => b.first == x.first && decide (b.count ≤ x.count) && blocksTile (x.first + b.count) (x.first + x.count) xs bs

/-- A code is finite. -/
def fpFinite (x : Nat) : Bool := decide (x % 2 ^ 31 < 0x7F800000)
/-- Finite and at least +0. -/
def fpNonneg (x : Nat) : Bool := fpFinite x && decide (x < 2 ^ 31)
/-- In [0, 1). -/
def fpUnit (x : Nat) : Bool := decide (x < 0x3F800000) || x == 2 ^ 31

/-- A block entry is well formed (R336, R337 step 5). -/
def blockOk (b : Block) : Bool :=
  if b.precond then decide (1 ≤ b.rows ∧ b.rows ≤ 1024 ∧ 1 ≤ b.cols ∧ b.cols ≤ 1024) && b.rows * b.cols == b.count
  else b.rows == 0 && b.cols == 0

/-- Step 5 of R337. -/
def Dev.shardImageOk (d : Dev) (im : Bytes) : Bool :=
  let ss := imgSlices im
  let bs := imgBlocks im
  match d.grp? (rdLE im 2 2) with
  | none => false
  | some g =>
    slicesTile (rdLE im 4 4) 0 ss && ss.all (fun x => x.owner == 0x1F || decide (x.owner < g.nnbr)) &&
    blocksTile 0 0 (localSlices ss) bs && bs.all blockOk &&
    fpUnit (rdLE im 16 4) && fpUnit (rdLE im 20 4) && fpUnit (rdLE im 28 4) && fpNonneg (rdLE im 24 4) &&
    (!bs.any (fun b => b.precond) || (fpNonneg (rdLE im 32 4) && rdLE im 32 4 != 0 && rdLE im 36 2 != 0 && rdLE im 38 2 != 0 &&
      bfld im 42 0 6 != 0 && rdLE im 40 2 != 0 && decide (rdLE im 40 2 ≤ rdLE im 38 2))) &&
    (localSlices ss).all (fun x => d.gf aAS_RESV (8 * x.deck) 6 != 0)

/-- The record of an image as accepted (R337). -/
def shardOfImage (im : Bytes) : ShardSet :=
  let bs := imgBlocks im
  { image := im, group := rdLE im 2 2, nparam := rdLE im 4 4, slices := imgSlices im, blocks := bs, beta1 := rdLE im 16 4,
    beta2 := rdLE im 20 4, eps := rdLE im 24 4, betaS := rdLE im 28 4, epsS := rdLE im 32 4, statEvery := rdLE im 36 2,
    rootEvery := rdLE im 38 2, rootSpread := rdLE im 40 2, rootIters := bfld im 42 0 6, view := rdLE im 48 4, sched := [],
    cur := { Version.init with bstep := mputs 0 0 ((List.range bs.length).map (fun i => rdLE (imgBlockBytes im i) 8 4)) [] },
    next := [], readers := 0, owedFrames := [0, 0, 0, 0] }

/-- The image with EPOCH and every FROZEN bit zero, for the comparison of R338. -/
def maskImage (im : Bytes) : Bytes :=
  (List.range (rdLE im 12 4)).foldl (fun im i =>
    let a := 64 + 16 * rdLE im 8 2 + 16 * i + 14
    putAt im a [(sl im a 1).headD 0 &&& 0xBF]) (putAt im 52 (toLE 4 0))

/-! ## Frames (R339, R341) -/

/-- Frames of an n × n matrix. -/
def matFrames (n : Nat) : Nat := cdiv (4 * n * n) 16384

/-- The deck of a parameter's slice. -/
def ShardSet.deckOf (x : ShardSet) (n : Nat) : Nat :=
  match (localSlices x.slices).find? (fun s => decide (s.first ≤ n) && decide (n < s.first + s.count)) with
  | some s => s.deck
  | none => 0

/-- The block of a parameter, by its number. -/
def ShardSet.blockOf (x : ShardSet) (n : Nat) : Option Nat :=
  (List.range x.blocks.length).find? (fun i => match x.blocks[i]? with
    | some b => decide (b.first ≤ n) && decide (n < b.first + b.count)
    | none => false)

/-- Block `i`. -/
def ShardSet.block (x : ShardSet) (i : Nat) : Block := x.blocks.getD i ⟨0, 0, 0, 0, false, false⟩

/-- PRECOND blocks on a deck that are not frozen. -/
def ShardSet.precondOn (x : ShardSet) (frozen : List Bool) (deck : Nat) : List Nat :=
  (List.range x.blocks.length).filter (fun i => (x.block i).precond && !frozen.getD i false && x.deckOf (x.block i).first == deck)

/-- Frames a committed version holds at a deck. -/
def ShardSet.heldFrames (x : ShardSet) (deck : Nat) : Nat :=
  ((localSlices x.slices).map (fun s => if s.deck = deck then 3 * cdiv s.count 4096 else 0)).sum +
  ((x.precondOn [] deck).map (fun i => 2 * matFrames (x.block i).rows + 2 * matFrames (x.block i).cols)).sum

/-- Frames of the planes that a step writes at a deck: those that hold a parameter of a block not frozen. -/
def ShardSet.planeFrames (x : ShardSet) (frozen : List Bool) (deck : Nat) : Nat :=
  ((localSlices x.slices).map (fun s => if s.deck = deck then
    3 * ((List.range (cdiv s.count 4096)).filter (fun f =>
      let lo := s.first + 4096 * f
      (x.blocks.zip (List.range x.blocks.length)).any (fun b => !frozen.getD b.2 false && decide (b.1.first < lo + 4096) &&
        decide (lo < b.1.first + b.1.count) && decide (0 < b.1.count) && decide (b.1.first < s.first + s.count) &&
        decide (s.first < b.1.first + b.1.count)))).length else 0)).sum

/-- The matrices of a refresh that begins now, in order (R348): 2i for Ls and 2i + 1 for Rs of block i. -/
def ShardSet.refreshMats (x : ShardSet) (frozen : List Bool) : List Nat :=
  (List.range x.blocks.length).flatMap (fun i => if (x.block i).precond && !frozen.getD i false then [2 * i, 2 * i + 1] else [])

/-- Units of one matrix. -/
def ShardSet.unitsPer (x : ShardSet) : Nat := 1 + 4 * x.rootIters

/-- The order of a matrix of a refresh. -/
def ShardSet.matOrder (x : ShardSet) (m : Nat) : Nat :=
  let b := x.block (m % 2 ^ 24 / 2)
  if m % 2 = 0 then b.rows else b.cols

/-- The refresh that a step works on (R348). -/
def ShardSet.refreshAt (x : ShardSet) (frozen : List Bool) (t : Nat) : Option (Nat × List Nat) :=
  let ms := x.refreshMats frozen
  if !ms.isEmpty && t % x.rootEvery == 0 then some (t, ms)
  else match x.cur.refresh with
    | some (t0, ms) => if t0 ≤ t ∧ t < t0 + x.rootSpread then some (t0, ms) else none
    | none => none

/-- The refresh that step `t` will work on when the counter stands at `cnt`: one that an earlier pending step begins counts too. -/
def ShardSet.refreshFor (x : ShardSet) (frozen : List Bool) (cnt t : Nat) : Option (Nat × List Nat) :=
  match x.refreshAt frozen t with
  | some r => some r
  | none =>
    let ms := x.refreshMats frozen
    if ms.isEmpty then none else
    let t0 := t / x.rootEvery * x.rootEvery
    if cnt < t0 ∧ t < t0 + x.rootSpread then some (t0, ms) else none

/-- The first unit of step t0 + j (R348). -/
def ShardSet.unitFrom (x : ShardSet) (ms : List Nat) (j : Nat) : Nat := j * (ms.length * x.unitsPer) / x.rootSpread

/-- A matrix of a refresh that will not be installed, since a unit of its block was skipped (R348), and which one it is. -/
def matSkipped (m : Nat) : Bool := decide (2 ^ 24 ≤ m)
def matId (m : Nat) : Nat := m % 2 ^ 24

/-- The units of a step as (matrix, phase): phase 0 is setup, 4i + k is unit Uk of iteration i. -/
def ShardSet.unitsAt (x : ShardSet) (r : Nat × List Nat) (t : Nat) : List (Nat × Nat) :=
  let lo := x.unitFrom r.2 (t - r.1)
  let hi := x.unitFrom r.2 (t - r.1 + 1)
  (List.range (hi - lo)).map (fun i => (matId (r.2.getD ((lo + i) / x.unitsPer) 0), (lo + i) % x.unitsPer))

/-- The matrices of a refresh at a deck whose block is not frozen. -/
def ShardSet.matsOn (x : ShardSet) (frozen : List Bool) (deck : Nat) (ms : List Nat) : List Nat :=
  ms.filter (fun m => !frozen.getD (matId m / 2) false && x.deckOf (x.block (matId m / 2)).first == deck)

/-- How many of X, M and T units of some phases of one matrix write (R347). -/
def planesWritten (ph : List Nat) : Nat :=
  (ph.any (fun p => p % 4 == 1 || p == 0)).toNat + (ph.any (fun p => p % 4 == 0)).toNat + (ph.any (fun p => p % 4 != 0)).toNat

/-- Frames that the units of step `t` of a refresh write at a deck; its last step installs the roots. -/
def ShardSet.unitFrames (x : ShardSet) (frozen : List Bool) (deck : Nat) (r : Nat × List Nat) (t : Nat) : Nat :=
  let us := x.unitsAt r t
  ((x.matsOn frozen deck r.2).map (fun m =>
    (planesWritten ((us.filter (fun u => u.1 == matId m)).map (fun u => u.2)) +
      (t + 1 == r.1 + x.rootSpread && !matSkipped m).toNat) * matFrames (x.matOrder m))).sum

/-- Statistics frames of a step at a deck (R346). -/
def ShardSet.statFrames (x : ShardSet) (frozen : List Bool) (deck t : Nat) : Nat :=
  if t % x.statEvery = 0 then
    ((x.precondOn frozen deck).map (fun i => matFrames (x.block i).rows + matFrames (x.block i).cols)).sum
  else 0

/-- Working frames of the gradient matrices at a deck (R346). -/
def ShardSet.gradFrames (x : ShardSet) (frozen : List Bool) (deck : Nat) : Nat :=
  ((x.precondOn frozen deck).map (fun i => cdiv (4 * (x.block i).count) 16384)).sum

/-- The frames that step t claims at a deck (R341). -/
def ShardSet.claimAt (x : ShardSet) (frozen : List Bool) (cnt t deck : Nat) : Nat :=
  x.planeFrames frozen deck + x.gradFrames frozen deck + x.statFrames frozen deck t +
  (match x.refreshFor frozen cnt t with
   | some r => x.unitFrames frozen deck r t
   | none => 0)

/-- The weights of the blocks of a refresh of `k` blocks in its step `j`: how many frames of Ls's order and of Rs's order the units of the
step write for the block at each position, the installed roots counted. -/
def ShardSet.stepWeights (x : ShardSet) (k j : Nat) : List (Nat × Nat) :=
  let u := x.unitsPer
  let lo := j * (2 * k * u) / x.rootSpread
  let hi := (j + 1) * (2 * k * u) / x.rootSpread
  let last := (j + 1 == x.rootSpread).toNat
  let planes := fun (m : Nat) => planesWritten ((List.range u).filter (fun ph => decide (lo ≤ m * u + ph) && decide (m * u + ph < hi))) + last
  (List.range k).map (fun i => (planes (2 * i), planes (2 * i + 1)))

/-- The largest sum that `ws` can make over a subsequence of blocks as long as itself, each block with the frames of its two orders. -/
def bestFrames (bs : List (Nat × Nat)) (ws : List (Nat × Nat)) : Nat :=
  let step := fun (row : List (Option Nat)) (b : Nat × Nat) =>
    row.headD none :: ((row.zip (row.drop 1)).zip ws).map (fun c =>
      match c.1.1 with
      | none => c.1.2
      | some n => some (max (c.1.2.getD 0) (n + c.2.1 * b.1 + c.2.2 * b.2)))
  ((bs.foldl step (some 0 :: ws.map (fun _ => none))).getLastD none).getD 0

/-- The step need of a set at a deck (R341): the largest claim that any step can make there. Every block may be unfrozen in the step, and any
blocks may have been frozen when its refresh began. -/
def ShardSet.needAt (x : ShardSet) (deck : Nat) : Nat :=
  let base := x.planeFrames [] deck + x.gradFrames [] deck
  let stat := x.statFrames [] deck 0
  let bs := (x.blocks.filter (fun b => b.precond)).map (fun b =>
    if x.deckOf b.first = deck then (matFrames b.rows, matFrames b.cols) else (0, 0))
  if bs.isEmpty then base else
  let g := Nat.gcd x.rootEvery x.statEvery
  (List.range bs.length).foldl (fun n k => (List.range x.rootSpread).foldl (fun n j =>
    max n (base + (if j % g = 0 then stat else 0) + bestFrames bs (x.stepWeights (k + 1) j))) n) (base + stat)

/-- UP_SET[s].CLAIM (R361): the frames that uncommitted updates of the set hold. -/
def Dev.noteClaim (d : Dev) (s : Nat) : Dev :=
  let held := d.cl.ops.filter (fun o => o.granted && rdLE o.body 0 1 == 0x28 && rdLE o.body 112 4 == s)
  d.wr (aUP_SET s + 16) (BitVec.ofNat 32 (held.map (fun o => o.claims.sum)).sum)

/-- Bytes of the view of a set (R340). -/
def ShardSet.viewBytes (x : ShardSet) : Nat :=
  let pad := fun n => cdiv n 4096 * 4096
  3 * pad (4 * ((localSlices x.slices).map (fun s => s.count)).sum) +
  ((x.blocks.filter (fun b => b.precond)).map (fun b => 2 * pad (4 * b.rows * b.rows) + 2 * pad (4 * b.cols * b.cols))).sum

/-- Bytes of the shard range (R362). -/
def Dev.shardBytes (d : Dev) : Nat := ((List.range 4).map (fun k => d.gf (aMEM_PART k) 0 7)).sum * 2 ^ 30

/-- Add to the free-frame counts of the decks, or take from them. -/
def Dev.addFree (d : Dev) (a : Nat → Nat) (n : Nat → Nat) : Dev :=
  (List.range 4).foldl (fun d k => d.wr (a k) (d.rg (a k) + BitVec.ofNat 32 (n k))) d
def Dev.subFree (d : Dev) (a : Nat → Nat) (n : Nat → Nat) : Dev :=
  (List.range 4).foldl (fun d k => d.wr (a k) (d.rg (a k) - BitVec.ofNat 32 (n k))) d

/-! ## SHARD_DEFINE (R333, R337, R338) -/

/-- Remove a set: its record, frames and view (R337 step 2). -/
def Dev.shardRemove (d : Dev) (s : Nat) (x : ShardSet) : Dev :=
  let d := d.addFree aUP_FRAMES_FREE x.heldFrames
  let d := { d with me := { d.me with badSets := d.me.badSets.filter (fun y => y != s) } }
  ((d.putShard s none).wrs (aUP_SET s) (List.replicate 8 0)).noteDoubt

/-- Step 6 of R337, the set's own earlier record counted as freed. -/
def Dev.shardRoom (d : Dev) (s : Nat) (x : ShardSet) : Bool :=
  let others := d.sh.sets.filterMap (fun e => if e.1 = s then none else e.2)
  let old := d.shard? s
  let sum := fun (f : ShardSet → Nat) => (others.map f).sum + f x
  let lo := x.view * 4096
  decide (lo + x.viewBytes ≤ d.shardBytes) &&
  others.all (fun y => decide (lo + x.viewBytes ≤ y.view * 4096) || decide (y.view * 4096 + y.viewBytes ≤ lo)) &&
  (List.range 4).all (fun k => decide (x.heldFrames k ≤ (d.rg (aUP_FRAMES_FREE k)).toNat + (match old with
    | some y => y.heldFrames k
    | none => 0))) &&
  decide (sum (fun y => y.slices.length) ≤ 65536) && decide (sum (fun y => y.blocks.length) ≤ 1048576) &&
  (List.range 4).all (fun k => decide (x.needAt k ≤ d.gf (aUP_POOL k) 0 16 * 256))

/-- Enter a definition that has passed every check: the set is LOADING. -/
def Dev.shardEnter (d : Dev) (s : Nat) (im : Bytes) : Dev :=
  let x := shardOfImage im
  let d := match d.shard? s with
    | some old => d.shardRemove s old
    | none => d
  let d := (d.putShard s (some x)).subFree aUP_FRAMES_FREE x.heldFrames
  (d.wrs (aUP_SET s) [1, BitVec.ofNat 32 (rdLE im 44 4), 0, 0, 0,
    BitVec.ofNat 32 (((List.range 4).map x.needAt).foldl max 0), 0, 0]).noteDoubt

/-- New FROZEN bits (R338). -/
def Dev.shardFlags (d : Dev) (s : Nat) (im : Bytes) : Dev :=
  d.modShard s (fun x => { x with blocks := (x.blocks.zip (imgBlocks im)).map (fun b => { b.1 with frozen := b.2.frozen }) })

/-- SHARD_DEFINE with its checks in order (R337): the device after it, and the status. -/
def Dev.shardDefine (d : Dev) (host : Bool) (ring : Nat) (bs im : Bytes) : Dev × Nat :=
  let s := rdLE bs 16 2
  let flags := rdLE bs 18 2
  let len := rdLE bs 20 4
  let im := padTo len im
  if s = 0 ∨ 4095 < s ∨ 4 ≤ flags then (d, stBAD_OPCODE)
  else if flags % 2 = 1 then
    if d.shBusy s then (d, stCONFLICT) else
    match d.shard? s with
    | none => (d, stOK)
    | some x => (d.shardRemove s x, stOK)
  else if len = 0xFFFFFFFF then (d, stLENGTH_RANGE)
  else if len = 0 then (d, stOK)
  else if host && !d.inWindow ring (rdLE bs 24 8) len then (d, stACCESS)
  else if rdLE im 0 2 ≠ s ∨ rdLE im 8 2 = 0 ∨ 256 < rdLE im 8 2 ∨ rdLE im 4 4 = 0 ∨ rdLE im 4 4 = 0xFFFFFFFF ∨ 262144 < rdLE im 12 4 ∨
      len ≠ 64 + 16 * (rdLE im 8 2 + rdLE im 12 4) then (d, stLENGTH_RANGE)
  else if 2 ≤ flags then
    match d.shard? s with
    | none => (d, stBAD_OPCODE)
    | some x => if maskImage im = maskImage x.image then (d.shardFlags s im, stOK) else (d, stBAD_OPCODE)
  else if !d.shardImageOk im then (d, stBAD_OPCODE)
  else if d.shBusy s || !d.shardRoom s (shardOfImage im) then (d, stCONFLICT)
  else (d.shardEnter s im, stOK)

/-- Take a SHARD_DEFINE descriptor of a ring whose FLAGS are those of a row: 0 and reserved ones define, bit 0 deletes, bit 1 alone
changes FROZEN bits. -/
def Dev.shardDesc (d : Dev) (r : Nat) (kind : Nat) (im : Bytes) : Dev :=
  let kindOf := fun (f : Nat) => if 4 ≤ f then 0 else if f % 2 = 1 then 1 else f
  match d.takeFetched r (fun f => f.ref.op == 0x30 && kindOf (rdLE f.bytes 18 2) == kind) with
  | none => d
  | some (f, d) =>
    let x := d.shardDefine true r f.bytes im
    let d := if x.2 = stOK then x.1.mirror (.desc f.bytes im) else x.1
    d.completeS f.ref x.2

/-- SHARD_DEFINE (R337). -/
def execShardDefine (r : Nat) (image : Bytes) (s : State) : Host.Outcome State Fault Refusal := devStep (fun d => d.shardDesc r 0 image) s

/-- SHARD_DELETE (R337). -/
def execShardDelete (r : Nat) (s : State) : Host.Outcome State Fault Refusal := devStep (fun d => d.shardDesc r 1 []) s

/-- SHARD_FLAGS_ONLY (R338). -/
def execShardFlagsOnly (r : Nat) (image : Bytes) (s : State) : Host.Outcome State Fault Refusal := devStep (fun d => d.shardDesc r 2 image) s

/-! ## SHARD_SCHED (R349) -/

/-- The schedule entry that applies to step t: the largest STEP_FROM no greater than t. -/
def schedAt (m : SMap SchedEnt) (t : Nat) : Option SchedEnt :=
  m.foldl (fun (acc : Option SchedEnt) e =>
    if e.2.stepFrom = 0xFFFFFFFF ∨ t < e.2.stepFrom then acc else match acc with
    | none => some e.2
    | some a => if a.stepFrom < e.2.stepFrom then some e.2 else acc) none

/-- The entries of an array. -/
def schedEntries (bs : Bytes) (n : Nat) : List SchedEnt :=
  (List.range n).map (fun i => ⟨rdLE bs (16 * i) 4, rdLE bs (16 * i + 4) 4, rdLE bs (16 * i + 8) 4⟩)

/-- An entry's rates are legal, and no two non-empty entries share a STEP_FROM (R349 step 5). -/
def schedOk (new : List SchedEnt) (all_ : SMap SchedEnt) : Bool :=
  new.all (fun e => e.stepFrom == 0xFFFFFFFF || (fpNonneg e.eta && fpNonneg e.lambda)) &&
  ((all_.filter (fun e => e.2.stepFrom != 0xFFFFFFFF)).map (fun e => e.2.stepFrom)).Nodup

/-- SHARD_SCHED with its checks in order. -/
def Dev.shardSched (d : Dev) (host : Bool) (ring : Nat) (bs data : Bytes) : Dev × Nat :=
  let s := rdLE bs 16 2
  let first := rdLE bs 18 2
  let n := rdLE bs 20 2
  match d.shard? s with
  | none => (d, stBAD_OPCODE)
  | some x =>
    if n = 0 then (d, stOK)
    else if n = 0xFFFF ∨ 256 < first + n then (d, stLENGTH_RANGE)
    else if host && !d.inWindow ring (rdLE bs 24 8) (16 * n) then (d, stACCESS)
    else
      let es := schedEntries (padTo (16 * n) data) n
      let m := mputs SchedEnt.empty first es x.sched
      let rates := fun (o : Option SchedEnt) => o.map (fun e => (e.eta, e.lambda))
      if !schedOk es m then (d, stBAD_OPCODE)
      else if d.cl.ops.any (fun o => rdLE o.body 0 1 == 0x28 && rdLE o.body 112 4 == s &&
          rates (schedAt m (rdLE o.body 116 4)) != rates (schedAt x.sched (rdLE o.body 116 4))) then (d, stCONFLICT)
      else (d.putShard s (some { x with sched := m }), stOK)

/-- SHARD_SCHED (R349). -/
def execShardSched (r : Nat) (entries : Bytes) (s : State) : Host.Outcome State Fault Refusal :=
  devStep (fun d => match d.takeFetched r (fun f => f.ref.op == 0x31) with
    | none => d
    | some (f, d) =>
      let x := d.shardSched true r f.bytes entries
      let d := if x.2 = stOK then x.1.mirror (.desc f.bytes entries) else x.1
      d.completeS f.ref x.2) s

/-! ## SHARD_IO (R360) -/

/-- A range of parameters lies within the local slices. -/
def ShardSet.holdsRange (x : ShardSet) (first n : Nat) : Bool :=
  let rec covers (p : Nat) : List Slice → Bool
    | [] => decide (first + n ≤ p)
    | s :: ss => if s.first ≤ p ∧ p < s.first + s.count then covers (s.first + s.count) ss else covers p ss
  covers first (localSlices x.slices)

/-- The number of the block whose FIRST a SHARD_IO names. -/
def ShardSet.blockAt (x : ShardSet) (first : Nat) : Option Nat := (List.range x.blocks.length).find? (fun i => (x.block i).first == first)

/-- The order of the matrix of a plane of a block. -/
def planeOrder (b : Block) (plane : Nat) : Nat := if plane = 3 ∨ plane = 5 then b.rows else b.cols

/-- The checks of R360: a status, or none. -/
def Dev.shardIoJudge (d : Dev) (ring : Nat) (bs : Bytes) : Option Nat :=
  let s := rdLE bs 16 2
  let op := bfld bs 18 0 2
  let plane := rdLE bs 19 1
  let first := rdLE bs 20 4
  let n := rdLE bs 24 4
  match d.shard? s with
  | none => some stBAD_OPCODE
  | some x =>
    let b := x.blockAt first
    let blk := x.block (b.getD 0)
    if op = 3 ∨ 8 ≤ plane ∨ (3 ≤ plane ∧ plane ≤ 6 ∧ b.isSome ∧ !blk.precond) then some stBAD_OPCODE
    else if op = 2 then (if d.shState s = 1 then none else some stCONFLICT)
    else if n = 0 then some stOK
    else if n = 0xFFFFFFFF then some stLENGTH_RANGE
    else if plane ≤ 2 ∧ !x.holdsRange first n then some stLENGTH_RANGE
    else if 3 ≤ plane ∧ plane ≤ 6 ∧ (b.isNone ∨ n ≠ planeOrder blk plane * planeOrder blk plane) then some stLENGTH_RANGE
    else if plane = 7 ∧ (b.isNone ∨ x.blocks.length < b.getD 0 + n) then some stLENGTH_RANGE
    else if !d.inWindow ring (rdLE bs 32 8) (4 * n) then some stACCESS
    else if (op = 0 ∧ d.shState s ≠ 1) ∨ (op = 1 ∧ d.shState s = 3) then some stCONFLICT
    else if op = 1 ∧ d.shState s = 4 then some stDATA_LOST
    else none

/-- The values of a plane of a version. -/
def ShardSet.planeValues (x : ShardSet) (plane first n : Nat) : List W32 :=
  let i := (x.blockAt first).getD 0
  let k := 2 ^ 20 * i
  let roots := fun (m : SMap (Option W32)) =>
    let o := planeOrder (x.block i) plane
    (List.range n).map (fun j => BitVec.ofNat 32 (rootLoad k o m (j / o) (j % o)))
  match plane with
  | 0 => mgets 0 first n x.cur.w
  | 1 => mgets 0 first n x.cur.m
  | 2 => mgets 0 first n x.cur.v
  | 3 => mgets 0 k n x.cur.ls
  | 4 => mgets 0 k n x.cur.rs
  | 5 => roots x.cur.lr
  | 6 => roots x.cur.rr
  | _ => (mgets 0 i n x.cur.bstep).map (BitVec.ofNat 32)

/-- Write the values of a plane in place. -/
def ShardSet.planeWrite (x : ShardSet) (plane first : Nat) (vs : List W32) : ShardSet :=
  let i := (x.blockAt first).getD 0
  let k := 2 ^ 20 * i
  let v := x.cur
  let v := match plane with
    | 0 => { v with w := mputs 0 first vs v.w }
    | 1 => { v with m := mputs 0 first vs v.m }
    | 2 => { v with v := mputs 0 first vs v.v }
    | 3 => { v with ls := mputs 0 k vs v.ls }
    | 4 => { v with rs := mputs 0 k vs v.rs }
    | 5 => { v with lr := mputs none k (vs.map some) v.lr }
    | 6 => { v with rr := mputs none k (vs.map some) v.rr }
    | _ => { v with bstep := mputs 0 i (vs.map (fun w => w.toNat)) v.bstep }
  { x with cur := v }

/-- The 32-bit values of bytes. -/
def wordsOf (bs : Bytes) : List W32 := (chunks 4 bs).map (fun c => BitVec.ofNat 32 (leNat c))

/-- Judge a SHARD_IO descriptor; a WRITE or READ that passes is a transfer until SHARD_IO_DONE. A READ takes the version committed at its
fetch. -/
def Dev.shardIoStart (d : Dev) (f : Fetched) : Dev :=
  match d.shardIoJudge f.ref.ring f.bytes with
  | some st => d.completeS f.ref st
  | none =>
    let s := rdLE f.bytes 16 2
    let read := bfld f.bytes 18 0 2 == 1
    let vals := match (if read then d.shard? s else none) with
      | some x => x.planeValues (rdLE f.bytes 19 1) (rdLE f.bytes 20 4) (rdLE f.bytes 24 4)
      | none => []
    let d := if read then d.modShard s (fun x => { x with readers := x.readers + 1 }) else d
    { d with sh := { d.sh with xfers := d.sh.xfers ++ [⟨d.sh.nextId, f.ref, f.bytes, vals, d.shStep s, false⟩], nextId := d.sh.nextId + 1 } }

/-- Take a SHARD_IO descriptor of a ring by its OP. -/
def Dev.takeShardIo (d : Dev) (r : Nat) (p : Nat → Bool) : Option (Fetched × Dev) :=
  d.takeFetched r (fun f => f.ref.op == 0x32 && p (bfld f.bytes 18 0 2))

/-- SHARD_IO_WRITE (R360). -/
def execShardIoWrite (r : Nat) (s : State) : Host.Outcome State Fault Refusal :=
  devStep (fun d => match d.takeShardIo r (fun op => op == 0 || op == 3) with
    | some (f, d) => d.shardIoStart f
    | none => d) s

/-- SHARD_IO_READ (R360). -/
def execShardIoRead (r : Nat) (s : State) : Host.Outcome State Fault Refusal :=
  devStep (fun d => match d.takeShardIo r (fun op => op == 1) with
    | some (f, d) => d.shardIoStart f
    | none => d) s

/-- SHARD_IO_SEAL (R360): LOADING to READY. -/
def execShardIoSeal (r : Nat) (s : State) : Host.Outcome State Fault Refusal :=
  devStep (fun d => match d.takeShardIo r (fun op => op == 2) with
    | none => d
    | some (f, d) => match d.shardIoJudge r f.bytes with
      | some st => d.completeS f.ref st
      | none => ((d.setShState (rdLE f.bytes 16 2) 2).mirror (.desc f.bytes [])).completeS f.ref stOK) s

/-- A READ of a set ends: frames that a flip replaced meanwhile return to the step pools (R360). -/
def Dev.readerEnd (d : Dev) (s : Nat) : Dev :=
  match d.shard? s with
  | none => d
  | some x =>
    if x.readers ≤ 1 then
      (d.putShard s (some { x with readers := 0, owedFrames := [0, 0, 0, 0] })).addFree aUP_POOL_FREE (fun k => x.owedFrames.getD k 0)
    else d.putShard s (some { x with readers := x.readers - 1 })

/-- End a transfer with a status (R360): a WRITE that succeeds writes `data`, a READ writes its values to host memory. -/
def Dev.shardIoEnd (d : Dev) (id status : Nat) (data : Bytes) : Dev :=
  match takeFirst (fun x : ShardXfer => x.id == id) d.sh.xfers with
  | none => d
  | some (x, rest) =>
    let d := { d with sh := { d.sh with xfers := rest } }
    let s := rdLE x.body 16 2
    if bfld x.body 18 0 2 = 1 then
      let d := if status = stOK ∧ x.ref.gen = d.hi.gen then d.emit (.hostWrite (rdLE x.body 32 8) (x.vals.flatMap (fun v => toLE 4 v.toNat)))
        else d
      (d.readerEnd s).complete x.ref { status := status, info := if status = stOK then x.step else 0 }
    else if status = stOK then
      let data := padTo (4 * rdLE x.body 24 4) data
      let d := d.modShard s (fun y => y.planeWrite (rdLE x.body 19 1) (rdLE x.body 20 4) (wordsOf data))
      (d.mirror (.desc x.body data)).completeS x.ref stOK
    else d.completeS x.ref status

/-! ## Registers (R361) -/

/-- The frames of a deck's shard partition outside the frame map and the committed frames of sets (R361). -/
def Dev.poolLimit (d : Dev) (k : Nat) : Nat :=
  let n := d.gf (aMEM_PART k) 0 7 * 65536
  n - cdiv n 2048 - (d.sh.sets.map (fun e => match e.2 with
    | some x => x.heldFrames k
    | none => 0)).sum

/-- UP_POOL[d] (R361): refused while any claim is held, below a set's need, or beyond the partition. -/
def upPoolEffect (k : Nat) (v : W32) (d : Dev) : Dev :=
  let n := fld v 0 16 * 256
  let claims := d.cl.ops.any (fun o => o.granted && o.claims.any (fun c => c != 0))
  if claims || d.sh.sets.any (fun e => e.2.any (fun x => decide (n < x.needAt k))) || decide (d.poolLimit k < n) then d.sb aUP_STAT 0 true
  else
    let old := d.gf (aUP_POOL k) 0 16 * 256
    let d := Dev.plainWrite (aUP_POOL k) v d
    let d := d.wr (aUP_POOL_FREE k) (d.rg (aUP_POOL_FREE k) + BitVec.ofNat 32 n - BitVec.ofNat 32 old)
    d.wr (aUP_FRAMES_FREE k) (d.rg (aUP_FRAMES_FREE k) + BitVec.ofNat 32 old - BitVec.ofNat 32 n)

/-- UP_POOL_WRITE (R361). -/
def execUpPoolWrite (k : Nat) (v : W32) (s : State) : Host.Outcome State Fault Refusal :=
  devStep (fun d => d.when (decide (k < 4)) (fun d => d.barWrite (aUP_POOL k) v (upPoolEffect k))) s

/-- UP_CNT_CLR (R361). -/
def upCntClrEffect (v : W32) (d : Dev) : Dev := if bitAt v 0 then d.clearRegs aCNT_UP_COMMIT 4 4 else d

/-- UP_CNT_CLR (R361). -/
def execUpCntClr (v : W32) (s : State) : Host.Outcome State Fault Refusal := devStep (fun d => d.barWrite 0xC0014 v upCntClrEffect) s

end Sys2Proof.Machine
end

