-- ==== Sys2Proof/Machine/Coll.lean ====
section
/-! DEFINITION. Operations of groups (chapters 8 and 9): a descriptor's fields, sizes and checks, the packets a device sends for an
operation, launch, failure, completion, and the waves. -/

namespace Sys2Proof.Machine

/-! ## A descriptor's fields (R255, R213) -/

namespace ClOp

def opc (o : ClOp) : Nat := rdLE o.body 0 1
def count (o : ClOp) : Nat := rdLE o.body 40 4
def root (o : ClOp) : Nat := bfld o.body 44 0 15
def opr (o : ClOp) : Nat := bfld o.body 48 0 3
def inFmt (o : ClOp) : Nat := bfld o.body 48 5 5
def outFmt (o : ClOp) : Nat := bfld o.body 48 10 5
def recipe (o : ClOp) : Nat := bfld o.body 48 15 6
def slots (o : ClOp) : Nat := rdLE o.body 52 2
def num (o : ClOp) : NumCtl := NumCtl.read (sl o.body 80 16)
def set (o : ClOp) : Nat := rdLE o.body 112 4
def step (o : ClOp) : Nat := rdLE o.body 116 4
def exact (o : ClOp) : Bool := bfld o.body 48 3 1 == 1 || o.num.strict
/-- A reducing opcode. -/
def reducing (o : ClOp) : Bool := o.opc == 0x20 || o.opc == 0x21 || o.opc == 0x22 || o.opc == 0x28
/-- REDUCE_UPDATE_GATHER. -/
def update (o : ClOp) : Bool := o.opc == 0x28
/-- Elements of a piece. -/
def e (o : ClOp) : Nat := pieceElems o.inFmt
/-- Elements of the whole reduced tensor, or of one sender's part or block. -/
def total (o : ClOp) (nmemb : Nat) : Nat := if o.opc = 0x22 then o.count * nmemb else o.count
/-- Pieces. -/
def pieces_ (o : ClOp) (nmemb : Nat) : Nat := cdiv (o.total nmemb) o.e
/-- Elements of piece `k`. -/
def len (o : ClOp) (nmemb k : Nat) : Nat := min o.e (o.total nmemb - k * o.e)
/-- The MODE of the strike. -/
def mode (o : ClOp) : Nat := bfld o.body 24 0 2

end ClOp

/-- The operation of a group and OPSEQ here. -/
def Dev.op? (d : Dev) (g q : Nat) : Option ClOp := d.cl.ops.find? (fun o => o.group == g && o.opseq == q)

/-- Change an operation. -/
def Dev.modOp (d : Dev) (g q : Nat) (f : ClOp → ClOp) : Dev :=
  { d with cl := { d.cl with ops := d.cl.ops.map (fun o => if o.group = g ∧ o.opseq = q then f o else o) } }

/-- Put an operation back. -/
def Dev.putOp (d : Dev) (o : ClOp) : Dev := d.modOp o.group o.opseq (fun _ => o)

/-- OPSEQ at or below LAST_OPSEQ (R258). -/
def staleSeq (x : Grp) (q : Nat) : Bool := decide ((BitVec.ofNat 32 q - x.last).toInt ≤ 0)

/-- An operation has ended here: its OPSEQ has joined and it is no longer listed. -/
def Dev.opEnded (d : Dev) (x : Grp) (q : Nat) : Bool := (d.op? x.num q).isNone && staleSeq x q

/-! ## Inputs and directions (R208) -/

/-- The slice of a set that holds a parameter. -/
def ShardSet.ownerOf (x : ShardSet) (n : Nat) : Nat :=
  match x.slices.find? (fun s => decide (s.first ≤ n) && decide (n < s.first + s.count)) with
  | some s => s.owner
  | none => 0x1F

/-- The neighbour toward the root of piece `k`; `none` where this device is the root. -/
def Dev.toward (d : Dev) (x : Grp) (o : ClOp) (k : Nat) : Option Nat :=
  match o.opc with
  | 0x21 => if d.memLocal x o.root then none else some (d.memVia x o.root)
  | 0x22 =>
    let r := k * o.e / o.count
    if d.memLocal x r then none else some (d.memVia x r)
  | 0x28 => match d.shard? o.set with
    | some s => let w := s.ownerOf (k * o.e)
                if w = 0x1F then none else some w
    | none => none
  | _ => if x.isHome then none else some x.home

/-- The inputs of a piece whose parent is `up`, ascending in input rank: rank and, for a partial sum, the neighbour. -/
def Dev.inputs (d : Dev) (x : Grp) (up : Option Nat) : List (Nat × Option Nat) :=
  let nbs := (List.range x.nnbr).filter (fun n => some n != up && d.nbMinRank x n != 0x7FFF)
  sortBy (fun a b => decide (a.1 ≤ b.1)) ((d.localRanks x).map (fun r => (r, none)) ++ nbs.map (fun n => (d.nbMinRank x n, some n)))

/-- The directions that an operation's pieces take at this device. -/
def Dev.directions (d : Dev) (x : Grp) (o : ClOp) : List (Option Nat) :=
  match o.opc with
  | 0x22 => (((List.range x.nmemb).map (fun r => if d.memLocal x r then none else some (d.memVia x r))).dedup)
  | 0x28 => match d.shard? o.set with
    | some s => ((s.slices.map (fun v => if v.owner = 0x1F then none else some v.owner)).dedup)
    | none => [none]
  | _ => [d.toward x o 0]

/-- Slots a piece needs (R224): the largest number of inputs in an exact context, else one. -/
def Dev.slotsPer (d : Dev) (x : Grp) (o : ClOp) : Nat :=
  if o.exact then ((d.directions x o).map (fun u => (d.inputs x u).length)).foldl max 0 else 1

/-- The recipe's sections and what its pieces run under. -/
def Dev.rcCtx (d : Dev) (o : ClOp) : RcCtx :=
  let h := d.rg (aRCP o.recipe)
  let word := fun (i : Nat) => d.rg (aRCP o.recipe + 4 * i)
  { opr := o.opr, accFmt := accOf o.inFmt, inFmt := o.inFmt, outFmt := if o.update then 1 else o.outFmt,
    arrive := (List.range (fld h 0 5)).map (fun i => word (1 + i)), fin := (List.range (fld h 5 5)).map (fun i => word (1 + fld h 0 5 + i)),
    out := OutBlock.read (sl o.body 64 16), num := o.num }

/-- A recipe is valid for an operator (R236, R238). -/
def Dev.recipeOk (d : Dev) (r opr : Nat) : Bool :=
  let h := d.rg (aRCP r)
  let al := fld h 0 5
  let fl := fld h 5 5
  let ops := fun (lo n : Nat) => (List.range n).map (fun i => rcOp (d.rg (aRCP r + 4 * (lo + i))))
  let cnt := fun (k : Nat) (xs : List Nat) => (xs.filter (fun x => x == k)).length
  let a := ops 1 al
  let f := ops (1 + al) fl
  bitAt h 31 && decide (al + fl ≤ 31) && (a ++ f).all (fun x => decide (x ≤ 12)) &&
  cnt 1 a == 1 && cnt 3 a == 1 && cnt 12 a == 0 && cnt 12 f == 1 && cnt 1 f == 0 && cnt 3 f == 0 &&
  (r != 1 || opr == 0) && (r != 2 || opr == 2)

/-! ## Sizes of data -/

/-- Pieces a packet may carry, from the table of R209. -/
def maxPieces (fmt : Nat) (part : Bool) : Nat :=
  if part then 1 else
  match fmt with
  | 4 => 4
  | 5 => 4
  | 12 => 4
  | 11 => 8
  | 6 => 3
  | 7 => 3
  | 8 => 5
  | 9 => 5
  | 10 => 7
  | _ => 2

/-- Bytes of data a local member is to receive in the end. -/
def ClOp.expects (o : ClOp) (nmemb rank : Nat) : Nat :=
  let one := tensorBytes o.inFmt o.count
  match o.opc with
  | 0x20 => tensorBytes o.outFmt o.count
  | 0x21 => if rank = o.root then tensorBytes o.outFmt o.count else 0
  | 0x22 => tensorBytes o.outFmt o.count
  | 0x23 => (nmemb - 1) * one
  | 0x24 => if rank = o.root then 0 else one
  | 0x25 => (nmemb - 1) * one
  | 0x26 => ((List.range nmemb).map (fun q => if q = rank then 0 else tensorBytes o.inFmt (mget 0 (65536 * rank + q) o.counts))).sum
  | 0x28 => tensorBytes o.outFmt o.count
  | _ => 0

/-- Pieces of its own that a local member is to send, as (target, pieces). -/
def ClOp.sends (o : ClOp) (nmemb rank : Nat) : List (Nat × Nat) :=
  let n := cdiv o.count o.e
  match o.opc with
  | 0x23 => [(0, n)]
  | 0x24 => if rank = o.root then [(0, n)] else []
  | 0x25 => ((List.range nmemb).filter (fun j => j != rank)).map (fun j => (j, n))
  | 0x26 => ((List.range nmemb).filter (fun j => j != rank)).map (fun j => (j, cdiv (mget 0 (65536 * rank + j) o.sentCounts) o.e))
  | _ => []

/-- The LIMIT a local member is granted in the end by an operation that does not reduce (R260, R263). -/
def ClOp.limitFor (o : ClOp) (nmemb rank : Nat) : Nat := ((o.sends nmemb rank).map (fun s => s.2)).sum

/-! ## Packets that a device sends for an operation -/

/-- Send on branches from the unit of no name (R123). -/
def Dev.opSend (d : Dev) (x : Grp) (p : Pkt) (bs : List Branch) : Dev := d.sendBranches (noUnit x.num) p bs

/-- SM_GRANT to a local member (R210, R260). -/
def Dev.grantRank (d : Dev) (x : Grp) (o : ClOp) (rank limit : Nat) : Dev :=
  let p := mkPkt x.tc 3 0xE1 (d.memEp x rank) 0 0 x.num 0 limit o.opseq []
  d.opSend x p [d.toMember x p none rank]

/-- SM_GRANT to a child device. -/
def Dev.grantNb (d : Dev) (x : Grp) (o : ClOp) (n limit : Nat) : Dev :=
  let p := mkPkt x.tc 3 0xE1 0 0 0 x.num 0 limit o.opseq []
  d.opSend x p [d.toNb x p none n]

/-- The children that are inputs of some piece. -/
def Dev.childInputs (d : Dev) (x : Grp) (o : ClOp) : List Nat :=
  (((d.directions x o).flatMap (fun u => (d.inputs x u).filterMap (fun i => i.2))).dedup)

/-- The window's LIMIT (R210). -/
def ClOp.windowLimit (o : ClOp) (nmemb : Nat) : Nat := min (o.low + o.w) (o.pieces_ nmemb)

/-- A piece is complete at this device: the lowest incomplete one moves on (R210). -/
def ClOp.completePiece (o : ClOp) (k : Nat) : ClOp :=
  let done := k :: o.done
  let n := ((List.range (done.length + 1)).find? (fun i => !done.contains (o.low + i))).getD 0
  { o with low := o.low + n, done := done.filter (fun j => decide (o.low + n ≤ j)), pieces := merase k o.pieces }

/-- Send the grants of a LIMIT that has risen (R210). -/
def Dev.raiseLimit (d : Dev) (x : Grp) (o : ClOp) : Dev :=
  let lim := o.windowLimit x.nmemb
  if lim ≤ o.limit ∨ !o.launched then d else
  let d := d.modOp o.group o.opseq (fun o => { o with limit := lim })
  let d := ((d.localRanks x).filter (fun r => o.grants.contains (d.memVia x r))).foldl (fun d r => d.grantRank x o r lim) d
  (d.childInputs x o).foldl (fun d n => d.grantNb x o n lim) d

/-- Grant a local rank that has joined a launched operation (R260). -/
def Dev.grantJoined (d : Dev) (x : Grp) (o : ClOp) (rank : Nat) : Dev :=
  let lim := if o.reducing then o.limit else if o.opc = 0x26 then 0 else o.limitFor x.nmemb rank
  (d.modOp o.group o.opseq (fun o => { o with grants := d.memVia x rank :: o.grants })).grantRank x o rank lim

/-- The header words of a CL_DATA packet (R261). -/
def clArg0 (piece srank : Nat) (result : Bool) (np : Nat) : Nat :=
  piece % 2 ^ 32 + srank % 2 ^ 15 * 2 ^ 32 + result.toNat * 2 ^ 47 + np * 2 ^ 48

/-- Whether a branch goes to a local member, and which one. -/
def Dev.branchRank (d : Dev) (x : Grp) (b : Branch) : Option Nat :=
  match b with
  | .port p => d.rankAt x p
  | _ => none

/-- Count the bytes of data that branches carry to local members. -/
def Dev.noteBytes (d : Dev) (x : Grp) (g q n : Nat) (bs : List Branch) : Dev :=
  let put := fun (m : SMap Nat) (b : Branch) => match d.branchRank x b with
    | some r => mmod 0 r (fun k => k + n) m
    | none => m
  d.modOp g q (fun o => { o with bytes := bs.foldl put o.bytes })

/-- The branches of a result (R262). -/
def Dev.resultBranches (d : Dev) (x : Grp) (o : ClOp) (piece : Nat) (p : Pkt) (src : Option Nat) : List Branch :=
  match o.opc with
  | 0x21 => [d.towardRank x p src o.root]
  | 0x22 => [d.towardRank x p src (piece * o.e / o.count)]
  | _ => d.multicastBranches x p src

/-- Send a piece's result from a Smelter or bench (R262); a piece of more than 4,096 bytes takes two packets (log 17). -/
def Dev.sendResult (d : Dev) (x : Grp) (o : ClOp) (unit piece : Nat) (body : Bytes) : Dev :=
  let idx := if o.opc = 0x22 then piece - piece * o.e / o.count * (o.count / o.e) else piece
  (chunks 4096 body).foldl (fun d part =>
    let p := mkPkt x.tc 1 0xE3 0 0 o.outFmt x.num 0 (clArg0 idx 0 true 1) o.opseq part
    let bs := d.resultBranches x o piece p none
    (d.noteBytes x o.group o.opseq part.length bs).sendBranches unit p bs) d

/-- Send a complete partial sum toward the root (R239). -/
def Dev.sendPart (d : Dev) (x : Grp) (o : ClOp) (n unit piece : Nat) (acc : List Nat) : Dev :=
  let f := accOf o.inFmt
  let rank := ((d.inputs x (some n)).headD (0, none)).1
  let p := mkPkt x.tc 3 0xE0 0 0 f x.num 0 (piece % 2 ^ 32 + rank % 2 ^ 15 * 2 ^ 32 + 2 ^ 47 + 2 ^ 48) o.opseq (packTensor f acc)
  d.sendBranches unit p [d.toNb x p none n]

/-- CL_DONE (R264). -/
def clDonePkt (x : Grp) (q : Nat) (down counts : Bool) (w : Wave) : Pkt :=
  mkPkt x.tc 3 0xE4 0 0 0 x.num 0 (down.toNat + 2 * counts.toNat) q
    (toLE 16 w.hall ++ toLE 4 w.flags ++ toLE 1 w.ieee ++ toLE 3 0 ++ toLE 8 w.vote)

/-- The payload of a CL_DONE. -/
def waveOf (b : Bytes) : Wave := ⟨rdLE b 0 16, rdLE b 16 4, bfld b 20 0 5, rdLE b 24 8⟩

/-- Send a CL_DONE to a neighbour. -/
def Dev.sendDone (d : Dev) (x : Grp) (q n : Nat) (down counts : Bool) (w : Wave) : Dev :=
  let p := clDonePkt x q down counts w
  d.opSend x p [d.toNb x p none n]

/-- Send an SM_ABORT to every neighbour but one (R229). -/
def Dev.sendAbort (d : Dev) (x : Grp) (q status : Nat) (but : Option Nat) : Dev :=
  let p := mkPkt x.tc 2 0xE2 0 0 0 x.num 0 status q []
  ((List.range x.nnbr).filter (fun n => some n != but)).foldl (fun d n => d.opSend x p [d.toNb x p none n]) d

/-! ## Pools (R223, R230, R231) -/

/-- Slots return to a pool; the general pool first pays what it owes the floor (R231). -/
def Dev.freeSlots (d : Dev) (floor : Bool) (n : Nat) : Dev :=
  if floor then d.sf 0x60010 0 16 (d.gf 0x60010 0 16 + n)
  else
    let pay := min d.sm.owed n
    let d := { d with sm := { d.sm with owed := d.sm.owed - pay } }
    (d.sf 0x60010 0 16 (d.gf 0x60010 0 16 + pay)).sf 0x6000C 0 16 (d.gf 0x6000C 0 16 + (n - pay))

/-- The pool register of a class. -/
def poolReg (floor : Bool) : Nat := if floor then 0x60010 else 0x6000C

/-- Free exact-capable contexts of a pool, as a field. -/
def Dev.exactFree (d : Dev) (floor : Bool) : Nat := if floor then d.gf 0x60014 16 7 else d.gf 0x60014 0 9
def Dev.setExact (d : Dev) (floor : Bool) (n : Nat) : Dev := if floor then d.sf 0x60014 16 7 n else d.sf 0x60014 0 9 n

/-- A context returns to its pool. -/
def Dev.freeCtx (d : Dev) (floor : Bool) (held : Nat) : Dev :=
  if held = 0 then d else
  let d := d.sf (poolReg floor) 16 12 (d.gf (poolReg floor) 16 12 + 1)
  if held = 2 then d.setExact floor (d.exactFree floor + 1) else d

/-- The slots a reducing operation still needs (R230): P for each position of the window that some piece not complete uses. -/
def ClOp.slotsNeeded (o : ClOp) (nmemb : Nat) : Nat :=
  let n := o.pieces_ nmemb
  o.p * ((List.range (min o.w (n - o.low))).filter (fun i => !o.done.contains (o.low + i) || decide (o.low + i + o.w < n))).length

/-- Return the slots that no later piece will use. -/
def Dev.trimSlots (d : Dev) (x : Grp) (o : ClOp) : Dev :=
  if !o.reducing then d else
  let n := min o.held (o.slotsNeeded x.nmemb)
  (d.modOp o.group o.opseq (fun o => { o with held := n })).freeSlots (x.tc == 0) (o.held - n)

/-! ## The end of an operation -/

/-- The uncommitted version of an operation, of the set it names. -/
def Dev.version? (d : Dev) (o : ClOp) : Option (ShardSet × Version) :=
  match d.shard? o.set with
  | none => none
  | some x => (x.next.find? (fun v => v.1 == o.group && v.2.1 == o.opseq)).map (fun v => (x, v.2.2))

/-- The versions of a set but the one an operation writes. -/
def ShardSet.without (x : ShardSet) (o : ClOp) : ShardSet :=
  { x with next := x.next.filter (fun v => !(v.1 == o.group && v.2.1 == o.opseq)) }

/-- The uncommitted version of an operation is dropped (R341, R355). -/
def Dev.dropVersion (d : Dev) (o : ClOp) : Dev := if o.update then d.modShard o.set (fun x => x.without o) else d

/-- Packets held for an operation that launches are consumed or routed now; one that has ended discards them (R109). -/
def Dev.wakeEarly (d : Dev) (g q : Nat) : Dev :=
  { d with fb := { d.fb with pkts := d.fb.pkts.map (fun (b : BPkt) =>
      if b.place = Place.early ∧ b.pkt.group = g ∧ b.pkt.arg1 = q then { b with place := Place.inbox } else b) } }

/-- Release everything an operation holds here: tally, context, claims, comparators, packets held for it (R229, R230). -/
def Dev.opRelease (d : Dev) (x : Grp) (o : ClOp) : Dev :=
  let floor := x.tc == 0
  let d := (d.freeSlots floor o.held).freeCtx floor o.ctxHeld
  let d := if o.granted then d.addFree aUP_POOL_FREE (fun k => o.claims.getD k 0) else d
  let d := (d.dropCmp (.launchCl o.group o.opseq)).dropCmp (.commit o.group o.opseq)
  let d := { d with cl := { d.cl with ops := d.cl.ops.filter (fun y => !(y.group == o.group && y.opseq == o.opseq)) } }
  let d := if o.update then (d.sb (aUP_SET o.set) 3 (d.cl.ops.any (fun y => y.update && y.set == o.set))).noteClaim o.set else d
  let d := d.wakeEarly o.group o.opseq
  if o.joins.isEmpty then d else d.sf (aGR x.slot + 28) 0 16 (d.gf (aGR x.slot + 28) 0 16 - 1)

/-- The flags of R404 as an operation's completions here carry them. -/
def ClOp.cplFlags (o : ClOp) (flags : Nat) : Nat := if o.fencedEp.isSome then flags ||| 32 else flags

/-- Complete every local descriptor of an operation; `own` gives a status of its own to some ranks. -/
def Dev.opComplete (d : Dev) (o : ClOp) (c : Cpl) (own : Option Nat → Nat) : Dev :=
  o.joins.foldl (fun d j =>
    d.complete j.2 { c with status := own j.1, flags := o.cplFlags c.flags, member := o.fencedEp.getD 0 }) d

/-- Bench, Smelter or fabric: drop what a twin's comparison of an operation left at the follower (R434). -/
def Dev.twinTell (d : Dev) (o : ClOp) (kind outcome : Nat) : Dev :=
  if d.lead && o.twin.compare then
    d.originate 66 (mkPkt 0 1 0xEF 0 0 0 o.group 0 (kind + 4 * outcome) o.opseq []) [256]
  else d

/-- Data of an operation that has failed and was held for a local member without a grant is delivered to no one (R262). -/
def Dev.dropHeld (d : Dev) (o : ClOp) : Dev :=
  let is := fun (x : Pkt) => x.opcode == 0xE3 && x.group == o.group && x.arg1 == o.opseq
  let shut := fun (p : Nat) => d.kind p == 1 && !o.opened.contains p
  let d := d.fb.pkts.foldl (fun d b =>
    if is b.pkt then (b.copies.filter (fun c => shut c.port)).foldl (fun d c => d.dropCopy b.id c.port) d else d) d
  { d with fb := { d.fb with unitWait := d.fb.unitWait.map (fun w => if is w.2.1 then (w.1, w.2.1, w.2.2.filter (fun p => !shut p)) else w) } }

/-- An operation has failed at this device (R229): its later SM_PARTs are discarded without counting. -/
def Dev.noteGone (d : Dev) (g q : Nat) : Dev :=
  if d.cl.gone.contains (g, q) then d else { d with cl := { d.cl with gone := d.cl.gone ++ [(g, q)] } }

/-- An operation fails here (R229): `tell` sends SM_ABORT to the other devices, but not back to `but`. After its upward wave an update
no longer fails (R353). -/
def Dev.opFail (d : Dev) (g q status : Nat) (tell : Bool) (but : Option Nat) : Dev :=
  match d.op? g q, d.grp? g with
  | some o, some x =>
    if o.update && (o.upSent || o.decision.isSome) then d else
    let d := ((if tell then d.sendAbort x q status but else d).noteGone g q).dropHeld o
    let fencedNow := fun (r : Nat) => d.fenced (d.memEp x r) && !o.fenced0.contains r
    let own := fun (r : Option Nat) => match r with
      | some r => if status = stMEMBER_FENCED ∧ fencedNow r then stUNIT_FENCED else status
      | none => status
    let d := (d.twinTell o 1 1).dropVersion o
    let d := d.opRelease x o
    let d := if o.doubt && d.shState o.set == 3 then d.setShState o.set 2 else d
    let d := d.hmNote o.opc status g q (if o.update then o.step else 0) o.part
    d.opComplete o { status := status, flags := o.flags, ieee := o.ieee } own
  | _, _ => d

/-- An operation that is not an update commits here with the downward wave (R265, R266). -/
def Dev.opCommit (d : Dev) (o : ClOp) (x : Grp) (w : Wave) : Dev :=
  let d := d.opRelease x o
  let d := (d.count aCNT_CL_DONE).hmNote o.opc stOK o.group o.opseq 0 o.part
  d.opComplete o { status := stOK, flags := w.flags, ieee := w.ieee, hall := w.hall } (fun _ => stOK)

/-! ## Launch (R259, R260) -/

/-- The grants of a launch. -/
def Dev.launchGrants (d : Dev) (x : Grp) (o : ClOp) : Dev :=
  let lim := if o.reducing then o.windowLimit x.nmemb else 0
  let d := d.modOp o.group o.opseq (fun o => { o with limit := lim })
  let o := { o with limit := lim }
  let d := (o.joins.filterMap (fun j => j.1)).foldl (fun d r => d.grantJoined x o r) d
  if o.reducing then (d.childInputs x o).foldl (fun d n => d.grantNb x o n lim) d else d

/-! ## The part and the waves (R264) -/

/-- Every expected descriptor has joined. -/
def ClOp.allJoined (o : ClOp) (x : Grp) : Bool := o.joins.length == max 1 x.nlocal

/-- Every contribution of a local member has been taken in. -/
def Dev.contributed (d : Dev) (x : Grp) (o : ClOp) : Bool :=
  if o.reducing then o.low == o.pieces_ x.nmemb && o.waiting.isEmpty
  else (d.localRanks x).all (fun r => (o.sends x.nmemb r).all (fun s =>
    (o.taken.filter (fun t => t.1 == r && t.2.1 == s.1)).length == s.2))

/-- Data of an operation still stands here for the member behind a port, or waits for its acknowledgement. -/
def Dev.dataAt (d : Dev) (g q p : Nat) : Bool :=
  let is := fun (h : Nat) => nfld h 24 8 == 0xE3 && nfld h 112 16 == g && nfld h 224 32 == q
  d.fb.pkts.any (fun b => is b.pkt.hdr && (b.copies.any (fun c => c.port == p) || (d.port p).tx.any (fun t => t.id == b.id))) ||
  d.fb.unitWait.any (fun w => is w.2.1.hdr && w.2.2.contains p) ||
  d.fb.unacked.any (fun u => u.port == p && is u.pkt.hdr)

/-- Every result copy for the local members has been acknowledged (R264). -/
def Dev.delivered (d : Dev) (x : Grp) (o : ClOp) : Bool :=
  (d.localRanks x).all (fun r => decide (o.expects x.nmemb r ≤ mget 0 r o.bytes) && !d.dataAt o.group o.opseq (d.memVia x r))

/-- The whole step of an update is written here (R353), and the twin's answer is in (R434). -/
def Dev.updateReady (d : Dev) (x : Grp) (o : ClOp) : Bool :=
  if !o.update then true else
  o.unitsRun && (List.range (o.pieces_ x.nmemb)).all (fun k => (d.toward x o k).isSome || o.updated.contains k) &&
    (!o.twin.compare || o.twin.settled)

/-- What this device's subtree reports (R264, R265): the flags of the operation here, and those of R10 and R140. -/
def Dev.upWave (d : Dev) (o : ClOp) : Wave :=
  let own : Wave := ⟨o.part, o.cplFlags o.flags ||| (if d.shapeLost then 64 else 0), o.ieee, if o.update then 3 * o.skew.toNat + 256 * o.skew.toNat + 2 ^ 32 * min 0xFFFFFFFF o.frozen else 0⟩
  o.ups.foldl (fun w u =>
    let v := u.2
    { hall := (w.hall + v.hall) % 2 ^ 128, flags := w.flags ||| v.flags, ieee := w.ieee ||| v.ieee,
      vote := (nfld w.vote 0 2 ||| nfld v.vote 0 2) + 256 * min 255 (nfld w.vote 8 8 + nfld v.vote 8 8) +
        2 ^ 32 * min 0xFFFFFFFF (nfld w.vote 32 32 + nfld v.vote 32 32) }) own

/-- The conditions of the upward wave hold. -/
def Dev.upReady (d : Dev) (x : Grp) (o : ClOp) : Bool :=
  o.launched && !o.upSent && o.allJoined x && d.contributed x o && d.delivered x o && d.updateReady x o &&
  (o.opc != 0x26 || o.countDone) && x.children.all (fun n => (mget? n o.ups).isSome)

/-- The receive vectors of the local members are whole (R263). -/
def Dev.vectorsWhole (d : Dev) (x : Grp) (o : ClOp) : Bool :=
  (d.localRanks x).all (fun m => (List.range x.nmemb).all (fun r => r == m || (mget? (65536 * m + r) o.counts).isSome))

/-- The count phase is over (R263): each local member gets its receive vector and then its grant. -/
def Dev.countsOver (d : Dev) (x : Grp) (g q : Nat) (src : Option Nat) : Dev :=
  match d.op? g q with
  | none => d
  | some o =>
    let d := ((List.range x.nnbr).filter (fun n => some n != src)).foldl (fun d n => d.sendDone x q n true true Wave.zero) d
    let d := d.modOp g q (fun o => { o with countDone := true, timer := d.now })
    (d.localRanks x).foldl (fun d m =>
      let vec := (List.range x.nmemb).map (fun r => mget 0 (65536 * m + r) o.counts)
      let cs := chunks 1024 vec
      let d := (cs.zip (List.range cs.length)).foldl (fun d c =>
        let p := mkPkt x.tc 3 0xE5 (d.memEp x m) 0 0 g 0 (1024 * c.2 + 2 ^ 46) q (c.1.flatMap (toLE 4))
        d.opSend x p [d.toMember x p none m]) d
      d.grantRank x o m (o.limitFor x.nmemb m)) d

/-- Store counts in an operation's map, unlisted ones being absent: zero is listed too. -/
def putCount (k n : Nat) (m : SMap Nat) : SMap Nat := minsert k n m

end Sys2Proof.Machine
end

