-- ==== Sys2Proof/Machine/Update.lean ====
section
/-! DEFINITION. The step of an update at one device (R342 to R359): launch, the pieces on the update benches, the units of a root
refresh, the flip, and the decision. -/

namespace Sys2Proof.Machine

/-! ## Benches (R11, R14, R301) -/

/-- Logical benches of a deck under the profile (R11). -/
def Dev.perDeck (d : Dev) : Nat := if d.gb aAS_PROFILE 0 then 24 else 32

/-- A logical bench is live (AS_LIVE). -/
def Dev.benchLive (d : Dev) (b : Nat) : Bool := decide (b < 4 * d.perDeck) && d.gb (aAS_LIVE (b / 32)) (b % 32)

/-- The live logical benches of a deck, ascending. -/
def Dev.deckLive (d : Dev) (k : Nat) : List Nat := ((List.range d.perDeck).map (fun i => k * d.perDeck + i)).filter d.benchLive

/-- The update benches of a deck: its highest-numbered AS_RESV.DECK live logical benches. -/
def Dev.updBenches (d : Dev) (k : Nat) : List Nat :=
  let l := d.deckLive k
  l.drop (l.length - d.gf aAS_RESV (8 * k) 6)

/-! ## The rule over one set's version -/

/-- What the elements of block `i` are updated under (R343, R349). -/
def ruleFor (o : ClOp) (x : ShardSet) (i : Nat) : URule :=
  let n := mget 0 i x.cur.bstep
  let st := o.num.strict
  let rs := [oneMinus st x.beta1, oneMinus st x.beta2, biasCorr st x.beta1 n, biasCorr st x.beta2 n]
  let code := fun (i : Nat) => (rs.getD i { code := 0 }).code
  { strict := st, beta1 := x.beta1, beta2 := x.beta2, eps := x.eps, eta := o.eta, lambda := o.lambda, omb1 := code 0, omb2 := code 1,
    bc1 := code 2, bc2 := code 3, ieee := rs.foldl (fun n r => n ||| r.ieee) 0 }

/-- A stored value of a plane. -/
def planeAt (m : SMap W32) (n : Nat) : Nat := (mget 0 n m).toNat

/-- One element of a PLAIN block (R342): its new values in the new version. -/
def plainElem (c : URule) (x : ShardSet) (n g : Nat) (v : Version) (u : UAcc) : Version × UAcc :=
  let r := c.moments n g (planeAt x.cur.m n) (planeAt x.cur.v n) u
  let w := c.weight n (planeAt x.cur.w n) r.2.2.1 r.2.2.2
  ({ v with w := mput 0 n (BitVec.ofNat 32 w.1) v.w, m := mput 0 n (BitVec.ofNat 32 r.1) v.m, v := mput 0 n (BitVec.ofNat 32 r.2.1) v.v }, w.2)

/-- The whole of a PRECOND block (R346): `stat` at a statistics step. -/
def precondBlock (c : URule) (x : ShardSet) (i : Nat) (stat : Bool) (g : Nat → Nat) (v : Version) (u : UAcc) : Version × UAcc :=
  let st := c.strict
  let b := x.block i
  let r := b.rows
  let k := b.cols
  let f := b.first
  let key := 2 ^ 20 * i
  let es := (List.range b.count).foldl (fun (s : List (Nat × Nat × Nat) × UAcc) j =>
    let p := c.moments (f + j) (g (f + j)) (planeAt x.cur.m (f + j)) (planeAt x.cur.v (f + j)) s.2
    (s.1 ++ [(p.1, p.2.1, p.2.2.1)], p.2.2.2)) ([], u)
  let lr := rootLoad key r x.cur.lr
  let rr := rootLoad key k x.cur.rr
  let entries := fun (n : Nat) (a : Nat → Nat → Nat) => (List.range n).flatMap (fun p => (List.range n).map (a p))
  let u := es.2.recv 22 f (entries r lr ++ entries k rr)
  let at_ := fun (i j : Nat) => f + i * k + j
  let y := matMul st 22 at_ r r k lr (fun p q => (es.1.getD (p * k + q) (0, 0, 0)).2.2) u
  let dir := matMul st 22 at_ r k k (matAt y.1) rr y.2
  let ws := (List.range b.count).foldl (fun (s : List Nat × UAcc) j =>
    let w := c.weight (f + j) (planeAt x.cur.w (f + j)) (matAt dir.1 (j / k) (j % k)) s.2
    (s.1 ++ [w.1], w.2)) ([], dir.2)
  let put := fun (xs : List Nat) (m : SMap W32) => mputs 0 f (xs.map (BitVec.ofNat 32)) m
  let v := { v with w := put ws.1 v.w, m := put (es.1.map (fun e => e.1)) v.m, v := put (es.1.map (fun e => e.2.1)) v.v }
  if !stat then (v, ws.2) else
  let gm := fun (p q : Nat) => g (f + p * k + q)
  let gg := matMul st 23 (fun _ _ => f) r k r gm (fun q p => gm p q) ws.2
  let ls := statNext st f x.betaS r (matLoad key r x.cur.ls) gg.1 gg.2
  let hh := matMul st 23 (fun _ _ => f) k r k (fun q p => gm p q) gm ls.2
  let rs := statNext st f x.betaS k (matLoad key k x.cur.rs) hh.1 hh.2
  ({ v with ls := matStore key ls.1 v.ls, rs := matStore key rs.1 v.rs }, rs.2)

/-- The kind of a unit by its phase (R347): 0 for setup, k for Uk. -/
def unitKind (ph : Nat) : Nat := if ph = 0 then 0 else (ph - 1) % 4 + 1

/-- The working matrices that a kind of unit reads, and those that it writes: 0 for X, 1 for M, 2 for T. -/
def unitReads (k : Nat) : List Nat :=
  match k with
  | 0 => []
  | 1 => [1, 0]
  | 4 => [2, 1]
  | _ => [2]
def unitWrites (k : Nat) : List Nat :=
  match k with
  | 0 => [0, 1]
  | 1 => [2, 0]
  | 4 => [1]
  | _ => [2]

/-- One unit of a root refresh (R347): matrix `m`, phase 0 the setup, 4i + k unit Uk. `own` lists the working matrices that this step has
read or written; one that an earlier step has left comes from stacked memory, and a NaN in it is received (R195). -/
def refreshUnit (st : Bool) (x : ShardSet) (m ph : Nat) (v : Version) (u : UAcc) (own : List (Nat × Nat)) :
    Version × UAcc × List (Nat × Nat) :=
  let n := x.matOrder m
  let f := (x.block (m / 2)).first
  let key := 2 ^ 20 * m
  let k := unitKind ph
  let load := fun (s : SMap W32) => (List.range n).map (fun i => (List.range n).map (matLoad key n s i))
  let plane := fun (j : Nat) => load (if j = 0 then v.wx else if j = 1 then v.wm else v.wt)
  let u := ((unitReads k).filter (fun j => !own.contains (m, j))).foldl (fun (u : UAcc) j => u.recv (30 + k) f (plane j).flatten) u
  let own := own ++ (unitReads k ++ unitWrites k).map (fun j => (m, j))
  if k = 0 then
    let a := matLoad (2 ^ 20 * (m / 2)) n (if m % 2 = 0 then v.sl else v.sr)
    let r := rootSetup st f x.epsS n a u
    ({ v with wx := matStore key r.1 v.wx, wm := matStore key r.2.1 v.wm }, r.2.2, own)
  else
    let r := rootUnit st f n k ⟨plane 0, plane 1, plane 2⟩ u
    ({ v with wx := matStore key r.1.x v.wx, wm := matStore key r.1.m v.wm, wt := matStore key r.1.t v.wt }, r.2, own)

/-- Install the roots that a refresh has formed, but for blocks that are frozen (R345), and drop its working matrices (R348). -/
def Version.install (x : ShardSet) (frozen : List Bool) (v : Version) (ms : List Nat) : Version :=
  let v := (ms.filter (fun m => !matSkipped m && !frozen.getD (m / 2) false)).foldl (fun (v : Version) m =>
    let n := x.matOrder m
    let vals := (mgets 0 (2 ^ 20 * m) (n * n) v.wx).map some
    if m % 2 = 0 then { v with lr := mputs none (2 ^ 20 * (m / 2)) vals v.lr } else { v with rr := mputs none (2 ^ 20 * (m / 2)) vals v.rr }) v
  { v with refresh := none, wx := [], wm := [], wt := [], sl := [], sr := [] }

/-- The new version as step `t` begins (R345, R348): counters raised, the units of the step run. -/
def stepVersion (st : Bool) (x : ShardSet) (frozen : List Bool) (t : Nat) : Version × UAcc :=
  let v := x.cur
  let v := { v with bstep := (List.range x.blocks.length).foldl (fun m i =>
    if frozen.getD i false then m else mput 0 i (min 0xFFFFFFFF (mget 0 i m + 1)) m) v.bstep }
  match x.refreshAt frozen t with
  | none => (v, {})
  | some (t0, ms) =>
    let v := if t = t0 then { v with sl := v.ls, sr := v.rs, wx := [], wm := [], wt := [] } else v
    let us := x.unitsAt (t0, ms) t
    let isF := fun (m : Nat) => frozen.getD (m / 2) false
    let hit := ((us.filter (fun u => isF u.1)).map (fun u => u.1 / 2))
    let ms := ms.map (fun m => if !matSkipped m && hit.contains (m / 2) then m + 2 ^ 24 else m)
    let r := (us.filter (fun u => !isF u.1)).foldl (fun (s : Version × UAcc × List (Nat × Nat)) u =>
      refreshUnit st x u.1 u.2 s.1 s.2.1 s.2.2) ({ v with refresh := some (t0, ms) }, ({} : UAcc), [])
    (if t + 1 = t0 + x.rootSpread then r.1.install x frozen ms else r.1, r.2.1)

/-! ## Pieces on the benches (R352) -/

/-- What the output stage hands to the benches for a piece whose accumulator is complete (R190, R241): binary32 values, or under EXPLICIT the
accumulation values. -/
def Dev.gradOf (d : Dev) (o : ClOp) (k : Nat) (acc : List Nat) : List Nat × Raised × RcRun := (d.rcCtx o).finish (k * o.e) acc

/-- The gradients of handed values (R352): under EXPLICIT the benches round them to binary32. -/
def updGrads (o : ClOp) (gs : List Nat) : List Nat × UAcc :=
  if o.num.explicit then
    let rs := gs.map (fun a => deliver 1 o.num.strict none (decodeElem (accOf o.inFmt) a))
    (rs.map (fun r => r.code), { ieee := rs.foldl (fun n r => n ||| r.ieee) 0, ovf := rs.any (fun r => r.ovf), evs := [] })
  else (gs, {})

/-- Take the gradient of a piece that Smelter `sm` has reduced: PLAIN elements are updated at once, those of a PRECOND block once the block
is whole. -/
def updTake (o : ClOp) (x : ShardSet) (v : Version) (k sm : Nat) (gs : List Nat) (u : UAcc) : ClOp × Version × UAcc :=
  let step1 := (gs.zip (List.range gs.length)).foldl (fun (s : SMap W32 × List Nat × Version × UAcc) e =>
    let n := k * o.e + e.2
    match x.blockOf n with
    | none => s
    | some i =>
      if o.frozenAt.getD i false then s
      else if (x.block i).precond then (minsert n (BitVec.ofNat 32 e.1) s.1, if s.2.1.contains i then s.2.1 else s.2.1 ++ [i], s.2.2)
      else
        let r := plainElem (ruleFor o x i) x n e.1 s.2.2.1 s.2.2.2
        (s.1, s.2.1, r)) (o.grads, [], v, u)
  let grads := step1.1
  let whole := step1.2.1.filter (fun i => (List.range (x.block i).count).all (fun j => (mget? ((x.block i).first + j) grads).isSome))
  let r := whole.foldl (fun (s : Version × UAcc) i =>
    precondBlock (ruleFor o x i) x i (o.step % x.statEvery == 0) (planeAt grads) s.1 s.2) step1.2.2
  ({ o with grads := grads, benched := o.benched ++ [(k, sm)], blocksDone := o.blocksDone ++ whole }, r.1, r.2)

/-- Every parameter of a piece is final in the new version. -/
def pieceFinal (o : ClOp) (x : ShardSet) (nmemb k : Nat) : Bool :=
  (List.range (o.len nmemb k)).all (fun j => match x.blockOf (k * o.e + j) with
    | none => true
    | some i => o.frozenAt.getD i false || !(x.block i).precond || o.blocksDone.contains i)

/-- The parameters of a piece in OUT_FMT (R352), with what the conversion raised. The weight of a frozen block comes from stacked memory, and
a NaN in it is received (R195, R345). -/
def updOut (o : ClOp) (x : ShardSet) (v : Version) (first n : Nat) : Bytes × UAcc :=
  let ws := mgets 0 first n v.w
  let rs := ((chunks 32 ws).zip (List.range (cdiv n 32))).flatMap (fun b =>
    deliverBeat o.outFmt o.num.strict (fun i => o.num.sr 2 (first + 32 * b.2 + i)) (b.1.map (fun w => fp32.decode w.toNat)))
  let kept := fun (p : Nat) => (x.blockOf p).any (fun i => o.frozenAt.getD i false)
  let u : UAcc := { ieee := rs.foldl (fun n r => n ||| r.ieee) 0, ovf := rs.any (fun r => r.ovf), evs := [] }
  (packTensor o.outFmt (rs.map (fun r => r.code)),
   (ws.zip (List.range n)).foldl (fun (u : UAcc) w => if kept (first + w.2) then u.recv 0 (first + w.2) [w.1.toNat] else u) u)

/-- This device's part for a piece (R359). -/
def updPart (v : Version) (first n k : Nat) (out : Bytes) : Nat :=
  let plane := fun (m : SMap W32) => (mgets 0 first n m).flatMap (fun w => toLE 4 w.toNat)
  mixBytes (plane v.w) (64 * k) + mixBytes (plane v.m) (64 * k + 16) + mixBytes (plane v.v) (64 * k + 32) + mixBytes out (64 * k + 48)

/-- The event of an update for the trap's record (R352): the bench and lane are the device's choice, a free value. -/
def Dev.updEvent (d : Dev) (o : ClOp) (x : ShardSet) (e : UEv) : TrapEv :=
  let bs := d.updBenches (x.deckOf e.elem)
  { cause := e.cause, fmtA := 1, opA := e.opA, fmtB := 1, opB := e.opB, two := e.two, pc := 0x8000 + e.line, elem := e.elem, bench := true,
    unit := bs.getD (d.freeNat % bs.length) 0, sub := d.freeNat / 128 % 32, member := none, group := o.group }

/-- What an update has raised reaches the operation: flags, the trap, and under HALT the failure (R353). The second value is false where the
operation has failed. -/
def Dev.updRaise (d : Dev) (g q : Nat) (u : UAcc) : Dev × Bool :=
  match d.op? g q with
  | none => (d, false)
  | some o =>
    let o := { o with flags := if u.ovf then o.flags ||| 8 else o.flags, ieee := o.ieee ||| u.ieee }
    match o.joins, d.shard? o.set with
    | j :: _, some x =>
      let r := (d.putOp o).trapAll o.trap j.2 o.num (u.evs.map (d.updEvent o x))
      let d := (r.1.modOp g q (fun o => { o with trap := r.2 }))
      let d := if u.evs.isEmpty then d else d.freeNext
      if o.num.trap && o.num.halt && !u.evs.isEmpty then (d.opFail g q stNAN_TRAPPED true none, false) else (d, true)
    | _, _ => (d.putOp o, true)

/-- Emit a piece whose parameters are final: its part, and the multicast, which a follower does not make (R433). Its cells are charged to the
logical Smelter that reduced the piece (R123). -/
def Dev.updEmit (d : Dev) (g q k sm : Nat) (s : ShardSet) (v : Version) : Dev :=
  match d.op? g q, d.grp? g with
  | some o, some x =>
    let n := o.len x.nmemb k
    let out := updOut o s v (k * o.e) n
    let part := (o.part + updPart v (k * o.e) n k out.1) % 2 ^ 128
    let o := { o with part := part, benched := o.benched.filter (fun j => j.1 != k), updated := k :: o.updated }
    let e := (d.putOp o).updRaise g q out.2
    if !e.2 || o.joins.isEmpty then e.1 else e.1.sendResult x o sm k out.1
  | _, _ => d

/-- Replace the version that an operation writes. -/
def Dev.putVersion (d : Dev) (o : ClOp) (v : Version) : Dev :=
  d.modShard o.set (fun x => { x.without o with next := (x.without o).next ++ [(o.group, o.opseq, v)] })

/-- What keeps the benches from taking a piece (R353): a set that is LOST, or a deck without a live update bench. -/
def Dev.updStop (d : Dev) (o : ClOp) (x : ShardSet) (k : Nat) : Option Nat :=
  if o.joins.isEmpty then none
  else if d.shState o.set = 4 then some stDATA_LOST
  else if (d.updBenches (x.deckOf (k * o.e))).isEmpty then some stUNIT_FENCED else none

/-- The benches take a piece of an update from Smelter `sm` (R342 to R346, R352). -/
def Dev.updPiece (d : Dev) (g q k sm : Nat) (gs : List Nat) : Dev :=
  match d.op? g q, d.grp? g with
  | some o, some gx =>
    match d.version? o with
    | none => d
    | some (x, v) =>
      match d.updStop o x k with
      | some st => d.opFail g q st true none
      | none =>
      let gr := updGrads o gs
      let r := updTake o x v k sm gr.1 gr.2
      let d := (d.putOp r.1).putVersion o r.2.1
      let e := d.updRaise g q r.2.2
      if !e.2 then e.1 else
      let o := r.1
      let ready := (sortBy (fun (a b : Nat × Nat) => decide (a.1 ≤ b.1)) o.benched).filter (fun k => pieceFinal o x gx.nmemb k.1)
      ready.foldl (fun d k => d.updEmit g q k.1 k.2 x r.2.1) e.1
  | _, _ => d

/-! ## Launch of an update (R348, R351, R433) -/

/-- An update launches here: skew, the new version and the units of its step. -/
def Dev.updLaunch (d : Dev) (g q : Nat) : Dev :=
  match d.op? g q with
  | none => d
  | some o =>
    match d.shard? o.set with
    | none => d
    | some x =>
      let skew := o.step != d.shStep o.set + 1
      let r := stepVersion o.num.strict x o.frozenAt o.step
      let d := d.sb (aUP_SET o.set) 4 skew
      let paired := d.lead && d.twState == 4 && !o.joins.isEmpty
      let o := { o with skew := skew, unitsRun := true, frozen := (o.frozenAt.filter (fun b => b)).length,
                        twin := { o.twin with compare := paired } }
      let d := (d.putOp o).putVersion o r.1
      let d := if paired then d.originate 66 (mkPkt 0 1 0xEC 0 0 0 g 0 0 q (o.body.drop 32)) [256] else d
      (d.updRaise g q r.2).1

/-! ## Flip, drop and doubt (R355 to R358) -/

/-- The step pools take back what a committed step has claimed (R341); frames that a READ still reads wait (R360). -/
def Dev.flipFrames (d : Dev) (o : ClOp) (x : ShardSet) : Dev :=
  let back := fun (k : Nat) => o.claims.getD k 0
  let grad := fun (k : Nat) => min (back k) (x.gradFrames o.frozenAt k)
  if x.readers = 0 then d.addFree aUP_POOL_FREE back
  else (d.addFree aUP_POOL_FREE grad).modShard o.set (fun y =>
    { y with owedFrames := (List.range 4).map (fun k => y.owedFrames.getD k 0 + (back k - grad k)) })

/-- The flip (rule 1 of R355): the uncommitted version of an operation becomes the committed one. -/
def Dev.shardFlip (d : Dev) (o : ClOp) : Dev :=
  match d.version? o with
  | none => d
  | some (x, v) =>
    let s := o.set
    let d := d.flipFrames o x
    let d := d.modShard s (fun y => { y.without o with cur := v })
    let d := (d.wr (aUP_SET s + 4) (BitVec.ofNat 32 o.step)).wr (aUP_SET s + 8) (d.rg (aUP_SET s + 8) + 1)
    let d := if o.badFrame then d.setShState s 4 else d
    ((d.modOp o.group o.opseq (fun o => { o with claims := [0, 0, 0, 0] })).noteClaim s).count aCNT_UP_COMMIT

/-- A set leaves IN_DOUBT once no operation of it is in doubt. -/
def Dev.endDoubt (d : Dev) (s : Nat) : Dev :=
  if d.shState s = 3 ∧ d.cl.ops.all (fun o => !(o.update && o.set == s && o.doubt)) then d.setShState s 2 else d

/-- Complete and release an update (R358, R403). -/
def Dev.updEnd (d : Dev) (g q : Nat) (c : Cpl) : Dev :=
  match d.op? g q, d.grp? g with
  | some o, some x =>
    let d := (d.dropVersion o).opRelease x o
    let d := d.endDoubt o.set
    if o.joins.isEmpty then d else
    (d.hmNote o.opc c.status g q o.step o.part).opComplete o { c with info := o.step } (fun _ => c.status)
  | _, _ => d

/-- The completion of a flip. -/
def flipCpl (w : Wave) : Cpl :=
  let n := nfld w.vote 32 32
  { status := stOK, ieee := w.ieee, count := min 255 n, flags := w.flags ||| (if n = 0 then 0 else 16), hall := w.hall }

/-- After a flip the descriptors complete, or wait for the READ that holds the replaced frames. -/
def Dev.flipEnd (d : Dev) (g q : Nat) (w : Wave) : Dev :=
  match d.op? g q with
  | none => d
  | some o =>
    if ((d.shard? o.set).map (fun x => x.readers)).getD 0 = 0 then d.updEnd g q (flipCpl w)
    else (d.modOp g q (fun o => { o with flipped := some w, doubt := false })).endDoubt o.set

/-- Apply a decision (rules 1 and 2 of R355, R358). -/
def Dev.updDecide (d : Dev) (o : ClOp) (w : Wave) : Dev :=
  if w.vote.testBit 0 then
    (d.count aCNT_UP_VETO).updEnd o.group o.opseq { status := stSTEP_SKEW, count := nfld w.vote 8 8, hall := w.hall }
  else ((d.shardFlip o).count aCNT_CL_DONE).flipEnd o.group o.opseq w

/-- The COMMIT strike of an update (R355). -/
def Dev.updCommit (d : Dev) (g q : Nat) : Dev :=
  match d.op? g q with
  | none => d
  | some o =>
    match o.decision with
    | some w => d.updDecide o w
    | none =>
      let d := d.modOp g q (fun o => { o with doubt := true })
      let d := (d.setShState o.set 3).wr (aUP_SET o.set + 12) (BitVec.ofNat 32 o.step)
      d.count aCNT_UP_DOUBT

/-- A decision reaches an update here (R355): kept until COMMIT, or applied at once by a device in doubt. -/
def Dev.updHear (d : Dev) (o : ClOp) (w : Wave) : Dev :=
  if o.flipped.isSome then d
  else if o.doubt then (d.count aCNT_UP_LATE).updDecide { o with decision := some w } w
  else d.modOp o.group o.opseq (fun o => { o with decision := some w, upSent := true })

/-! ## SHARD_RESOLVE (R357) -/

/-- SHARD_RESOLVE with its checks in order: the device after it and the status. -/
def Dev.shardResolve (d : Dev) (bs : Bytes) : Dev × Nat :=
  let s := rdLE bs 16 2
  let out := rdLE bs 18 1
  if (d.shard? s).isNone ∨ 2 ≤ out then (d, stBAD_OPCODE)
  else if d.shState s ≠ 3 then (d, stOK)
  else if BitVec.ofNat 32 (rdLE bs 20 4) ≠ d.rg (aUP_SET s + 12) then (d, stCONFLICT)
  else
    match d.cl.ops.find? (fun o => o.update && o.set == s && o.doubt && o.step == rdLE bs 20 4) with
    | none => (d.setShState s 2, stOK)
    | some o =>
      let d := if out = 1 then
          ((d.shardFlip o).count aCNT_CL_DONE).flipEnd o.group o.opseq ⟨0, o.flags, o.ieee, 2 ^ 32 * o.frozen⟩
        else d.updEnd o.group o.opseq { status := stABORTED }
      (d.setShState s 2, stOK)

/-- SHARD_RESOLVE (R357). -/
def execShardResolve (r : Nat) (s : State) : Host.Outcome State Fault Refusal :=
  devStep (fun d => match d.takeFetched r (fun f => f.ref.op == 0x33) with
    | none => d
    | some (f, d) =>
      let x := d.shardResolve f.bytes
      let d := if x.2 = stOK then x.1.mirror (.desc f.bytes []) else x.1
      d.completeS f.ref x.2) s

/-! ## The lead's comparison (R434 to R436) -/

/-- Set TW_STAT.STATE. -/
def Dev.setTw (d : Dev) (st : Nat) : Dev := d.sf aTW_STAT 0 3 st

/-- Set TW_STAT.STATE to SOLO with a CAUSE. -/
def Dev.solo (d : Dev) (cause : Nat) : Dev := (d.setTw 5).sf aTW_STAT 3 3 cause

/-- This member yields (R436): its sets are LOST. -/
def Dev.yield_ (d : Dev) : Dev :=
  let d := d.sh.sets.foldl (fun d e => if e.2.isSome then d.setShState e.1 4 else d) d
  ((d.setTw 6).report 16 1 0 0).count aCNT_TW_YIELD

/-- The lead proceeds alone with an operation (R434): nothing is compared. -/
def Dev.twAlone (d : Dev) (g q : Nat) (timeout : Bool) : Dev :=
  let d := d.modOp g q (fun o => { o with twin := { o.twin with settled := true, compare := false } })
  let d := if d.twState == 4 then d.setTw 2 else d
  if timeout then d.count aCNT_TW_TIMEOUT else d

/-- TW_DECIDE KIND 0 with an OUTCOME. -/
def Dev.twOutcome (d : Dev) (g q outcome : Nat) : Dev :=
  d.originate 66 (mkPkt 0 1 0xEF 0 0 0 g 0 (4 * outcome) q []) [256]

/-- Compare the parts (R434): the follower's part and SUSPECT. -/
def Dev.twCompare (d : Dev) (o : ClOp) (part : Nat) (suspect : Bool) : Dev :=
  let g := o.group
  let q := o.opseq
  let settle := fun (d : Dev) => d.modOp g q (fun o => { o with twin := { o.twin with settled := true } })
  if part = o.part then (settle (d.twOutcome g q 0)).count aCNT_TW_AGREE
  else if suspect && !o.twin.suspect then
    ((d.twOutcome g q 1).modOp g q (fun o => { o with twin := { o.twin with settled := true, compare := false } })).solo 5
  else if o.twin.suspect && !suspect then
    ((((d.twOutcome g q 2).modOp g q (fun o => { o with twin := { o.twin with compare := false } }))).opFail g q stUNIT_FENCED true none).yield_
  else ((((d.twOutcome g q 3).modOp g q (fun o => { o with twin := { o.twin with compare := false } }))).count aCNT_TW_DIVERGE).opFail g q
    stTWIN_DIVERGE true none

/-- The whole step of an update is written here (R353). -/
def Dev.stepWhole (d : Dev) (x : Grp) (o : ClOp) : Bool :=
  o.launched && o.unitsRun && (List.range (o.pieces_ x.nmemb)).all (fun k => (d.toward x o k).isSome || o.updated.contains k)

/-- The lead, once its step is whole, waits for the answer and compares. -/
def Dev.twJudge (d : Dev) (x : Grp) (o : ClOp) : Dev :=
  if !(o.update && o.twin.compare && !o.twin.settled && d.stepWhole x o) then d else
  let d := if o.twin.waitFrom.isNone then d.modOp o.group o.opseq (fun o => { o with twin := { o.twin with waitFrom := some d.now } }) else d
  match o.twin.answer with
  | none => d
  | some (part, suspect, noset) => if noset then d.twAlone o.group o.opseq false else d.twCompare o part suspect

/-! ## The waves (R263 to R265) -/

/-- The decision reaches this device (R265, R355): an operation that is not an update commits; an update keeps the wave for COMMIT. -/
def Dev.decide_ (d : Dev) (o : ClOp) (x : Grp) (w : Wave) (src : Option Nat) : Dev :=
  let d := ((List.range x.nnbr).filter (fun n => some n != src)).foldl (fun d n => d.sendDone x o.opseq n true false w) d
  if o.update then (d.twinTell o 1 (nfld w.vote 0 1)).updHear o w else d.opCommit o x w

/-- Advance one operation as far as its conditions allow (R263, R264). -/
def Dev.opAdvance (d : Dev) (g q : Nat) : Dev :=
  match d.op? g q, d.grp? g with
  | some o, some x =>
    if o.joins.isEmpty then d
    else if o.flipped.isSome then
      if ((d.shard? o.set).map (fun x => x.readers)).getD 0 = 0 then d.updEnd g q (flipCpl (o.flipped.getD Wave.zero)) else d
    else if o.launched && o.opc == 0x26 && !o.countSent && !o.countDone && d.vectorsWhole x o && x.children.all (fun n => o.countUps.contains n) then
      let d := d.modOp g q (fun o => { o with countSent := true })
      if x.isHome then d.countsOver x g q none else d.sendDone x q x.home false true Wave.zero
    else
      let d := d.twJudge x o
      match d.op? g q with
      | none => d
      | some o =>
        if d.upReady x o then
          let w := d.upWave o
          if x.isHome then d.decide_ o x w none
          else (d.modOp g q (fun o => { o with upSent := true })).sendDone x q x.home false false w
        else d
  | _, _ => d

/-- Some input of a piece has still to deliver it here, or a complete partial sum waits for a LIMIT (R210). -/
def Dev.lacksInput (d : Dev) (x : Grp) (o : ClOp) : Bool :=
  if !o.reducing then !d.contributed x o else
  !o.waiting.isEmpty || (List.range (o.pieces_ x.nmemb)).any (fun k =>
    decide (o.low ≤ k) && !o.done.contains k && decide ((((mget? k o.pieces).map (fun p => p.got)).getD []).length < (d.inputs x (d.toward x o k)).length))

/-- Bytes of results that this device's own benches have still to send to each local member. -/
def Dev.ownLeft (d : Dev) (x : Grp) (o : ClOp) : Nat :=
  (((List.range (o.pieces_ x.nmemb)).filter (fun k => (d.toward x o k).isNone && !o.updated.contains k)).map
    (fun k => tensorBytes o.outFmt (o.len x.nmemb k))).sum

/-- Data for a local member has still to come from another device or member, or waits for its endpoint's acknowledgement. -/
def Dev.lacksData (d : Dev) (x : Grp) (o : ClOp) : Bool :=
  let short := fun (left : Nat) => (d.localRanks x).any (fun r => decide (mget 0 r o.bytes + left < o.expects x.nmemb r))
  (match o.opc with
   | 0x20 => !x.isHome && short 0
   | 0x21 => false
   | 0x22 => false
   | 0x28 => short (d.ownLeft x o)
   | _ => short 0) ||
  d.fb.unacked.any (fun u => u.pkt.opcode == 0xE3 && u.pkt.group == o.group && u.pkt.arg1 == o.opseq && (d.rankAt x u.port).isSome)

/-- A wave of the operation has still to come (R263, R264). -/
def Dev.lacksWave (d : Dev) (x : Grp) (o : ClOp) : Bool :=
  x.children.any (fun n => (mget? n o.ups).isNone) || (o.upSent && !x.isHome) ||
  (o.opc == 0x26 && !o.countDone && (o.countSent || !d.vectorsWhole x o || x.children.any (fun n => !o.countUps.contains n)))

/-- This device waits on something that a launched operation still lacks (R270). After its upward wave an update's timer does not run
(R353), nor while the lead of a twin pair compares (R434). -/
def Dev.opLacks (d : Dev) (x : Grp) (o : ClOp) : Bool :=
  o.launched && !o.joins.isEmpty && !(o.update && (o.upSent || o.decision.isSome)) &&
  !(o.twin.compare && o.twin.waitFrom.isSome && !o.twin.settled) &&
  (!o.allJoined x || d.lacksInput x o || d.lacksData x o || d.lacksWave x o)

/-- The order timer stops where the device waits on nothing, and starts from zero at a new wait (R270). -/
def Dev.opWatch (d : Dev) (g q : Nat) : Dev :=
  match d.op? g q, d.grp? g with
  | some o, some x =>
    let w := d.opLacks x o
    if w = o.waits then d else d.modOp g q (fun o => { o with waits := w, timer := if w then d.now else o.timer })
  | _, _ => d

/-- Advance one operation, and keep its order timer (R270). -/
def Dev.opPoll (d : Dev) (g q : Nat) : Dev := (d.opAdvance g q).opWatch g q

/-- Advance every operation. -/
def Dev.clPoll (d : Dev) : Dev := d.cl.ops.foldl (fun d o => d.opPoll o.group o.opseq) d

/-- An input of the operation delivered something: its order timer starts again (R270). -/
def Dev.opTouch (d : Dev) (g q : Nat) : Dev := d.modOp g q (fun o => { o with timer := d.now })

/-- SHARD_IO_DONE (R360): `data` is what a WRITE's host buffer holds. A READ that has lost a frame ends with DATA_LOST (R353). -/
def execShardIoDone (id : Nat) (data : Bytes) (s : State) : Host.Outcome State Fault Refusal :=
  devStep (fun d => d.when d.live (fun d =>
    let st := if d.sh.xfers.any (fun x => x.id == id && x.lost) then stDATA_LOST else stOK
    (d.shardIoEnd id st data).clPoll)) s

/-- UPDATE_PIECE (R352): the benches take a piece that has been handed off; its slot is free, and the window may rise. -/
def execUpdatePiece (g q k : Nat) (s : State) : Host.Outcome State Fault Refusal :=
  devStep (fun d => d.when d.live (fun d =>
    match d.op? g q, d.grp? g with
    | some o, some x =>
      match mget? k o.handoff with
      | none => d
      | some gs =>
        let sm := ((mget? k o.pieces).map (fun p => p.sm)).getD 0
        let d := d.putOp { (o.completePiece k) with handoff := merase k o.handoff }
        let d := d.updPiece g q k sm gs
        match d.op? g q with
        | some o => ((d.trimSlots x o).raiseLimit x o).clPoll
        | none => d
    | _, _ => d)) s

end Sys2Proof.Machine
end

