-- ==== Sys2Proof/Machine/Shape.lean ====
section
/-! DEFINITION. The shape: which physical unit carries each logical one, spares, lost units, and the registers that show it (R10, R11,
R302, R411, R418, R458). -/

namespace Sys2Proof.Machine

/-! ## Physical benches -/

/-- A physical bench is fenced. -/
def Dev.benchFenced (d : Dev) (phys : Nat) : Bool := d.gb (aDP_FENCE_B + 4 * (phys / 32)) (phys % 32)

/-- The physical bench of a logical one by R11, before any spare stands in. -/
def Dev.ownBench (d : Dev) (b : Nat) : Nat := 34 * (b / d.perDeck) + b % d.perDeck

/-- The physical bench that carries a logical one. -/
def Dev.benchPhys (d : Dev) (b : Nat) : Option Nat := mget (some (d.ownBench b)) b d.as_.bmap

/-- Set the physical bench of a logical one. -/
def Dev.setBench (d : Dev) (b : Nat) (p : Option Nat) : Dev :=
  { d with as_ := { d.as_ with bmap := mput (some (d.ownBench b)) b p d.as_.bmap } }

/-- The logical bench that a physical one carries. -/
def Dev.benchLogical (d : Dev) (phys : Nat) : Option Nat := (List.range (4 * d.perDeck)).find? (fun b => d.benchPhys b == some phys)

/-- The free spare benches of a deck, ascending. -/
def Dev.spareBenches (d : Dev) (k : Nat) : List Nat :=
  ((List.range 34).map (fun i => 34 * k + i)).filter (fun p => !d.benchFenced p && (d.benchLogical p).isNone)

/-! ## Launch benches and the shape word (R301, R302, R415) -/

/-- The launch benches of a deck. -/
def Dev.deckLaunch (d : Dev) (k : Nat) : List Nat :=
  let l := d.deckLive k
  l.take (l.length - d.gf aAS_RESV (8 * k) 6)

/-- The launch benches of the device, ascending. -/
def Dev.launchBenches (d : Dev) : List Nat := (List.range 4).flatMap d.deckLaunch

/-- Compatibility mode is on (R413). -/
def Dev.compat (d : Dev) : Bool := d.gb aREP_COMPAT 0

/-- A logical bench or Smelter has been lost (R10, R418). -/
def Dev.lostUnit (d : Dev) : Bool :=
  (List.range (4 * d.perDeck)).any (fun b => !d.benchLive b) || (List.range 64).any (fun l => (d.smPhys l).isNone)

/-- The shape word (R302), as compatibility mode shows it (R415). -/
def Dev.shapeWord (d : Dev) : Nat :=
  let live := ((List.range (4 * d.perDeck)).filter d.benchLive).length
  let c := d.compat
  live + 256 * (if c then d.gf aREP_COMPAT 8 8 else d.launchBenches.length) +
    2 ^ 16 * (if c then d.gb aREP_COMPAT 17 else d.gb aAS_PROFILE 0).toNat +
    2 ^ 17 * (if c then (d.gb aREP_COMPAT 16).toNat else Config.grade.toNat) +
    2 ^ 18 * d.pairwise.toNat + 2 ^ 19 * c.toNat + 2 ^ 20 * d.lostUnit.toNat

/-- The shape record (R411). -/
def Dev.shapeRecord (d : Dev) : List W32 :=
  [BitVec.ofNat 32 d.shapeWord, d.rg aAS_RESV, if d.compat then d.rg aREP_COMPAT else 0, 1]

/-- The unit registers follow the assignment: AS_SPARE, AS_SHAPE; twins whose records part while PAIRED say so (R426): `was` is the record
before the change. -/
def Dev.reshapeFrom (was : List W32) (d : Dev) : Dev :=
  let d := (List.range 4).foldl (fun d k => d.sf aAS_SPARE (8 * k) 8 (d.spareBenches k).length) d
  let word := d.shapeWord
  let d := d.wr aAS_SHAPE (BitVec.ofNat 32 word)
  let same := (List.range 4).map (fun i => d.rg (aTW_PEER_SHAPE + 4 * i)) == d.shapeRecord
  if d.twState == 4 && !same && was != d.shapeRecord && !d.gb aTW_STAT 6 then (d.sb aTW_STAT 6 true).report 16 0 0 0 else d

/-- The machine takes a new shape after a change of its units: the record before it stands in AS_SHAPE and the registers of the record. -/
def Dev.reshape (d : Dev) : Dev := d.reshapeFrom (d.rg aAS_SHAPE :: d.shapeRecord.tail)

/-- Set whether a logical bench is live. -/
def Dev.setLive (d : Dev) (b : Nat) (live : Bool) : Dev := d.sb (aAS_LIVE (b / 32)) (b % 32) live

/-- The domain of a physical bench (R15). -/
def benchDomain (phys : Nat) : Nat := 16 + 20 * (phys / 34) + phys % 34 / 2

/-- The bench domains that carry a logical bench. -/
def Dev.benchDomains (d : Dev) : List Nat :=
  ((List.range 136).filter (fun p => p % 2 == 0 && ((d.benchLogical p).isSome || (d.benchLogical (p + 1)).isSome))).map benchDomain

/-- A domain holds benches (R15). -/
def isBenchDomain (k : Nat) : Bool := decide (16 ≤ k) && decide (k < 96) && decide ((k - 16) % 20 < 17)

/-- The bench domains that carry a logical bench are up, and no other (R11, R15, R304). -/
def Dev.powerBenches (d : Dev) : Dev :=
  { d with bt := { d.bt with domains := d.bt.domains.filter (fun k => !isBenchDomain k) ++ d.benchDomains } }

/-- The domain of a spare that is called in is powered (R11). -/
def Dev.powerBench (d : Dev) (phys : Nat) : Dev :=
  if d.bt.domains.contains (benchDomain phys) then d
  else { d with bt := { d.bt with domains := d.bt.domains ++ [benchDomain phys] } }

/-- Assign the logical benches of every deck afresh among its live physical benches (R11, R418). DESIGN CHOICE (log 98): they take the live
ones in ascending order. -/
def Dev.assignBenches (d : Dev) : Dev :=
  let d := { d with as_ := { d.as_ with bmap := [] } }
  let d := (List.range 4).foldl (fun d i => d.wr (aAS_LIVE i) 0) d
  let d := (List.range 4).foldl (fun d k =>
    let ps := ((List.range 34).map (fun i => 34 * k + i)).filter (fun p => !d.benchFenced p)
    (List.range d.perDeck).foldl (fun d i => (d.setBench (k * d.perDeck + i) ps[i]?).setLive (k * d.perDeck + i) (decide (i < ps.length))) d) d
  d.reshape

/-- Fence a physical bench (R10, R458): a spare of its deck takes its logical number, or that is lost. The second value is the logical
bench it carried. -/
def Dev.fenceBench (d : Dev) (phys : Nat) : Dev × Option Nat :=
  let l := d.benchLogical phys
  let d := d.sb (aDP_FENCE_B + 4 * (phys / 32)) (phys % 32) true
  let d := { d with dp := { d.dp with keptB := if d.dp.keptB.contains phys then d.dp.keptB else d.dp.keptB ++ [phys] } }
  let d := match l with
    | none => d
    | some b => match d.spareBenches (phys / 34) with
      | p :: _ => (d.setBench b (some p)).powerBench p
      | [] => (d.setBench b none).setLive b false
  (d.reshape, l)

/-- Fence a physical Smelter (R10, R206, R458): the spare of its deck stands in, or the logical Smelter is lost. -/
def Dev.fenceSmelter (d : Dev) (phys : Nat) : Dev :=
  let deck := phys / 17
  let d := d.sb (aDP_FENCE_S + 4 * (phys / 32)) (phys % 32) true
  let d := { d with dp := { d.dp with keptS := if d.dp.keptS.contains phys then d.dp.keptS else d.dp.keptS ++ [phys] } }
  let d := if phys % 17 = 16 then (d.sb aSM_SPARE (8 * deck + 6) true).sf aSM_SPARE (8 * deck) 6 0x3F
    else if !d.smFenced (17 * deck + 16) && d.gf aSM_SPARE (8 * deck) 6 == 0x3F && !(deck == 3 && d.smFenced 66) then d.sf aSM_SPARE (8 * deck) 6 (16 * deck + phys % 17)
    else d
  d.reshape

/-- SM_CFG (R220, R246, R415): a write in compatibility mode or while a context is held is ignored, which is noted; the shape follows it. -/
def smCfgEffect (v : W32) (d : Dev) : Dev :=
  if d.gb aREP_COMPAT 0 || d.ctxInUse then d.sb aSM_STAT 1 true else (Dev.plainWrite aSM_CFG v d).reshape

/-- SM_CFG_WRITE (R220). -/
def execSmCfgWrite (v : W32) (s : State) : Host.Outcome State Fault Refusal := devStep (fun d => d.barWrite aSM_CFG v smCfgEffect) s

end Sys2Proof.Machine
end

