-- ==== Sys2Proof/Machine/Collective.lean ====
section
/-! DEFINITION. The commands of collectives and Smelters (chapters 8 and 9): judging and joining a descriptor, tallies and launch, the
inputs of pieces, group data, and the waves. -/

namespace Sys2Proof.Machine

/-! ## Judging a descriptor (R217, R257, R350) -/

/-- Input formats of R215. -/
def isInFmt (c : Nat) : Bool := c == 1 || c == 2 || c == 3 || c == 4 || c == 5 || isMx c || c == 11 || c == 12 || c == 13
/-- An output format R215 allows for an input format. -/
def outFmtOk (i o : Nat) : Bool :=
  if isInt i then o == 11 || o == 12 || o == 13 || o == 15 else o == 14 || o == 1 || o == 2 || o == 3 || o == 4 || o == 5 || isMx o
/-- Formats an operation that does not reduce may carry: RAW or one of the element formats. -/
def isCopyFmt (c : Nat) : Bool := c == 0 || isInFmt c

/-- An output stage block breaks R217 step 2. -/
def outBlockBad (o : OutBlock) (int : Bool) : Bool :=
  let v := fun (x : Nat) => fp32.decode x
  [o.scale, o.bias, o.lo, o.hi].any (fun x => (v x).isNaN) || (v o.hi).lt (v o.lo) ||
    (int && (o.scale != 0x3F800000 || o.bias != 0 || o.lo != 0xFF800000 || o.hi != 0x7F800000))

/-- R217 up to the lengths in an MX format (R178): a status, or none. -/
def Dev.redForm (d : Dev) (o : ClOp) : Option Nat :=
  if o.opr = 7 ∨ !isInFmt o.inFmt ∨ !outFmtOk o.inFmt o.outFmt ∨ (4 ≤ o.opr ∧ !isInt o.inFmt) ∨ !d.recipeOk o.recipe o.opr then some stBAD_OPCODE
  else if outBlockBad (OutBlock.read (sl o.body 64 16)) (isInt o.inFmt) then some stBAD_OPCODE
  else if !o.num.legal o.update then some stBAD_OPCODE
  else if (isMx o.inFmt || isMx o.outFmt) && o.count % 32 != 0 then some stLENGTH_RANGE else none

/-- SLOTS does not give the operation a tally (R224). -/
def Dev.tallyShort (d : Dev) (x : Grp) (o : ClOp) : Bool :=
  let pool := if x.tc = 0 then 2048 else 30720 - (d.rg aSM_RETIRED).toNat
  o.slots == 0xFFFF || decide (pool < o.slots) || (o.total x.nmemb != 0 && o.slots / d.slotsPer x o == 0)

/-- R217: a status, or none. -/
def Dev.redJudge (d : Dev) (x : Grp) (o : ClOp) : Option Nat :=
  match d.redForm o with
  | some st => some st
  | none => if d.tallyShort x o then some stLENGTH_RANGE else none

/-- The fields that R255 requires to be zero (R257 step 4). -/
def mustBeZero (o : ClOp) : Bool :=
  let zero := fun (a n : Nat) => rdLE o.body a n == 0
  (o.update || (zero 96 16 && zero 112 8)) && (o.opc == 0x21 || o.opc == 0x24 || o.root == 0) &&
  (bfld o.body 34 15 1 == 0 || bfld o.body 34 0 15 == 0) &&
  (o.reducing || (bfld o.body 48 0 4 == 0 && bfld o.body 48 10 11 == 0 && zero 52 2 && zero 64 32)) &&
  (o.reducing || isCopyFmt o.inFmt) && (o.opc != 0x27 || o.count == 0)

/-- The latest plant time at which STRIKE can fire (R257 step 5). -/
def Dev.latestFire (d : Dev) (body : Bytes) (fetch : W64) : W64 :=
  match bfld body 24 0 2 with
  | 1 => BitVec.ofNat 64 (rdLE body 16 8)
  | 2 => BitVec.ofNat 64 (bfld body 24 8 56 * 256 + rdLE body 20 4)
  | _ => fetch + BitVec.ofNat 64 d.armLead

/-- The pieces of a whole operation (R207, R257 step 5). Where members send to one another, each sender's data counts, a member's own block
not; ALLTOALLV by the largest counts it allows (log 96). -/
def ClOp.allPieces (o : ClOp) (nmemb : Nat) : Nat :=
  if o.opc = 0x23 then nmemb * o.pieces_ nmemb
  else if o.opc = 0x25 ∨ o.opc = 0x26 then nmemb * (nmemb - 1) * o.pieces_ nmemb
  else o.pieces_ nmemb

/-- Step 5 of R257. -/
def Dev.lengthBad (d : Dev) (x : Grp) (o : ClOp) (fetch : W64) : Bool :=
  o.count == 0xFFFFFFFF || ((o.opc == 0x21 || o.opc == 0x24) && decide (x.nmemb ≤ o.root)) ||
  (o.opc == 0x22 && o.count % o.e != 0) || decide (2 ^ 31 < o.allPieces x.nmemb) ||
  (!o.reducing && isMx o.inFmt && o.count % 32 != 0) ||
  (o.update && bfld o.body 104 0 2 == 1 && decide ((BitVec.ofNat 64 (rdLE o.body 96 8) - d.latestFire o.body fetch).toInt ≤ 0))

/-- The formats an update accepts (R350). -/
def isUpdFmt (c : Nat) : Bool := c == 1 || c == 2 || c == 3 || c == 4 || c == 5 || isMx c

/-- R350: a status, or none. -/
def Dev.updJudge (d : Dev) (o : ClOp) : Option Nat :=
  match d.shard? o.set with
  | none => some stBAD_OPCODE
  | some s =>
    if s.group ≠ o.group ∨ o.opr ≠ 0 ∨ !isUpdFmt o.inFmt ∨ !isUpdFmt o.outFmt ∨ (schedAt s.sched o.step).isNone then some stBAD_OPCODE
    else if o.count ≠ s.nparam ∨ o.step = 0xFFFFFFFF then some stLENGTH_RANGE
    else if d.shState o.set ≠ 2 ∨ (d.lead && d.twState == 3) ∨ (d.lead && d.twState == 6) then some stCONFLICT else none

/-- Steps 2 and 3 of R257: a status, or none. -/
def Dev.posterBad (d : Dev) (x : Grp) (f : Fetched) : Option Nat :=
  let rank := bfld f.bytes 34 0 15
  let relay := bfld f.bytes 34 15 1 == 1
  if f.ref.ring ≠ x.ring then some stACCESS
  else if !relay ∧ x.nmemb ≤ rank then some stLENGTH_RANGE
  else if (relay ∧ 0 < x.nlocal) ∨ (!relay ∧ x.nlocal = 0) ∨ (!relay ∧ !d.memLocal x rank) then some stABORTED else none

/-- The group of a descriptor that fails under R224. -/
def Dev.tallyFails (d : Dev) (f : Fetched) (o : ClOp) : Option Grp :=
  (d.grp? o.group).filter (fun x => o.reducing && (d.posterBad x f).isNone && (d.redForm o).isNone && d.tallyShort x o)

/-- Judge a descriptor (R257) up to its strikes: a status, or the judged STRIKE. -/
def Dev.clJudge (d : Dev) (f : Fetched) (o : ClOp) : Nat ⊕ (Grp × Strike × Strike) :=
  match d.grp? o.group with
  | none => .inl stBAD_OPCODE
  | some x =>
    match d.posterBad x f with
    | some st => .inl st
    | none =>
      match (if o.reducing then d.redJudge x o else none) with
      | some st => .inl st
      | none =>
        if !mustBeZero o then .inl stBAD_OPCODE
        else if d.lengthBad x o f.time then .inl stLENGTH_RANGE
        else
          match (if o.update then d.updJudge o else none) with
          | some st => .inl st
          | none =>
            if o.count = 0 ∧ o.opc ≠ 0x27 then .inl stOK else
            match d.judgeStrike (sl f.bytes 16 16) f.time with
            | .bad st => .inl st
            | k =>
              if !o.update then .inr (x, k, .now) else
              if bfld o.body 104 0 2 ≠ 1 then .inl stBAD_OPCODE else
              match d.judgeStrike (sl f.bytes 96 16) f.time with
              | .bad st => .inl st
              | c => .inr (x, k, c)

/-! ## Joining (R258, R259) -/

/-- An operation of a descriptor, before anything has joined. -/
def ClOp.of (f : Fetched) : ClOp where
  group := rdLE f.bytes 32 2
  opseq := rdLE f.bytes 36 4
  body := f.bytes
  joins := []
  key := f.time
  late := false
  p := 1
  w := 0
  need := 0
  ctx := 0
  granted := false
  ctxHeld := 0
  held := 0
  claims := [0, 0, 0, 0]
  fired := false
  launched := false
  low := 0
  done := []
  pieces := []
  limit := 0
  grants := []
  opened := []
  limitIn := []
  waiting := []
  taken := []
  bytes := []
  emitted := 0
  counts := []
  sentCounts := []
  countUps := []
  countSent := false
  countDone := false
  ups := []
  upSent := false
  decision := none
  doubt := false
  flags := 0
  ieee := 0
  part := 0
  fencedEp := none
  trap := .init
  timer := f.time
  waits := false
  fenced0 := []
  handoff := []
  updated := []
  grads := []
  benched := []
  blocksDone := []
  unitsRun := false
  skew := false
  frozen := 0
  frozenAt := []
  eta := 0
  lambda := 0
  badFrame := false
  flipped := none
  twin := .init

/-- The tally an operation asks for (R218, R224, R225, R259, R341). -/
def Dev.sizeOp (d : Dev) (x : Grp) (o : ClOp) (fetch : W64) : ClOp :=
  let lead := BitVec.ofNat 64 (orOne (d.gf aSM_TALLY_CFG 0 8) * 256)
  let key := match o.mode with
    | 1 => BitVec.ofNat 64 (rdLE o.body 16 8)
    | 2 => BitVec.ofNat 64 (bfld o.body 24 8 56 * 256)
    | _ => fetch + lead
  let p := d.slotsPer x o
  let w := min (o.slots / p) (o.pieces_ x.nmemb)
  let s := d.shard? o.set
  let fz := match s with
    | some s => s.blocks.map (fun b => b.frozen)
    | none => []
  let rate := s.bind (fun s => schedAt s.sched o.step)
  { o with key := key, late := o.mode != 0 && decide (0 < (fetch - (key - lead)).toInt), p := p, w := w,
           need := if o.reducing then w * p else if o.opc = 0x26 then x.nlocal * cdiv x.nmemb 1024 else 0,
           ctx := if !o.reducing then 0 else if o.exact then 2 else 1,
           frozenAt := if o.update then fz else [], eta := ((rate.map (fun r => r.eta)).getD 0),
           lambda := ((rate.map (fun r => r.lambda)).getD 0),
           claims := if o.update then (List.range 4).map (fun k => match s with
             | some s => s.claimAt fz (d.shStep o.set) o.step k
             | none => 0) else [0, 0, 0, 0],
           fenced0 := (List.range x.nmemb).filter (fun r => d.fenced (d.memEp x r)) }

/-- The rank of a descriptor, `none` for a RELAY. -/
def clRank (f : Fetched) : Option Nat := if bfld f.bytes 34 15 1 = 1 then none else some (bfld f.bytes 34 0 15)

/-- A second descriptor of an operation carries the same bytes 16 to 33 and 36 to 127 (R258). -/
def sameBody (a b : Bytes) : Bool := sl a 16 18 == sl b 16 18 && sl a 36 92 == sl b 36 92

/-- Join an operation (R258). -/
def Dev.clJoin (d : Dev) (x : Grp) (o : ClOp) (f : Fetched) : Dev :=
  let differs := !sameBody o.body f.bytes
  if differs || o.joins.any (fun j => j.1 == clRank f) then
    let d := if differs then d.sb aCL_STAT 1 true else d
    ((d.opFail o.group o.opseq stABORTED true none).count aCNT_CL_ABORTED).completeS f.ref stABORTED
  else
    let d := d.modOp o.group o.opseq (fun o => { o with joins := o.joins ++ [(clRank f, f.ref)], timer := d.now })
    let d := match clRank f, o.launched with
      | some r, true => d.grantJoined x o r
      | _, _ => d
    d.opPoll o.group o.opseq

/-- Create an operation (R258, R259). -/
def Dev.clCreate (d : Dev) (x : Grp) (o : ClOp) (f : Fetched) (k c : Strike) : Dev :=
  let g := o.group
  let q := o.opseq
  let o := { d.sizeOp x o f.time with joins := [(clRank f, f.ref)] }
  let d := { d with cl := { d.cl with ops := d.cl.ops ++ [o], gone := d.cl.gone.filter (fun b => b != (g, q)) } }
  let a := aGR x.slot
  let d := (d.wr (a + 24) (BitVec.ofNat 32 q)).sf (a + 28) 0 16 (d.gf (a + 28) 0 16 + 1)
  let d := d.armStrike 0 k (.launchCl g q) f.ref.num
  let d := if o.update then (d.armStrike 1 c (.commit g q) f.ref.num).sb (aUP_SET o.set) 3 true else d
  let d := if o.late then d.count aCNT_TALLY_LATE else d
  match d.cl.aborts.find? (fun b => b.1 == g && b.2.1 == q) with
  | some (_, _, st) => ({ d with cl := { d.cl with aborts := d.cl.aborts.filter (fun b => !(b.1 == g && b.2.1 == q)) } }).opFail g q st false none
  | none =>
    if (List.range x.nnbr).any (d.nbDown x) then (d.opFail g q stMEMBER_FENCED true none).count aCNT_MEMBER_FENCED else d

/-- Comparators that a new operation needs can be had (R43, R259). -/
def Dev.clComparators (d : Dev) (o : ClOp) : Bool :=
  let n := if o.mode = 0 then 0 else 1
  if !o.update then d.cmpFree 0 n
  else d.cmpFree 1 1 && (n == 0 || (d.cmpFree 0 1 &&
    decide ((if d.cmpHeld 0 < d.cmpRes 0 then 0 else 1) + (if d.cmpHeld 1 < d.cmpRes 1 then 0 else 1) ≤ d.cmpPool)))

/-- An operation that fails under R224 tells the other devices of its group, once (R229), whether or not it has been created here. -/
def Dev.tellShort (d : Dev) (f : Fetched) (o : ClOp) : Dev :=
  match d.tallyFails f o, d.op? o.group o.opseq with
  | some _, some _ => d.opFail o.group o.opseq stLENGTH_RANGE true none
  | some x, none =>
    if d.cl.gone.contains (o.group, o.opseq) then d else (d.sendAbort x o.opseq stLENGTH_RANGE none).noteGone o.group o.opseq
  | none, _ => d

/-- Take a descriptor of chapter 9 from a ring (R257, R258). -/
def Dev.clDesc (d : Dev) (r op : Nat) : Dev :=
  match d.takeFetched r (fun f => f.ref.op == op) with
  | none => d
  | some (f, d) =>
    let o := ClOp.of f
    match d.clJudge f o with
    | .inl st => (d.tellShort f o).completeS f.ref st
    | .inr (x, k, c) =>
      match d.op? o.group o.opseq with
      | some old => d.clJoin x old f
      | none =>
        if !d.clComparators o then d.completeS f.ref stSTRIKE_BUSY
        else if staleSeq x o.opseq then
          let told := d.cl.gone.contains (o.group, o.opseq)
          let d := d.sb aCL_STAT 2 true
          let d := if told then d else ((d.sendAbort x o.opseq stABORTED none).noteGone o.group o.opseq).count aCNT_CL_ABORTED
          d.completeS f.ref stABORTED
        else d.clCreate x o f k c

/-- ALLREDUCE (R256). -/
def execAllreduce (r : Nat) (s : State) : Host.Outcome State Fault Refusal := devStep (fun d => d.clDesc r 0x20) s
/-- REDUCE (R256). -/
def execReduce (r : Nat) (s : State) : Host.Outcome State Fault Refusal := devStep (fun d => d.clDesc r 0x21) s
/-- REDUCE_SCATTER (R256). -/
def execReduceScatter (r : Nat) (s : State) : Host.Outcome State Fault Refusal := devStep (fun d => d.clDesc r 0x22) s
/-- ALLGATHER (R256). -/
def execAllgather (r : Nat) (s : State) : Host.Outcome State Fault Refusal := devStep (fun d => d.clDesc r 0x23) s
/-- BROADCAST (R256). -/
def execBroadcast (r : Nat) (s : State) : Host.Outcome State Fault Refusal := devStep (fun d => d.clDesc r 0x24) s
/-- ALLTOALL (R256). -/
def execAlltoall (r : Nat) (s : State) : Host.Outcome State Fault Refusal := devStep (fun d => d.clDesc r 0x25) s
/-- ALLTOALLV (R256). -/
def execAlltoallv (r : Nat) (s : State) : Host.Outcome State Fault Refusal := devStep (fun d => d.clDesc r 0x26) s
/-- BARRIER (R268). -/
def execBarrier (r : Nat) (s : State) : Host.Outcome State Fault Refusal := devStep (fun d => d.clDesc r 0x27) s
/-- REDUCE_UPDATE_GATHER (R267, R350). -/
def execReduceUpdateGather (r : Nat) (s : State) : Host.Outcome State Fault Refusal := devStep (fun d => d.clDesc r 0x28) s

/-! ## Tallies and launch (R225 to R228, R259) -/

/-- The key of one request is smaller (R225). -/
def keyBefore (a b : ClOp) : Bool :=
  let z := (a.key - b.key).toInt
  decide (z < 0) || (z == 0 && (decide (a.group < b.group) || (a.group == b.group && decide (a.opseq < b.opseq))))

/-- The first request of a pool. -/
def Dev.headRequest (d : Dev) (floor : Bool) : Option ClOp :=
  let pool := d.cl.ops.filter (fun o => !o.granted && !o.joins.isEmpty && ((d.grp? o.group).any (fun x => (x.tc == 0) == floor)))
  pool.foldl (fun (acc : Option ClOp) o => match acc with
    | none => some o
    | some a => if keyBefore o a then some o else some a) none

/-- Launch an operation whose tally is held and whose strike has fired (R259, R260). -/
def Dev.tryLaunch (d : Dev) (g q : Nat) : Dev :=
  match d.op? g q, d.grp? g with
  | some o, some x =>
    if !o.granted ∨ o.launched ∨ !(o.fired ∨ o.mode = 0) then d else
    let d := d.modOp g q (fun o => { o with launched := true, timer := d.now })
    let d := if o.update then d.updLaunch g q else d
    match d.op? g q with
    | none => d
    | some o => ((d.launchGrants x o).wakeEarly g q).opPoll g q
  | _, _ => d

/-- A request can be granted now (R226, R341). -/
def Dev.grantable (d : Dev) (floor : Bool) (o : ClOp) : Bool :=
  let lead := BitVec.ofNat 64 (orOne (d.gf aSM_TALLY_CFG 0 8) * 256)
  decide (0 ≤ d.since (o.key - lead)) && decide (o.need ≤ d.gf (poolReg floor) 0 16) &&
  (o.ctx == 0 || (o.ctx == 2 && decide (0 < d.exactFree floor)) || (o.ctx == 1 && decide (0 < d.gf (poolReg floor) 16 12))) &&
  (List.range 4).all (fun k => decide (o.claims.getD k 0 ≤ (d.rg (aUP_POOL_FREE k)).toNat))

/-- Grant a request. -/
def Dev.grantTally (d : Dev) (floor : Bool) (o : ClOp) : Dev :=
  let free := d.gf (poolReg floor) 16 12
  let held := if o.ctx = 0 then 0 else if o.ctx = 2 ∨ free ≤ d.exactFree floor then 2 else 1
  let d := d.sf (poolReg floor) 0 16 (d.gf (poolReg floor) 0 16 - o.need)
  let d := if held = 0 then d else d.sf (poolReg floor) 16 12 (free - 1)
  let d := if held = 2 then d.setExact floor (d.exactFree floor - 1) else d
  let d := d.subFree aUP_POOL_FREE (fun k => o.claims.getD k 0)
  let d := d.modOp o.group o.opseq (fun o => { o with granted := true, held := o.need, ctxHeld := held })
  (if o.update then d.noteClaim o.set else d).tryLaunch o.group o.opseq

/-- TALLY_GRANT (R226). -/
def execTallyGrant (floor : Bool) (s : State) : Host.Outcome State Fault Refusal :=
  devStep (fun d => d.when d.live (fun d => match d.headRequest floor with
    | some o => if d.grantable floor o then d.grantTally floor o else d
    | none => d)) s

/-- TALLY_TIMEOUT (R228). -/
def execTallyTimeout (g q : Nat) (s : State) : Host.Outcome State Fault Refusal :=
  devStep (fun d => match d.op? g q with
    | none => d
    | some o => d.when (d.live && !o.granted && decide (Int.ofNat (orOne (d.gf aSM_TALLY_CFG 16 16) * 4096) ≤ d.since o.key)) (fun d =>
        (d.opFail g q stTALLY_TIMEOUT true none).count aCNT_TALLY_TIMEOUT)) s

/-! ## Taking packets for an operation (R109, R212) -/

/-- The first packet of an opcode that arrived on a port and waits to be consumed. -/
def Dev.inboxPkt (d : Dev) (p op : Nat) : Option BPkt :=
  d.fb.pkts.find? (fun b => b.place == .inbox && b.src == some p && b.pkt.opcode == op)

/-- Discard a packet with the count and event of R109 and R212. -/
def Dev.ungranted (d : Dev) (id : Nat) : Dev := ((d.dropPkt id).count aCNT_SM_UNGRANTED).report 4 8 0 0

/-- Discard a packet whose FORMAT its operation does not expect (R173). -/
def Dev.badFormat (d : Dev) (id : Nat) : Dev := (d.dropPkt id).report 4 7 0 0

/-- Take a control packet or group data for a launched operation; hold it before the launch, discard it when the operation has ended
(R109). -/
def Dev.forOp (d : Dev) (b : BPkt) (f : Dev → Grp → ClOp → Dev) : Dev :=
  match d.grp? b.pkt.group with
  | none => d.ungranted b.id
  | some x =>
    match d.op? b.pkt.group b.pkt.arg1 with
    | some o =>
      if o.launched then
        let d := if b.replayed then d.modOp o.group o.opseq (fun o => { o with flags := o.flags ||| 128 }) else d
        f d x { o with flags := if b.replayed then o.flags ||| 128 else o.flags }
      else d.modPkt b.id (fun b => { b with place := .early })
    | none =>
      if staleSeq x b.pkt.arg1 || d.cl.gone.contains (b.pkt.group, b.pkt.arg1) then d.dropPkt b.id
      else d.modPkt b.id (fun b => { b with place := .early })

/-- HELD_PACKET_TIMEOUT (R109): the oldest packet held too long at a port is discarded. -/
def execHeldPacketTimeout (p : Nat) (s : State) : Host.Outcome State Fault Refusal :=
  devStep (fun d => d.when d.live (fun d =>
    let due := fun (b : BPkt) => b.place == .early && b.src == some p && (match d.grp? b.pkt.group with
      | none => true
      | some x => decide (Int.ofNat x.tmoTicks ≤ d.since b.time))
    match d.fb.pkts.find? due with
    | some b => d.ungranted b.id
    | none => d)) s

/-! ## Combining (R219 to R221, R235, R239 to R242) -/

/-- What the datapath has raised over one input of a piece. -/
structure PieceEv where
  rank : Option Nat
  up : Raised
  deriving DecidableEq, Repr

/-- Combine one input with a piece's accumulator. -/
def takeInput (c : RcCtx) (p : Piece) (s : Staged) : Piece × PieceEv × Option RcRun :=
  let fresh := p.combined.isEmpty
  if s.part then
    let r := c.merge fresh true p.acc s.codes
    ({ p with acc := r.1, combined := p.combined ++ [s.rank] }, ⟨some s.rank, r.2⟩, none)
  else
    let r := c.arriveAll fresh p.acc s.codes
    ({ p with acc := r.1, combined := p.combined ++ [s.rank] }, ⟨some s.rank, r.2.1⟩, some r.2.2)

/-- Under CHAIN, combine the staged inputs whose turn has come (R219). -/
def chainOn (c : RcCtx) (order : List Nat) : Nat → Piece → Piece × List PieceEv × Option RcRun
  | 0, p => (p, [], none)
  | n + 1, p =>
    match order.find? (fun r => !p.combined.contains r) with
    | none => (p, [], none)
    | some r =>
      match p.staged.find? (fun s => s.rank == r) with
      | none => (p, [], none)
      | some s =>
        let x := takeInput c { p with staged := p.staged.filter (fun s => s.rank != r) } s
        let y := chainOn c order n x.1
        (y.1, x.2.1 :: y.2.1, match y.2.2 with
          | some run => some run
          | none => x.2.2)

/-- Under PAIRWISE, combine a whole piece (R220). -/
def pairAll (c : RcCtx) (p : Piece) : Piece × List PieceEv × Option RcRun :=
  let ss := sortBy (fun (a b : Staged) => decide (a.rank ≤ b.rank)) p.staged
  let one := fun (s : Staged) => takeInput c { p with combined := [], acc := [] } s
  let xs := ss.map one
  let r := c.pairwise 64 ((ss.zip xs).map (fun x => (x.1.rank, x.2.1.acc)))
  ({ p with acc := r.1, combined := ss.map (fun s => s.rank), staged := [] },
   xs.map (fun x => x.2.1) ++ r.2.map (fun m => ⟨some m.1, m.2⟩), (xs.filterMap (fun x => x.2.2)).getLast?)

/-- The datapath's events reach the operation: flags, the trap, and under HALT its failure (R195 to R198). The second value is false where
the operation has failed. -/
def Dev.pieceRaise (d : Dev) (g q k sm slot : Nat) (evs : List PieceEv) (run : Option RcRun) : Dev × Bool :=
  let d := match run with
    | some r => { d with sm := { d.sm with runs := mput RcRun.init sm r d.sm.runs } }
    | none => d
  match d.op? g q with
  | none => (d, false)
  | some o =>
    let ovf := evs.any (fun e => e.up.ovf)
    let ieee := evs.foldl (fun n e => n ||| e.up.ieee) o.ieee
    let d := d.putOp { o with flags := if ovf then o.flags ||| 8 else o.flags, ieee := ieee }
    let ts := evs.flatMap (fun e => e.up.evs.map (fun v => TrapEv.ofRc v.2 (k * o.e + v.1) sm slot e.rank g))
    match o.joins with
    | [] => (d, true)
    | j :: _ =>
      let r := d.trapAll o.trap j.2 o.num ts
      let d := r.1.modOp g q (fun o => { o with trap := r.2 })
      if o.num.trap && o.num.halt && !ts.isEmpty then (d.opFail g q stNAN_TRAPPED true none, false) else (d, true)

/-- A piece is complete here (R239 to R241): its result is emitted, handed to the benches, or sent toward the root. -/
def Dev.pieceDone (d : Dev) (x : Grp) (g q k : Nat) (p : Piece) : Dev :=
  match d.op? g q with
  | none => d
  | some o =>
    match d.toward x o k with
    | some n =>
      let d := d.modOp g q (fun o => o.completePiece k)
      let d := if k < mget 0 n o.limitIn then d.sendPart x o n p.sm k p.acc
        else d.modOp g q (fun o => { o with waiting := o.waiting ++ [(k, p.sm, p.acc)] })
      match d.op? g q with
      | some o => (d.trimSlots x o).raiseLimit x o
      | none => d
    | none =>
      if o.update then
        let r := d.gradOf o k p.acc
        let e := d.pieceRaise g q k p.sm p.slot [⟨none, r.2.1⟩] (some r.2.2)
        if !e.2 then e.1 else
        let d := e.1.modOp g q (fun o => { o with handoff := minsert k r.1 o.handoff, pieces := minsert k p o.pieces })
        if o.twin.compare then
          let f := accOf o.inFmt
          d.originate 66 (mkPkt 0 1 0xED 0 0 f g 0 (k % 2 ^ 32 + 2 ^ 47 + 2 ^ 48) q (packTensor f p.acc)) [256]
        else d
      else
        let r := (d.rcCtx o).finish (k * o.e) p.acc
        let e := d.pieceRaise g q k p.sm p.slot [⟨none, r.2.1⟩] (some r.2.2)
        if !e.2 then e.1 else
        let body := packTensor o.outFmt r.1
        let d := e.1.modOp g q (fun o => { o.completePiece k with part := (o.part + mixBytes body (16 * k)) % 2 ^ 128, emitted := o.emitted + 1 })
        match d.op? g q with
        | some o => ((d.sendResult x o p.sm k body).trimSlots x o).raiseLimit x o
        | none => d

/-- One input of a piece is taken in (R219 to R221). -/
def Dev.pieceInput (d : Dev) (x : Grp) (g q k : Nat) (s : Staged) : Dev :=
  match d.op? g q with
  | none => d
  | some o =>
    let order := (d.inputs x (d.toward x o k)).map (fun i => i.1)
    let d := if (mget? k o.pieces).isNone then d.freeNext else d
    let p := (mget? k o.pieces).getD ⟨[], [], [], [], d.pickSmelter, d.freeNat % 32768⟩
    let p := { p with got := s.rank :: p.got }
    let c := d.rcCtx o
    let whole := decide (order.length ≤ p.got.length)
    let chain := o.exact && !d.pairwise
    let inTurn := order.find? (fun r => !p.combined.contains r) == some s.rank
    let d := if chain && !inTurn then d.count aCNT_SM_STAGED else d
    let staged := { p with staged := p.staged ++ [s] }
    let r := if !o.exact then (let t := takeInput c p s
                               (t.1, [t.2.1], t.2.2))
      else if chain then chainOn c order order.length staged
      else if whole then pairAll c staged else (staged, [], none)
    let d := d.modOp g q (fun o => { o with pieces := minsert k r.1 o.pieces })
    let e := d.pieceRaise g q k p.sm p.slot r.2.1 r.2.2
    if e.2 && whole then e.1.pieceDone x g q k r.1 else e.1

/-- The input that a packet on a port stands for: its rank when the header names it. -/
def Dev.inputOf (d : Dev) (x : Grp) (o : ClOp) (p : Nat) (part : Bool) (rank k : Nat) : Bool :=
  (d.inputs x (d.toward x o k)).any (fun i => i.1 == rank && (match i.2 with
    | none => !part && d.memVia x rank == p && o.grants.contains p
    | some n => part && (d.nbPorts x n).contains p))

/-- SM_PART (R173, R212, R219): check its pieces against their grants, its FORMAT, and then its length in that format; take the pieces in. -/
def Dev.takePart (d : Dev) (b : BPkt) (x : Grp) (o : ClOp) (p : Nat) : Dev :=
  let k0 := nfld b.pkt.arg0 0 32
  let rank := nfld b.pkt.arg0 32 15
  let part := b.pkt.arg0.testBit 47
  let n := nfld b.pkt.arg0 48 8
  let fmt := if part then accOf o.inFmt else o.inFmt
  let ks := (List.range n).map (fun i => k0 + i)
  let size := fun k => tensorBytes fmt (o.len x.nmemb k)
  let okPiece := fun k => decide (k < o.limit) && decide (o.low ≤ k) && !o.done.contains k && d.inputOf x o p part rank k &&
    !((mget? k o.pieces).any (fun q => q.got.contains rank))
  if !o.reducing ∨ n = 0 ∨ !ks.all okPiece then d.ungranted b.id
  else if b.pkt.format ≠ fmt then d.badFormat b.id
  else if maxPieces fmt part < n ∨ b.pkt.len ≠ (ks.map size).sum then d.ungranted b.id
  else
    let d := (d.dropPkt b.id).opTouch o.group o.opseq
    (ks.foldl (fun (s : Dev × Bytes) k =>
      (s.1.pieceInput x o.group o.opseq k ⟨rank, part, unpackTensor fmt (o.len x.nmemb k) s.2⟩, s.2.drop (size k))) (d, b.pkt.body)).1

/-- SM_PART (R219). One that comes for an operation that is not launched here is discarded at once (R212); for one that has failed here or was
aborted before it was created, without counting (R229). -/
def execSmPart (p : Nat) (s : State) : Host.Outcome State Fault Refusal :=
  devStep (fun d => d.when d.live (fun d => match d.inboxPkt p 0xE0 with
    | none => d
    | some b => match d.grp? b.pkt.group with
      | none => d.ungranted b.id
      | some _ => match d.op? b.pkt.group b.pkt.arg1 with
        | some o => if o.launched then (d.forOp b (fun d x o => d.takePart b x o p)).clPoll else d.ungranted b.id
        | none =>
          if d.cl.gone.contains (b.pkt.group, b.pkt.arg1) || d.cl.aborts.any (fun a => a.1 == b.pkt.group && a.2.1 == b.pkt.arg1) then
            d.dropPkt b.id
          else d.ungranted b.id)) s

/-! ## Grants, aborts (R210, R229) -/

/-- SM_GRANT (R210): the LIMIT of a neighbour rises, and the partial sums that wait for it leave. -/
def Dev.takeGrant (d : Dev) (b : BPkt) (x : Grp) (o : ClOp) (p : Nat) : Dev :=
  let d := d.dropPkt b.id
  match d.nbOfPort x p with
  | none => d
  | some n =>
    let lim := max (mget 0 n o.limitIn) (nfld b.pkt.arg0 0 32)
    let go := fun (w : Nat × Nat × List Nat) => d.toward x o w.1 == some n && decide (w.1 < lim)
    let o := { o with limitIn := mput 0 n lim o.limitIn, waiting := o.waiting.filter (fun w => !go w) }
    (d.cl.ops.find? (fun y => y.group == o.group && y.opseq == o.opseq)).elim d (fun y =>
      (y.waiting.filter go).foldl (fun d w => d.sendPart x o n w.2.1 w.1 w.2.2) (d.putOp o))

/-- SM_GRANT (R210). -/
def execSmGrant (p : Nat) (s : State) : Host.Outcome State Fault Refusal :=
  devStep (fun d => d.when d.live (fun d => match d.inboxPkt p 0xE1 with
    | none => d
    | some b => (d.forOp b (fun d x o => d.takeGrant b x o p)).clPoll)) s

/-- The status an SM_ABORT carries (R229). -/
def abortStatus (n : Nat) : Nat := if n = 0 ∨ 15 < n then stABORTED else n

/-- SM_ABORT (R229): the operation fails here with the status it names, and the tree's other devices hear of it; for an operation not yet
created here it is kept. -/
def execSmAbort (p : Nat) (s : State) : Host.Outcome State Fault Refusal :=
  devStep (fun d => d.when d.live (fun d => match d.inboxPkt p 0xE2 with
    | none => d
    | some b =>
      let d := d.dropPkt b.id
      let g := b.pkt.group
      let q := b.pkt.arg1
      let st := abortStatus (nfld b.pkt.arg0 0 8)
      match d.grp? g with
      | none => d
      | some x => match d.op? g q with
        | some _ => d.opFail g q st true (d.nbOfPort x p)
        | none =>
          if staleSeq x q ∨ d.cl.aborts.any (fun a => a.1 == g && a.2.1 == q) then d
          else ({ d with cl := { d.cl with aborts := d.cl.aborts ++ [(g, q, st)] } }).sendAbort x q st (d.nbOfPort x p))) s

/-! ## Faults of Smelters and reduction memory (R206, R231) -/

/-- The operations with a piece on a logical Smelter (R206). -/
def Dev.opsOn (d : Dev) (l : Nat) : List (Nat × Nat) :=
  (d.cl.ops.filter (fun o => o.pieces.any (fun p => p.2.sm == l))).map (fun o => (o.group, o.opseq))

/-- SMELTER_FAULT (R206, R443): a corrected error is reported; an uncorrectable one fences the Smelter, and the operations with a piece on it
fail. -/
def execSmelterFault (phys : Nat) (corrected : Bool) (s : State) : Host.Outcome State Fault Refusal :=
  devStep (fun d => d.when (d.live && decide (phys < 68) && !d.smFenced phys) (fun d =>
    if corrected then d.report 13 0 phys 0 else
    let hit := ((List.range 64).filter (fun l => d.smPhys l == some phys)).flatMap d.opsOn
    let d := (d.report 13 1 phys 0).fenceSmelter phys
    hit.foldl (fun d h => d.opFail h.1 h.2 stDATA_LOST true none) d)) s

/-- A slot of the floor has been retired: a free general slot takes its place, or the general pool owes one (R231). -/
def Dev.refloor (d : Dev) : Dev :=
  if 0 < d.gf 0x6000C 0 16 then (d.sf 0x6000C 0 16 (d.gf 0x6000C 0 16 - 1)).sf 0x60010 0 16 (d.gf 0x60010 0 16 + 1)
  else { d with sm := { d.sm with owed := d.sm.owed + 1 } }

/-- A slot is retired for good (R231). -/
def Dev.retireSlot (d : Dev) (slot : Nat) : Dev :=
  let d := (d.report 10 1 (slot / 8192) slot).count aSM_RETIRED
  { d with sm := { d.sm with retired := d.sm.retired ++ [slot] } }

/-- The operation that holds a slot loses it and fails (R231). -/
def Dev.slotLost (d : Dev) (o : ClOp) : Dev :=
  let floor := (d.grp? o.group).any (fun x => x.tc == 0)
  let d := d.modOp o.group o.opseq (fun o => { o with held := o.held - 1 })
  (if floor then d.refloor else d).opFail o.group o.opseq stDATA_LOST true none

/-- A free slot of a pool is lost (R231). -/
def Dev.freeLost (d : Dev) (floor : Bool) : Dev :=
  let d := d.sf (poolReg floor) 0 16 (d.gf (poolReg floor) 0 16 - 1)
  if floor then d.refloor else d

/-- RED_MEM_ECC_ERROR (R231): a corrected error is reported. At an uncorrectable one the slot is retired for good, and the operation that held
it fails; `owner` is that operation, or the pool in which the slot lay free (log 97). Without such a slot there is no such error. -/
def execRedMemEccError (e : EccError) (owner : SlotHolder) (s : State) : Host.Outcome State Fault Refusal :=
  let slot := e.site
  devStep (fun d => d.when (d.live && decide (slot < 32768) && !d.sm.retired.contains slot) (fun d =>
    if e.corrected then d.report 10 0 (slot / 8192) slot else
    match owner with
    | .op g q => match d.op? g q with
      | some o => if o.held = 0 then d else (d.retireSlot slot).slotLost o
      | none => d
    | .pool floor => if d.gf (poolReg floor) 0 16 = 0 then d else (d.retireSlot slot).freeLost floor)) s

/-- SM_QHEAD_LO_READ (R493): the key of the first pending general request, its high half latched. -/
def execSmQheadLoRead (s : State) : Host.Outcome State Fault Refusal :=
  devStep (fun d => d.when d.perst (fun d =>
    let k := ((d.headRequest false).map (fun o => o.key)).getD 0
    let d := d.emit (.readValue 0x60018 (BitVec.ofNat 32 k.toNat))
    if d.stopped then d else { d with sm := { d.sm with qhi := BitVec.ofNat 32 (k.toNat / 2 ^ 32) } })) s

/-! ## Group data (R261, R262) -/

/-- The rank of the member whose EP_ID a packet names. -/
def Dev.destRank (d : Dev) (x : Grp) (p : Pkt) : Option Nat := d.rankOf x p.dst

/-- Where a CL_DATA packet goes (R262). -/
def Dev.dataBranches (d : Dev) (x : Grp) (o : ClOp) (p : Pkt) (src : Option Nat) : List Branch :=
  if p.arg0.testBit 47 then
    match o.opc with
    | 0x21 => [d.towardRank x p src o.root]
    | 0x22 =>
      let rank := (d.destRank x p).getD 0
      if p.dst = 0 then [] else [d.towardRank x p src rank]
    | _ => d.multicastBranches x p src
  else if o.opc = 0x25 ∨ o.opc = 0x26 then
    match d.destRank x p with
    | some r => [d.towardRank x p src r]
    | none => []
  else d.multicastBranches x p src

/-- A local member's CL_DATA is within its grant, and its pieces are new (R262). -/
def Dev.dataGranted (d : Dev) (x : Grp) (o : ClOp) (p : Pkt) (rank : Nat) : Bool :=
  let k0 := nfld p.arg0 0 32
  let n := nfld p.arg0 48 8
  let target := if o.opc = 0x25 ∨ o.opc = 0x26 then (d.destRank x p).getD x.nmemb else 0
  let total := ((o.sends x.nmemb rank).find? (fun s => s.1 == target)).elim 0 (fun s => s.2)
  let open_ := o.opc != 0x26 || o.countDone
  open_ && !p.arg0.testBit 47 && decide (k0 + n ≤ total) && decide (0 < n) && o.grants.contains (d.memVia x rank) &&
    (List.range n).all (fun i => !o.taken.contains (rank, target, k0 + i))

/-- CL_DATA of a launched operation (R262). -/
def Dev.takeData (d : Dev) (b : BPkt) (x : Grp) (o : ClOp) (p : Nat) : Dev :=
  let g := o.group
  let q := o.opseq
  let go := fun (d : Dev) =>
    let bs := d.dataBranches x o b.pkt b.src
    ((d.noteBytes x g q b.pkt.len bs).opTouch g q).queueBranches x b.id bs
  match d.rankAt x p with
  | some rank =>
    if !d.dataGranted x o b.pkt rank then d.ungranted b.id
    else
      let target := if o.opc = 0x25 ∨ o.opc = 0x26 then (d.destRank x b.pkt).getD x.nmemb else 0
      let new := (List.range (nfld b.pkt.arg0 48 8)).map (fun i => (rank, target, nfld b.pkt.arg0 0 32 + i))
      go (d.modOp g q (fun o => { o with taken := new ++ o.taken }))
  | none => go d

/-- CL_DATA (R109, R261, R262); a group without a record has it discarded under R99. -/
def execClData (p : Nat) (s : State) : Host.Outcome State Fault Refusal :=
  devStep (fun d => d.when d.live (fun d => match d.inboxPkt p 0xE3 with
    | none => d
    | some b => match d.grp? b.pkt.group with
      | none => d.noRoute b.id
      | some _ => (d.forOp b (fun d x o => d.takeData b x o p)).clPoll)) s

/-- Send a run of counts on its way (R263): stored for local members, or sent on as a CL_COUNT. -/
def Dev.countRun (d : Dev) (x : Grp) (g q srank first : Nat) (cs : List Nat) : Dev :=
  match cs with
  | [] => d
  | c :: _ =>
    if d.memLocal x first then d.modOp g q (fun o => { o with counts := putCount (65536 * first + srank) c o.counts })
    else
      let p := mkPkt x.tc 3 0xE5 0 0 0 g 0 (first + srank * 2 ^ 31) q (cs.flatMap (toLE 4))
      d.opSend x p [d.toNb x p none (d.memVia x first)]

/-- Split counts by next hop into runs of consecutive ranks (R263). -/
def Dev.countRuns (d : Dev) (x : Grp) (srank : Nat) : List (Nat × Nat) → List (Nat × List Nat)
  | [] => []
  | (r, c) :: rest =>
    let more := d.countRuns x srank rest
    if r = srank then more else
    match more with
    | (r2, cs) :: tail =>
      if r2 = r + 1 ∧ !d.memLocal x r ∧ !d.memLocal x r2 ∧ d.memVia x r = d.memVia x r2 then (r, c :: cs) :: tail else (r, [c]) :: more
    | [] => [(r, [c])]

/-- CL_COUNT of a launched ALLTOALLV (R263); an element count in an MX format is a multiple of 32 (R178). -/
def Dev.takeCount (d : Dev) (b : BPkt) (x : Grp) (o : ClOp) (p : Nat) : Dev :=
  let g := o.group
  let q := o.opseq
  let first := nfld b.pkt.arg0 0 15
  let srank := nfld b.pkt.arg0 31 15
  let n := b.pkt.len / 4
  let cs := (List.range n).map (fun i => (first + i, rdLE b.pkt.body (4 * i) 4))
  let fromMember := d.rankAt x p == some srank
  let d := (d.dropPkt b.id).opTouch g q
  let bad := fun (c : Nat × Nat) => c.1 != srank && (decide (o.count < c.2) || (isMx o.inFmt && c.2 % 32 != 0))
  if cs.any bad then d.opFail g q stLENGTH_RANGE true none
  else
    let d := if fromMember then d.modOp g q (fun o =>
      { o with sentCounts := cs.foldl (fun m c => putCount (65536 * srank + c.1) c.2 m) o.sentCounts }) else d
    (d.countRuns x srank (cs.filter (fun c => decide (c.1 < x.nmemb)))).foldl (fun d r => d.countRun x g q srank r.1 r.2) d

/-- CL_COUNT (R263). -/
def execClCount (p : Nat) (s : State) : Host.Outcome State Fault Refusal :=
  devStep (fun d => d.when d.live (fun d => match d.inboxPkt p 0xE5 with
    | none => d
    | some b => (d.forOp b (fun d x o => d.takeCount b x o p)).clPoll)) s

/-! ## The waves (R264 to R266) -/

/-- CL_DONE of a launched operation. -/
def Dev.takeDone (d : Dev) (b : BPkt) (x : Grp) (o : ClOp) (p : Nat) : Dev :=
  let g := o.group
  let q := o.opseq
  let down := b.pkt.arg0.testBit 0
  let counts := b.pkt.arg0.testBit 1
  let d := (d.dropPkt b.id).opTouch g q
  let n := d.nbOfPort x p
  let w := waveOf b.pkt.body
  if counts then
    if down then (if o.countDone then d else d.countsOver x g q n)
    else d.modOp g q (fun o => { o with countUps := n.getD 0x1F :: o.countUps })
  else if down then d.decide_ o x w n
  else match n with
    | some n => d.modOp g q (fun o => { o with ups := minsert n w o.ups })
    | none => d

/-- CL_DONE (R264, R265). -/
def execClDone (p : Nat) (s : State) : Host.Outcome State Fault Refusal :=
  devStep (fun d => d.when d.live (fun d => match d.inboxPkt p 0xE4 with
    | none => d
    | some b => (d.forOp b (fun d x o => d.takeDone b x o p)).clPoll)) s

/-! ## Time limits and fences (R270 to R272, R138 to R140) -/

/-- ORDER_TIMEOUT (R270, R272). -/
def execOrderTimeout (g q : Nat) (s : State) : Host.Outcome State Fault Refusal :=
  devStep (fun d => match d.op? g q, d.grp? g with
    | some o, some x => d.when (d.live && o.waits && d.opLacks x o && decide (Int.ofNat x.tmoTicks ≤ d.since o.timer)) (fun d =>
        if o.upSent && !x.isHome && d.nbDown x x.home then (d.opFail g q stMEMBER_FENCED false none).count aCNT_MEMBER_FENCED
        else (d.opFail g q stORDER_TIMEOUT true none).count aCNT_ORDER_TIMEOUT)
    | _, _ => d) s

/-- An operation has lost a member or a needed neighbour since it was created (R271); the endpoint that FENCED_MEMBER names. After the upward
wave has left, the loss of the way toward HOME is left to the order timer (R272). -/
def Dev.opLost (d : Dev) (o : ClOp) : Option (Option Nat) :=
  match d.grp? o.group with
  | none => none
  | some x =>
    let gone := (List.range x.nmemb).filter (fun r => !o.fenced0.contains r && d.fenced (d.memEp x r))
    let here := (gone.filter (d.memLocal x)).map (d.memEp x)
    let needed := (List.range x.nnbr).filter (fun n => !(o.upSent && !x.isHome && n == x.home))
    if gone.isEmpty && !needed.any (d.nbDown x) then none
    else some (here.foldl (fun (a : Option Nat) e => some (min e (a.getD e))) none)

/-- A member whose fence has been lifted may be fenced again (R271). -/
def Dev.noteUnfenced (d : Dev) : Dev :=
  { d with cl := { d.cl with ops := d.cl.ops.map (fun o => match d.grp? o.group with
      | some x => { o with fenced0 := o.fenced0.filter (fun r => d.fenced (d.memEp x r)) }
      | none => o) } }

/-- Fail every operation that a fence has reached (R271); an update whose upward wave has left waits for its decision (R353). -/
def Dev.sweepFenced (d : Dev) : Dev :=
  let d := d.noteUnfenced
  d.cl.ops.foldl (fun d o =>
    if o.joins.isEmpty then d else
    match d.op? o.group o.opseq, d.opLost o with
    | some o, some ep =>
      if o.update && (o.upSent || o.decision.isSome) then d
      else
        let d := d.modOp o.group o.opseq (fun o => { o with fencedEp := match ep with
          | some e => some (min e (o.fencedEp.getD e))
          | none => o.fencedEp })
        (d.opFail o.group o.opseq stMEMBER_FENCED true none).count aCNT_MEMBER_FENCED
    | _, _ => d) d

/-- What a change of fences reaches: queued copies (R138, R139) and operations (R271). -/
def Dev.sweepFences (d : Dev) : Dev := d.sweepQueued.sweepFenced

/-- A notice that a device originated packet drew: an own packet has SRC 0, so a notice whose DST is 0 is ours (log 12). -/
def Dev.takeNotice (d : Dev) (p op : Nat) (f : Dev → Pkt → Dev) : Dev :=
  match d.inboxPkt p op with
  | none => d
  | some b => f (d.dropPkt b.id) b.pkt

/-- Note a fenced endpoint for the operations and sends of a group (R140). -/
def Dev.noteFenced (d : Dev) (g ep : Nat) : Dev :=
  let put := fun (a : Option Nat) => some (min ep (a.getD ep))
  { d with cl := { d.cl with ops := d.cl.ops.map (fun o => if o.group = g then { o with fencedEp := put o.fencedEp } else o) },
           me := { d.me with sends := d.me.sends.map (fun w => if w.running && rdLE w.body 32 2 == g then { w with fencedEp := put w.fencedEp } else w) } }

/-- PRUNED (R139, R140). -/
def execPruned (p : Nat) (s : State) : Host.Outcome State Fault Refusal :=
  devStep (fun d => d.when d.live (fun d => d.takeNotice p 0xF1 (fun d x => d.noteFenced (nfld x.arg0 31 16) (nfld x.arg0 0 15)))) s

/-- FENCED_NAK (R138): a notice for a request of this device; the KX9800 originates no packet of MCLASS Q, so no descriptor waits on one. -/
def execFencedNak (p : Nat) (s : State) : Host.Outcome State Fault Refusal :=
  devStep (fun d => d.when d.live (fun d => d.takeNotice p 0xF0 (fun d _ => d))) s

end Sys2Proof.Machine
end

