-- ==== Sys2Proof/Machine/Deputy.lean ====
section
/-! DEFINITION. The Deputy's own commands, the Surveyor and the clocks it throttles (chapter 17). Fences of benches, Smelters and
sorters stand with their units. -/

namespace Sys2Proof.Machine

/-- DP_ACK (R448). -/
def dpAckEffect (v : W32) (d : Dev) : Dev :=
  let c := fld v 0 5
  if c < 24 ∧ d.gb aDP_PEND c ∧ d.gf (aDP_OPEN c) 0 24 = fld v 8 24 then
    let d := d.sb aDP_PEND c false
    { d with dp := { d.dp with opens := mput none c none d.dp.opens } }
  else d.sb aDP_STAT 9 true

/-- DP_ACK (R448). -/
def execDpAck (v : W32) (s : State) : Host.Outcome State Fault Refusal := devStep (fun d => d.barWrite 0xA000C v dpAckEffect) s

/-- A physical unit is fenced (R466): kind 0 a bench, 1 a Smelter, 2 a sorter. -/
def Dev.unitFenced (d : Dev) (kind u : Nat) : Bool :=
  match kind with
  | 0 => decide (u < 136) && d.gb (aDP_FENCE_B + 4 * (u / 32)) (u % 32)
  | 1 => decide (u < 68) && d.gb (aDP_FENCE_S + 4 * (u / 32)) (u % 32)
  | 2 => decide (u < 68) && d.gb (aDP_FENCE_SORT + 4 * (u / 32)) (u % 32)
  | _ => false

/-- DP_FENCE_CLR (R458): the kept fence of a unit that is fenced goes at the next reset. -/
def dpFenceClrEffect (v : W32) (d : Dev) : Dev :=
  if bitAt v 31 && d.unitFenced (fld v 8 2) (fld v 0 8) then { d with dp := { d.dp with unkeep := (fld v 8 2, fld v 0 8) :: d.dp.unkeep } } else d

/-- DP_FENCE_CLR (R458). -/
def execDpFenceClr (v : W32) (s : State) : Host.Outcome State Fault Refusal :=
  devStep (fun d => d.barWrite 0xA0020 v dpFenceClrEffect) s

/-- DP_CNT_CLR (R466). -/
def dpCntClrEffect (v : W32) (d : Dev) : Dev := if bitAt v 0 then d.clearRegs (aDP_CNT 0) 4 24 else d

/-- DP_CNT_CLR (R466). -/
def execDpCntClr (v : W32) (s : State) : Host.Outcome State Fault Refusal :=
  devStep (fun d => d.barWrite 0xA0024 v dpCntClrEffect) s

/-- DEPUTY_WATCHDOG_EXPIRY (R454). -/
def execDeputyWatchdogExpiry (s : State) : Host.Outcome State Fault Refusal :=
  devStep (fun d => d.when d.live (fun d => d.report 22 0 0 0)) s

/-- CLOCK_LOCK_LOSS (R443): the site is the device, whichever generator it is. -/
def execClockLockLoss (_site : Nat) (s : State) : Host.Outcome State Fault Refusal :=
  devStep (fun d => d.when d.live (fun d => d.report 19 0 0 0)) s

/-! ## Heat and load (R459, R460) -/

/-- The Surveyor's state of a deck. -/
def Dev.deck (d : Dev) (k : Nat) : DeckSurvey := mget DeckSurvey.init k d.dp.decks

/-- Set the Surveyor's state of a deck. -/
def Dev.setDeck (d : Dev) (k : Nat) (x : DeckSurvey) : Dev := { d with dp := { d.dp with decks := mput DeckSurvey.init k x d.dp.decks } }

/-- An open maintenance window covers a deck (R463). -/
def Dev.inMaint (d : Dev) (k : Nat) : Bool :=
  (List.range 2).any (fun w => (mget none w d.dp.windows).isSome && d.gb (aSU_WIN w) (1 + k))

/-- The Assay and Smelter clock of a deck, in 1/256 of the grade clock: the lowest that any throttle sets (R459, R462 to R464). -/
def Dev.deckClock (d : Dev) (k : Nat) : Nat :=
  let x := d.deck k
  let cap := d.gf (aSU_VDD k) 16 8
  min (min (256 - 16 * x.therm) (256 - 16 * x.alarm)) (min (if cap = 0 then 256 else cap) (if d.inMaint k then 128 else 256))

/-- One deck's temperature against THROTTLE (R459): a step down or up each 2^16 ticks, the first of an episode reported. -/
def Dev.thermDeck (d : Dev) (k temp : Nat) : Dev :=
  let x := d.deck k
  let thr := d.gf aDP_THERM 0 8
  let due := decide (65536 ≤ d.since x.thermAt) || !x.hot
  if thr < temp then
    if !due then d else
    let d := d.setDeck k { x with therm := min 12 (x.therm + 1), hot := true, thermAt := d.now, spoilt := true }
    if x.hot then d else d.report 17 0 k 0
  else if temp + 2 ≤ thr ∧ x.hot then
    if !due then d else d.setDeck k { x with therm := x.therm - 1, hot := decide (1 < x.therm), thermAt := d.now, spoilt := true }
  else d

/-- THERMAL_THROTTLE_STEP (R459): the junction temperatures of the four decks and the two floors, in °C. -/
def execThermalThrottleStep (decks floors : List Nat) (s : State) : Host.Outcome State Fault Refusal :=
  devStep (fun d => d.when d.live (fun d =>
    let d := d.wr aDP_TEMP (BitVec.ofNat 32 (leNat ((decks.map (BitVec.ofNat 8)).take 4)))
    let d := d.wr aDP_TEMP_FLOOR (BitVec.ofNat 32 (leNat ((floors.map (BitVec.ofNat 8)).take 2)))
    let d := (List.range 4).foldl (fun d k => match decks[k]? with
      | some t => d.thermDeck k t
      | none => d) d
    let trip := d.gf aDP_THERM 8 8
    let d := (List.range 4).foldl (fun d k => if trip < decks.getD k 0 then d.report 17 1 k 0 else d) d
    (List.range 2).foldl (fun d k => if trip < floors.getD k 0 then d.report 17 1 k 0 else d) d)) s

/-- The load band of a percentage (R460). -/
def loadBand (pct : Nat) : Nat := if pct < 10 then 0 else if pct < 40 then 1 else if pct < 75 then 2 else 3

/-- One port's load sample: a lane whose port is FULL comes nearer its move back to an earlier alternative (R465). -/
def Dev.samplePort (d : Dev) (p pct : Nat) : Dev :=
  let b := loadBand pct
  let d := { d with dp := { d.dp with portBand := mput 0 p b d.dp.portBand } }
  if b = 3 then (d.lanesOf p).foldl (fun d l => d.laneQuiet l) d else d

/-- LOAD_SAMPLE (R460): loads in per cent, each 4,096 ticks. -/
def execLoadSample (decks : List Nat) (ports : List (Nat × Nat)) (s : State) : Host.Outcome State Fault Refusal :=
  devStep (fun d => d.when (d.live && decide (4096 ≤ d.since d.dp.loadAt)) (fun d =>
    let d := { d with dp := { d.dp with loadAt := d.now } }
    let d := ports.foldl (fun d x => d.samplePort x.1 x.2) d
    (List.range 4).foldl (fun d k => match decks[k]? with
      | some pct =>
        let b := loadBand pct
        let x := d.deck k
        let spoilt := x.spoilt || d.inMaint k || x.therm != 0 || x.alarm != 0
        (d.sf aSU_STAT (8 * k) 2 b).setDeck k { x with band := some (min b (x.band.getD b)), spoilt := spoilt }
      | none => d) d)) s

/-! ## Measurement and plan (R461, R462) -/

/-- The newest FULL measurement of a deck: the fused baseline of hour 0 where none is kept (R461). -/
def Dev.fullMeas (d : Dev) (k : Nat) : Meas := (mget none 3 (d.deck k).meas).getD ⟨(Config.fusedVreq k).toNat, 0⟩

/-- Whether a measurement is valid (R461). -/
def Dev.measValid (d : Dev) (m : Meas) : Bool := decide ((d.rg aSU_HOURS).toNat - m.hour < orOne (d.gf aSU_CFG 16 16))

/-- The V_REQ that enters the plan, with whether it is guarded (R462). -/
def Dev.planVq (d : Dev) (k : Nat) : Nat × Bool :=
  let f := d.fullMeas k
  let light := ((List.range 3).filterMap (fun b => mget none b (d.deck k).meas)).filter d.measValid
  if d.measValid f then ((light.filter (fun m => decide (f.hour < m.hour))).foldl (fun v m => max v m.vreq) f.vreq, false)
  else (light.foldl (fun v m => max v m.vreq) f.vreq + orOne (d.gf aSU_CFG 4 4), true)

/-- Form a deck's plan (R462): code 50 is 0.85 V. `cap` is the fraction the monitors require, in 1/256. -/
def Dev.formPlan (d : Dev) (k cap : Nat) : Dev :=
  let vq := d.planVq k
  let want := vq.1 + d.gf aSU_CFG 0 4
  let plan := min 50 want
  let capped := decide (50 < want)
  let wasCap := d.gb aSU_STAT (8 * k + 3)
  let changed := plan != d.gf (aSU_VDD k) 8 8
  let d := d.sf (aSU_VDD k) 8 8 plan
  let d := d.sf (aSU_VDD k) 16 8 (if capped then cap else 0)
  let d := (d.sb aSU_STAT (8 * k + 2) vq.2).sb aSU_STAT (8 * k + 3) capped
  let d := d.sb aSU_STAT (8 * k + 4) (plan != d.gf (aSU_VDD k) 0 8)
  let d := d.setDeck k { d.deck k with planned := true }
  let d := if changed then d.report 20 0 k 0 else d
  if capped && !wasCap then d.report 20 2 k 0 else d

/-- SURVEYOR_MEASUREMENT (R461, R462): at the end of an interval of 2^24 ticks. A measurement is taken unless a window or throttle spoilt the
interval; the plan is formed from what is then valid either way, which ends a slack alarm at the next window (R464; log 108). -/
def execSurveyorMeasurement (k vreq cap : Nat) (s : State) : Host.Outcome State Fault Refusal :=
  devStep (fun d =>
    let x := d.deck k
    d.when (d.live && decide (k < 4) && decide (2 ^ 24 ≤ d.since x.measAt)) (fun d =>
      let fresh := { x with measAt := d.now, band := none, spoilt := d.inMaint k || x.therm != 0 || x.alarm != 0 }
      let meas := match (if x.spoilt then none else x.band) with
        | some b => mput none b (some ⟨vreq % 256, (d.rg aSU_HOURS).toNat⟩) x.meas
        | none => x.meas
      (d.setDeck k { fresh with meas := meas }).formPlan k cap)) s

/-! ## Maintenance windows (R463, R464) -/

/-- A window's base: SU_WIN_BASE + w · 2^31. -/
def Dev.winBase (d : Dev) (w : Nat) : W64 := BitVec.ofNat 64 (d.rg64 aSU_WIN_BASE_LO + w * 2 ^ 31)

/-- A window's period in ticks. -/
def Dev.winPeriod (d : Dev) (w : Nat) : Nat := orOne (d.gf (aSU_WIN w) 16 16) * 2 ^ 32

/-- How many MAINT series are enabled: refresh windows and maintenance windows (R42). -/
def Dev.maintDemand (d : Dev) : Nat :=
  ((List.range 8).filter (fun s => d.gb (aMEM_REF s) 0)).length + ((List.range 2).filter (fun w => d.gb (aSU_WIN w) 0)).length

/-- Whether one more MAINT series may be enabled (R42, R43). -/
def Dev.maintRoom (d : Dev) : Bool :=
  decide (d.maintDemand + 1 ≤ d.cmpRes 3 + (64 - ((List.range 4).map d.cmpRes).sum)) && d.cmpFree 3 1

/-- SU_WIN: an enabled window holds one MAINT comparator; enabling beyond what R42 allows is refused. -/
def suWinEffect (w : Nat) (v : W32) (d : Dev) : Dev :=
  let was := d.gb (aSU_WIN w) 0
  if bitAt v 0 && !was && !d.maintRoom then d else
  let d := Dev.plainWrite (aSU_WIN w) v d
  if bitAt v 0 then
    let t := d.nextOf (d.winBase w) (d.winPeriod w)
    if was then d.rearm (.maint w) t else d.takeCmp 3 t none (.maint w)
  else { d.dropCmp (.maint w) with dp := { d.dp with windows := mput none w none d.dp.windows } }

/-- SU_WIN_BASE: the series of the enabled windows follow it. -/
def suBaseEffect (a : Nat) (v : W32) (d : Dev) : Dev :=
  (List.range 2).foldl (fun d w => if d.gb (aSU_WIN w) 0 then d.rearm (.maint w) (d.nextOf (d.winBase w) (d.winPeriod w)) else d)
    (Dev.plainWrite a v d)

/-- The slack alarm of a deck is over: its plan, formed after the alarm, is applied (R464). -/
def Dev.endAlarm (d : Dev) (k : Nat) : Dev :=
  let x := d.deck k
  if x.alarm ≠ 0 ∧ x.planned ∧ d.gf (aSU_VDD k) 0 8 = d.gf (aSU_VDD k) 8 8 then
    (d.setDeck k { x with alarm := 0 }).sb aSU_STAT (8 * k + 5) false
  else d

/-- MAINT_WINDOW_OPEN (R463): the window's strike fires; its comparator re-arms itself (R40). Changed lane preferences are recorded. -/
def execMaintWindowOpen (w : Nat) (s : State) : Host.Outcome State Fault Refusal :=
  devStep (fun d =>
    match d.tm.cmps.find? (fun c => c.act == .maint w) with
    | none => d
    | some c => d.when (d.live && (d.fires c.id).isSome) (fun d =>
        let d := d.rearm (.maint w) (c.time + BitVec.ofNat 64 (d.winPeriod w))
        let d := { d with dp := { d.dp with windows := mput none w (some c.time) d.dp.windows,
                                            lanePref := d.lanes.foldl (fun m x => match x.2.wanted with
                                              | some a => mput 0 x.1 a m
                                              | none => m) d.dp.lanePref },
                          lanes := mmap Lane.init (fun x => { x with wanted := none }) d.lanes }
        (List.range 4).foldl (fun d k => if d.gb (aSU_WIN w) (1 + k) then
          (d.setDeck k { d.deck k with spoilt := true, vddAt := c.time, codeWas := d.gf (aSU_VDD k) 0 8 }).endAlarm k else d) d)) s

/-- MAINT_WINDOW_CLOSE (R463): after LEN units of 4,096 ticks. -/
def execMaintWindowClose (w : Nat) (s : State) : Host.Outcome State Fault Refusal :=
  devStep (fun d =>
    match mget none w d.dp.windows with
    | none => d
    | some t => d.when (d.live && decide (Int.ofNat (orOne (d.gf (aSU_WIN w) 8 8) * 4096) ≤ d.since t)) (fun d =>
        { d with dp := { d.dp with windows := mput none w none d.dp.windows } })) s

/-- VDD_STEP (R463): within a window, one 5 mV code toward the plan each 4,096 ticks. -/
def execVddStep (k : Nat) (s : State) : Host.Outcome State Fault Refusal :=
  devStep (fun d =>
    let now := d.gf (aSU_VDD k) 0 8
    let plan := d.gf (aSU_VDD k) 8 8
    d.when (d.live && decide (k < 4) && d.inMaint k && now != plan && decide (4096 ≤ d.since (d.deck k).vddAt)) (fun d =>
      let d := d.sf (aSU_VDD k) 0 8 (if now < plan then now + 1 else now - 1)
      let d := d.setDeck k { d.deck k with vddAt := d.now, codeWas := now }
      let d := d.sb aSU_STAT (8 * k + 4) (d.gf (aSU_VDD k) 0 8 != plan)
      d.endAlarm k)) s

/-- SLACK_ALARM (R464): the deck's clock falls one step, until a window has applied a plan formed after the alarm. -/
def execSlackAlarm (k : Nat) (s : State) : Host.Outcome State Fault Refusal :=
  devStep (fun d => d.when (d.live && decide (k < 4)) (fun d =>
    let x := d.deck k
    let d := d.setDeck k { x with alarm := min 12 (x.alarm + 1), planned := false, spoilt := true }
    (d.sb aSU_STAT (8 * k + 5) true).report 20 1 k 0)) s

/-- DP_THERM: a write that leaves a field out of range, or TRIP not above THROTTLE, is ignored (R466). -/
def dpThermEffect (v : W32) (d : Dev) : Dev :=
  let th := fld v 0 8
  let tr := fld v 8 8
  if 70 ≤ th ∧ th ≤ 104 ∧ 100 ≤ tr ∧ tr ≤ 110 ∧ th < tr then Dev.plainWrite aDP_THERM v d else d

end Sys2Proof.Machine
end

