-- ==== Sys2Proof/Machine/HostIf.lean ====
section
/-! DEFINITION. The host interface (chapter 14): polling the doorbells, fetching descriptors, interrupts. The commands that stop or
abort what other chapters hold (RING_*, FUNCTION_LEVEL_RESET, HOST_READ_ERROR) stand in Control.lean. -/

namespace Sys2Proof.Machine

/-! ## Doorbells (R387 to R390) -/

/-- MIN_EXP and MAX_EXP as used (R408). -/
def Dev.pollMin (d : Dev) : Nat := min 8 (d.gf aDB_POLL 0 4)
def Dev.pollMax (d : Dev) : Nat := max d.pollMin (min 8 (d.gf aDB_POLL 4 4))

/-- The device polls (R380, R389). -/
def Dev.polling (d : Dev) : Bool := d.live && d.gb aHI_CFG 0 && !d.hi.pollStopped && (d.stage == 5 || d.stage == 6)

/-- The poll interval has run (R390): 250 ns times 2^CUR_EXP. -/
def Dev.pollDue (d : Dev) : Bool :=
  match d.hi.lastPoll with
  | none => true
  | some t => decide (Int.ofNat (cdiv (250 * 2 ^ d.gf aDB_POLL 8 4 * 2 ^ 32) 1000000000) ≤ d.since t)

/-- A ring stops with a CAUSE (R386). -/
def Dev.stopRing (d : Dev) (r cause : Nat) : Dev := d.wr (aRING r + 4) (BitVec.ofNat 32 (3 + 16 * cause))

/-- Take SQ_TAIL and CQ_HEAD from a ring's doorbell word (R387, R389). -/
def Dev.takeDoorbell (d : Dev) (r : Nat) (w : W32) : Dev :=
  let d := { d with hi := { d.hi with heads := mput none r (some (fld w 16 16)) d.hi.heads } }
  if d.ringState r = 1 ∧ d.sqSize r ≤ fld w 0 16 then (d.stopRing r 2).report 8 2 0 0
  else { d with hi := { d.hi with tails := mput none r (some (fld w 0 16)) d.hi.tails } }

/-- The rings that SECOND words name, in the order of R389: by group, then by bit. -/
def secondRings (ws : List (Nat × Nat)) : List Nat :=
  ws.flatMap (fun x => ((List.range 64).filter (fun j => x.2.testBit j)).map (fun j => 64 * x.1 + j))

/-- Take the doorbell words of rings, from those that the host's memory has returned. -/
def Dev.takeRings (d : Dev) (rs : List Nat) (dbs : List (Nat × BitVec 32)) : Dev :=
  rs.foldl (fun d r => match dbs.find? (fun x => x.1 == r) with
    | some x => d.takeDoorbell r x.2
    | none => d) d

/-- The SECOND bits of rings whose doorbell words have not come. -/
def secondLeft (rs : List Nat) (dbs : List (Nat × BitVec 32)) : SMap Nat :=
  (rs.filter (fun r => dbs.all (fun x => x.1 != r))).foldl (fun m r => mmod 0 (r / 64) (fun w => w ||| 2 ^ (r % 64)) m) []

/-- The groups that a TOP value names, ascending. -/
def topGroups (found : Nat) : List Nat := (List.range 128).filter (fun g => found.testBit g)

/-- The SECOND words of groups as Swaps returned them. -/
def secondWords (gs : List Nat) (seconds : List (Nat × BitVec 64)) : List (Nat × Nat) :=
  gs.filterMap (fun g => (seconds.find? (fun x => x.1 == g)).map (fun x => (g, x.2.toNat)))

/-- Slots posted and not fetched. -/
def Dev.posted (d : Dev) (r : Nat) : Nat :=
  match mget none r d.hi.tails with
  | some t => (t + d.sqSize r - d.gf (aRING r + 0x28) 0 16) % d.sqSize r
  | none => 0

/-- CQ_HEAD as the device knows it: nothing is unread before it has read the doorbell word. -/
def Dev.cqHead (d : Dev) (r : Nat) : Nat := (mget none r d.hi.heads).getD (d.gf (aRING r + 0x2C) 0 16)

/-- Completion space for one more descriptor (R394). -/
def Dev.roomCq (d : Dev) (r : Nat) : Bool :=
  let n := d.cqSize r
  decide (d.gf (aRING r + 0x34) 0 17 + (d.gf (aRING r + 0x2C) 0 16 + n - d.cqHead r % n) % n ≤ n - 2)

/-- DOORBELL_POLL (R389, R390): act on the bits kept from an interrupted poll, then on those the Swaps return; then read the words of
the rings held back only by completion space. `doorbells` are the words that the host's memory returns; a bit whose word is not among them is kept. -/
def execDoorbellPoll (top0 top1 : W64) (seconds : List (Nat × BitVec 64)) (doorbells : List (Nat × BitVec 32)) (s : State) :
    Host.Outcome State Fault Refusal :=
  devStep (fun d => d.when (d.polling && d.pollDue) (fun d =>
    let found := top0.toNat + 2 ^ 64 * top1.toNat
    let rings := secondRings d.hi.keptSecond ++ secondRings (secondWords (topGroups (found ||| d.hi.keptTop)) seconds)
    let held := d.hi.tails.filterMap (fun x => if d.ringState x.1 = 1 ∧ d.posted x.1 ≠ 0 ∧ !d.roomCq x.1 then some x.1 else none)
    let d := (d.takeRings rings doorbells).takeRings held doorbells
    let d := { d with hi := { d.hi with keptTop := 0, keptSecond := secondLeft rings doorbells, lastPoll := some d.now } }
    let d := d.count aCNT_POLL
    if found = 0 then (d.count aCNT_POLL_EMPTY).sf aDB_POLL 8 4 (min d.pollMax (d.gf aDB_POLL 8 4 + 1))
    else d.sf aDB_POLL 8 4 d.pollMin)) s

/-- ATOMIC_SWAP_ERROR (R380): a Swap of a poll fails. What the poll had learned before it, the words in `doorbells`, is acted on; the bits
not yet acted on are kept, and polling stops. -/
def execAtomicSwapError (top0 top1 : W64) (read : PollRead) (s : State) : Host.Outcome State Fault Refusal :=
  let seconds := read.seconds
  let doorbells := read.doorbells
  devStep (fun d => d.when (d.polling && d.pollDue) (fun d =>
    let gs := topGroups ((top0.toNat + 2 ^ 64 * top1.toNat) ||| d.hi.keptTop)
    let rings := secondRings d.hi.keptSecond ++ secondRings (secondWords gs seconds)
    let left := ((gs.filter (fun g => seconds.all (fun x => x.1 != g))).map (fun g => 2 ^ g)).sum
    let d := d.takeRings rings doorbells
    let d := { d with hi := { d.hi with keptTop := left, keptSecond := secondLeft rings doorbells, pollStopped := true, lastPoll := some d.now } }
    ((d.count aCNT_POLL).sb aHI_STAT 1 true).report 8 0 0 0)) s

/-- HI_CFG (R380, R408, R472). -/
def hiCfgEffect (v : W32) (d : Dev) : Dev :=
  if !bitAt v 0 then d.sb aHI_CFG 0 false
  else if (d.rg aDB_BASE_LO = 0 ∧ d.rg aDB_BASE_HI = 0) ∨ (d.stage ≠ 5 ∧ d.stage ≠ 6) then d.sb aHI_STAT 0 true
  else
    let was := d.gb aHI_CFG 0
    let d := d.sb aHI_CFG 0 true
    if d.gb aHI_STAT 1 then d
    else if was && !d.hi.pollStopped then d
    else { d with hi := { d.hi with pollStopped := false, lastPoll := none } }.sf aDB_POLL 8 4 d.pollMin

/-- POLL_ENABLE (R408). -/
def execPollEnable (v : W32) (s : State) : Host.Outcome State Fault Refusal :=
  devStep (fun d => d.barWrite aHI_CFG v hiCfgEffect) s

/-! ## Fetch (R391 to R399) -/

/-- How many slots an opcode occupies (R398). -/
def opSlots (op : Nat) : Nat := if (0x20 ≤ op ∧ op ≤ 0x28) ∨ op = 0x40 then 2 else 1

/-- Whether an opcode is defined (R398, R430, R432, R438, R480, R482). -/
def opKnown (op : Nat) : Bool :=
  op == 1 || (decide (0x20 ≤ op) && decide (op ≤ 0x28)) || (decide (0x30 ≤ op) && decide (op ≤ 0x33)) || op == 0x40 || op == 0x41 ||
  (decide (0x50 ≤ op) && decide (op ≤ 0x52)) || (decide (0x60 ≤ op) && decide (op ≤ 0x62)) ||
  (decide (0x70 ≤ op) && decide (op ≤ 0x72)) || op == 0x80 || op == 0x81

/-- The next ring after `r` in rotation, of the rings a test accepts: the least above it, else the least. -/
def nextInTurn (r : Nat) (rings : List Nat) : Option Nat :=
  match rings.filter (fun x => decide (r < x)) with
  | x :: xs => some (xs.foldl min x)
  | [] => match rings with
    | x :: xs => some (xs.foldl min x)
    | [] => none

/-- The launches that are pending, those not yet judged among them (R297). -/
def Dev.launchesWaiting (d : Dev) : Nat :=
  (d.as_.launches.filter (fun l => !l.running)).length + (d.hi.fetched.filter (fun f => f.ref.op == 0x40)).length

/-- What holds back a ring whose next descriptor is this: 1 WAIT (R395), 2 that 256 launches are pending (R297), 3 its missing second slot
(R393); 0 nothing. -/
def Dev.holdOf (d : Dev) (r : Nat) (bytes : Bytes) : Nat :=
  if d.posted r < opSlots (rdLE bytes 0 1) then 3
  else if bfld bytes 1 0 1 = 1 ∧ d.gf (aRING r + 0x34) 0 17 ≠ 0 then 1
  else if rdLE bytes 0 1 = 0x40 ∧ 256 ≤ d.launchesWaiting then 2
  else 0

/-- What held a ring back when its next descriptor was looked at still does. -/
def Dev.heldBack (d : Dev) (r : Nat) : Bool :=
  match mget 0 r d.hi.blocked with
  | 1 => d.gf (aRING r + 0x34) 0 17 != 0
  | 2 => decide (256 ≤ d.launchesWaiting)
  | 3 => decide (d.posted r < 2)
  | _ => false

/-- Rings in RUN with posted slots and completion space that nothing else holds back: a ring held back holds back only itself (R391). -/
def Dev.readyRings (d : Dev) : List Nat :=
  d.hi.tails.filterMap (fun x => if d.ringState x.1 = 1 ∧ d.posted x.1 ≠ 0 ∧ d.roomCq x.1 ∧ !d.heldBack x.1 then some x.1 else none)

/-- Whether the fetch may serve a ring with `n` slots now (R391): PRIO rings first; within a level in rotation, at most 8 slots a
turn. -/
def Dev.servedNow (d : Dev) (r n : Nat) : Bool :=
  let ready := d.readyRings
  let prio := ready.filter (fun x => d.gb (aRING x) 1)
  let level := if prio.isEmpty then ready else prio
  level.contains r && ((d.hi.turn == r && decide (d.hi.turnSlots + n ≤ 8)) || nextInTurn d.hi.turn level == some r)

/-- First byte of the weight-store range, and the byte after it (R362). -/
def Dev.wsLo (d : Dev) : Nat := ((List.range 4).map (fun k => d.gf (aMEM_PART k) 0 7)).sum * 2 ^ 30
def Dev.wsHi (d : Dev) : Nat := d.wsLo + d.gf aMEM_WS 0 8 * 2 ^ 30

/-- A descriptor that would stage a change for the twin (R429). -/
def Dev.stages (d : Dev) (op : Nat) (bytes : Bytes) : Bool :=
  op == 0x28 || op == 0x30 || op == 0x31 || op == 0x33 || op == 0x41 || op == 0x51 || op == 0x60 || op == 0x61 ||
  (op == 0x32 && bfld bytes 18 0 2 != 1) || (op == 0x62 && bfld bytes 32 0 2 != 1) ||
  (op == 0x50 && bfld bytes 16 0 1 == 0 && decide (rdLE bytes 24 8 < d.wsHi) && decide (d.wsLo < rdLE bytes 24 8 + rdLE bytes 40 8))

/-- A lead that is SYNCING refuses what would change the mirrored state (R432). -/
def Dev.syncBlocks (d : Dev) (op : Nat) (bytes : Bytes) : Bool :=
  d.gf aTW_CFG 0 2 == 1 && d.gf aTW_STAT 0 3 == 3 && d.stages op bytes

/-- Whether a follower (R427), a lead that is SYNCING (R432) or a device in RECOVERY (R475) turns an opcode away, and with what. -/
def Dev.turnsAway (d : Dev) (op : Nat) (bytes : Bytes) : Option Nat :=
  if d.stage = 6 ∧ op ≠ 1 ∧ op ≠ 0x80 then some stUNIT_FENCED
  else if d.follower ∧ !(op == 1 || op == 0x33 || op == 0x72 || (op == 0x32 && bfld bytes 18 0 8 == 1)) then some stCONFLICT
  else if d.syncBlocks op bytes then some stCONFLICT
  else none

/-- DESCRIPTOR_FETCH (R391 to R399): `bytes` is what the host's memory holds at the ring's next slots. A descriptor that is held back stays,
and its ring waits without holding back others. -/
def Dev.fetch (d : Dev) (r : Nat) (bytes : Bytes) : Dev :=
  let op := rdLE bytes 0 1
  let n := opSlots op
  let rb := aRING r
  let bytes := padTo (64 * n) bytes
  if !(d.live && (d.stage == 5 || d.stage == 6)) || d.ringState r != 1 || d.posted r == 0 || !d.roomCq r || !d.servedNow r n then d
  else if d.holdOf r bytes ≠ 0 then { d with hi := { d.hi with blocked := mput 0 r (d.holdOf r bytes) d.hi.blocked } }
  else if rdLE bytes 4 4 ≠ (d.rg (rb + 0x30)).toNat then (d.stopRing r 1).report 8 2 0 0
  else
    let slot := d.gf (rb + 0x28) 0 16
    let d := d.sf (rb + 0x28) 0 16 ((slot + n) % d.sqSize r)
    let d := d.wr (rb + 0x30) (d.rg (rb + 0x30) + BitVec.ofNat 32 n)
    let d := d.sf (rb + 0x34) 0 17 (d.gf (rb + 0x34) 0 17 + 1)
    let d := d.count aCNT_FETCH
    let d := { d with hi := { d.hi with turnSlots := if d.hi.turn = r ∧ d.hi.turnSlots + n ≤ 8 then d.hi.turnSlots + n else n, turn := r,
                                        fetchNum := d.hi.fetchNum + 1, blocked := mput 0 r 0 d.hi.blocked } }
    let ref : DescRef := { ring := r, slot := slot, op := op, quiet := bfld bytes 1 1 1 == 1, gen := d.hi.gen, num := d.hi.fetchNum }
    if !opKnown op || bfld bytes 1 2 6 != 0 then d.completeS ref stBAD_OPCODE
    else match d.turnsAway op bytes with
      | some st => d.completeS ref st
      | none => { d with hi := { d.hi with fetched := d.hi.fetched ++ [⟨ref, bytes, d.now⟩] } }

/-! ## Interrupts (R406, R407) -/

/-- MSIX_MOD_TIMER (R406). -/
def execMsixModTimer (vec : Nat) (s : State) : Host.Outcome State Fault Refusal :=
  devStep (fun d =>
    let x := mget Vec.init vec d.hi.vecs
    let time := d.gf (aMX_MOD vec) 8 16
    match x.started with
    | none => d
    | some t => d.when (d.live && decide (vec < 2048) && time != 0 && decide (Int.ofNat (time * 1024) ≤ d.since t)) (fun d =>
        { d with hi := { d.hi with vecs := mput Vec.init vec Vec.init d.hi.vecs } }.sendVec vec)) s

/-- A vector is unmasked (R406): the pending message is sent. -/
def Dev.unmask (d : Dev) (vec : Nat) : Dev :=
  let was := mget false vec d.hi.pend
  let d := { d with hi := { d.hi with masked := mput true vec false d.hi.masked, pend := mput false vec false d.hi.pend } }
  if was then d.sendVec vec else d

/-- MSIX_VECTOR_UNMASK (R406). -/
def execMsixVectorUnmask (vec : Nat) (s : State) : Host.Outcome State Fault Refusal :=
  devStep (fun d => d.when (d.live && decide (vec < 2048)) (fun d => d.unmask vec)) s

/-- A 4-byte write of BAR2 (R379): an entry's address and data words, and the Mask bit of its fourth word. PRESUMED (log 102): the entry is
laid out as PCI Express lays it out. The Pending Bit Array is read only. -/
def Dev.bar2Write (d : Dev) (a : Nat) (v : W32) : Dev :=
  if 0x8000 ≤ a then d
  else if a / 4 % 4 < 3 then { d with hi := { d.hi with mxWords := mput 0 (a / 4) v d.hi.mxWords } }
  else if bitAt v 0 then { d with hi := { d.hi with masked := mput true (a / 16) true d.hi.masked } }
  else d.unmask (a / 16)

/-- A 4-byte read of BAR2 (R379): the table, and the Pending Bit Array with one bit a vector. -/
def Dev.bar2Read (d : Dev) (a : Nat) : W32 :=
  if a < 0x8000 then (if a / 4 % 4 < 3 then d.mxWord (a / 16) (a / 4 % 4) else BitVec.ofNat 32 (mget true (a / 16) d.hi.masked).toNat)
  else if a < 0x8100 then
    BitVec.ofNat 32 ((List.range 32).map (fun i => if mget false (8 * (a - 0x8000) + i) d.hi.pend then 2 ^ i else 0)).sum
  else 0

/-- NOP (R398). -/
def execNop (r : Nat) (s : State) : Host.Outcome State Fault Refusal :=
  devStep (fun d => match d.takeFetched r (fun f => f.ref.op == 1) with
    | some (f, d) => d.completeS f.ref stOK
    | none => d) s

/-- HI_CNT_CLR (R408). -/
def hiCntClrEffect (v : W32) (d : Dev) : Dev := if bitAt v 0 then d.clearRegs aCNT_POLL 4 5 else d

/-- HI_CNT_CLR (R408). -/
def execHiCntClr (v : W32) (s : State) : Host.Outcome State Fault Refusal :=
  devStep (fun d => d.barWrite 0x40002C v hiCntClrEffect) s

end Sys2Proof.Machine
end

