-- ==== Sys2Proof/Machine/Memory.lean ====
section
/-! DEFINITION. Stacked memory and the weight store (chapter 13): its bytes, errors, refresh windows, MEM_COPY, models and sends. -/

namespace Sys2Proof.Machine

def aWS_MODEL (m : Nat) : Nat := 0x110000 + 0x20 * m

/-- A command whose effect is on the device and the bytes of stacked memory. -/
def memStep (f : Dev → List Host.Cell → Dev × List Host.Cell) (s : State) : Host.Outcome State Fault Refusal :=
  let r := f s.dev s.mem
  .next { s with dev := r.1, mem := r.2 }

/-! ## Bytes (R362): unlisted ones read as zero -/

/-- `n` bytes from an address. -/
def memRead (m : List Host.Cell) (a n : Nat) : Bytes := mgets 0 a n m

/-- Store bytes from an address on. -/
def memWrite (a : Nat) (bs : Bytes) (m : List Host.Cell) : List Host.Cell := mputs 0 a bs m

/-- The form that every memory has: addresses strictly rising, none listed with the value that an unlisted address reads as. -/
abbrev Memory.wf (m : List Host.Cell) : Prop := mwf (0 : Byte) m = true

/-! ## Ranges (R362) -/

/-- First byte of the flow-context backing store. -/
def flowStore : Nat := 0x3FFF000000

/-- Two ranges of bytes meet. -/
def meets (a n b k : Nat) : Bool := decide (a < b + k) && decide (b < a + n) && decide (0 < n) && decide (0 < k)

/-- A window of an ASSAY_RUN (R295): first byte, size, VALID, WRITE, HALL. -/
structure Win where
  base : Nat
  size : Nat
  valid : Bool
  write : Bool
  hall : Bool
  deriving DecidableEq, Repr

/-- Window `i` of an ASSAY_RUN. -/
def winOf (body : Bytes) (i : Nat) : Win :=
  let w := rdLE body (80 + 8 * i) 8
  ⟨nfld w 0 26 * 4096, nfld w 26 26 * 4096, w.testBit 52, w.testBit 53, w.testBit 54⟩

/-- The six windows. -/
def winsOf (body : Bytes) : List Win := (List.range 6).map (winOf body)

/-- Some pending or running launch has a WRITE window over a range. -/
def Dev.launchWrites (d : Dev) (a n : Nat) : Bool :=
  d.as_.launches.any (fun l => (winsOf l.body).any (fun w => w.valid && w.write && meets a n w.base w.size))

/-! ## Model records (R370, R372, R377) -/

/-- STATE of a model: 0 NONE, 1 READY, 2 LOST. -/
def Dev.modelState (d : Dev) (m : Nat) : Nat := d.gf (aWS_MODEL m) 0 2

/-- First byte and length of a model. -/
def Dev.modelRange (d : Dev) (m : Nat) : Nat × Nat := (d.wsLo + (d.rg (aWS_MODEL m + 4)).toNat * 4096, d.rg64 (aWS_MODEL m + 8))

/-- The models defined. -/
def Dev.models (d : Dev) : List Nat :=
  d.regs.filterMap (fun e => if aWS_MODEL 0 ≤ e.1 ∧ e.1 < aWS_MODEL 4096 ∧ (e.1 - aWS_MODEL 0) % 32 = 0 ∧ fld e.2 0 2 ≠ 0
    then some ((e.1 - aWS_MODEL 0) / 32) else none)

/-- First byte and length of a WS_MODEL that is being read. -/
def Dev.defRange (d : Dev) (bs : Bytes) : Nat × Nat := (d.wsLo + rdLE bs 20 4 * 4096, rdLE bs 24 8)

/-- SENDS of a model follows the sends pending or running (at most what its field holds). -/
def Dev.noteSends (d : Dev) (m : Nat) : Dev :=
  d.sf (aWS_MODEL m) 2 7 (min 127 (d.me.sends.filter (fun w => rdLE w.body 34 2 == m)).length)

/-! ## Errors (R364, R365) -/

/-- Lines of a range that are in the loss map. -/
def Dev.lostIn (d : Dev) (a n : Nat) : Bool := d.me.loss.any (fun l => meets (64 * l) 64 a n)

/-- Lines written whole leave the loss map (R365). -/
def Dev.linesWritten (d : Dev) (a n : Nat) : Dev :=
  { d with me := { d.me with loss := d.me.loss.filter (fun l => !(decide (a ≤ 64 * l) && decide (64 * l + 64 ≤ a + n))) } }

/-- The page of a line is retired to a spare of its stack while one is left (R365, R458). -/
def Dev.retirePage (d : Dev) (stack line : Nat) : Dev :=
  let a := aMEM_SPARE stack
  if d.gf a 0 10 = 0 then d.report 11 2 stack (64 * line)
  else
    let d := d.sf a 0 10 (d.gf a 0 10 - 1)
    let d := d.sf a 16 16 (min 0xFFFF (d.gf a 16 16 + 1))
    { d with me := { d.me with retired := d.me.retired ++ [(stack, line / 64)] } }

/-- The line is entered in the loss map (R365). -/
def Dev.noteLoss (d : Dev) (line : Nat) : Dev :=
  if d.me.loss.contains line then d else { d with me := { d.me with loss := d.me.loss ++ [line] } }

/-- The deck whose stretch of the shard range holds an address. DESIGN CHOICE (log 100): a line of a frame of deck d is named by an address
of the stretch of SHARD_GIB[d] that follows those of the decks before it. -/
def Dev.shardDeck (d : Dev) (a : Nat) : Nat :=
  ((List.range 4).find? (fun k => decide (a < ((List.range (k + 1)).map (fun j => d.gf (aMEM_PART j) 0 7)).sum * 2 ^ 30))).getD 3

/-- A stack holds a line (R8, R362): a shard line lies on its deck's two stacks, a flow context on stack 7, every other line on any. -/
def Dev.holdsLine (d : Dev) (stack line : Nat) : Bool :=
  decide (stack < 8) && decide (line < 2 ^ 32) &&
  (if 64 * line < d.wsLo then stack / 2 == d.shardDeck (64 * line) else if flowStore ≤ 64 * line then stack == 7 else true)

/-- A line can be read: the device runs, the stack holds the line, and no refresh window is open there (R366). -/
def Dev.lineReads (d : Dev) (stack line : Nat) : Bool := d.live && d.holdsLine stack line && !d.stackShut stack

/-- The set of a lost committed frame enters LOST; its updates at work fail, and so does a READ of it under way (R353, R365). -/
def Dev.setLost (d : Dev) (s : Nat) : Dev :=
  if (d.shard? s).isNone then d else
  let xfers := d.sh.xfers.map (fun (x : ShardXfer) => if rdLE x.body 16 2 = s ∧ bfld x.body 18 0 2 = 1 then { x with lost := true } else x)
  let d := { d.setShState s 4 with me := { d.me with badSets := s :: d.me.badSets } }
  let d : Dev := { d with sh := { d.sh with xfers := xfers } }
  (d.cl.ops.filter (fun o => o.update && o.set == s && o.launched)).foldl (fun d o => d.opFail o.group o.opseq stDATA_LOST true none) d

/-- An error in a frame: 0 a free one, s a committed one of set s, 4096 + s one that holds an uncommitted version of s, 8192 + n a line of
the frame map that maps frames of the sets whose bits n has (R365). The device itself chooses frames (log 16). -/
def Dev.frameLost (d : Dev) (frame : Nat) : Dev :=
  if frame = 0 then d
  else if frame < 4096 then d.setLost frame
  else if frame < 8192 then
    let s := frame - 4096
    match d.cl.ops.find? (fun o => o.update && o.set == s && (d.version? o).isSome) with
    | none => d
    | some o =>
      if o.upSent || o.decision.isSome then d.modOp o.group o.opseq (fun o => { o with badFrame := true })
      else d.opFail o.group o.opseq stDATA_LOST true none
  else ((List.range 4096).filter (fun s => (frame - 8192).testBit s)).foldl Dev.setLost d

/-- An uncorrectable error in a line (R365). Clearing a flow context writes its line whole, which takes it out of the loss map again. -/
def Dev.lineLost (d : Dev) (stack line frame : Nat) : Dev :=
  let d := (((d.count aCNT_MEM_UE).report 11 1 stack (64 * line)).retirePage stack line).noteLoss line
  let a := 64 * line
  if a < d.wsLo then d.frameLost frame
  else if flowStore ≤ a then (d.writeFlow (line - flowStore / 64) FlowCtx.init).linesWritten a 64
  else if a < d.wsHi then
    (d.models.filter (fun m => meets a 64 (d.modelRange m).1 (d.modelRange m).2)).foldl (fun d m => d.sf (aWS_MODEL m) 0 2 2) d
  else d

/-- STACK_ECC_ERROR (R365): `line` is the 64-byte line of the address map. -/
def execStackEccError (stack line frame : Nat) (s : State) : Host.Outcome State Fault Refusal :=
  devStep (fun d => d.when (d.lineReads stack line) (fun d => d.lineLost stack line frame)) s

/-- The scrub period in ticks (R377). -/
def Dev.scrubPeriod (d : Dev) : Nat := 2 ^ max 30 (d.gf aMEM_SCRUB 0 6)

/-- A new scrub period begins once the last has passed, or once plant time has gone back before it (R364). DESIGN CHOICE (log 100): the first
begins with the first line read. -/
def Dev.scrubTurn (d : Dev) : Dev :=
  match d.me.scrubFrom with
  | some t => if Int.ofNat d.scrubPeriod ≤ d.since t ∨ d.since t < 0 then { d with me := { d.me with scrubbed := [], scrubFrom := some d.now } } else d
  | none => { d with me := { d.me with scrubFrom := some d.now } }

/-- SCRUB_LINE (R364): the scrubber reads a line that it has not yet read in this period; `wrong` symbols are found wrong; one is corrected.
From 2 on the line is lost, and `wrong` - 2 names the frame. -/
def execScrubLine (stack line wrong : Nat) (s : State) : Host.Outcome State Fault Refusal :=
  devStep (fun d => d.when (d.lineReads stack line && !d.scrubTurn.me.scrubbed.contains line) (fun d =>
    let d := d.scrubTurn
    let d : Dev := { d with me := { d.me with scrubbed := line :: d.me.scrubbed } }
    if wrong = 0 then d
    else if wrong = 1 then (d.count aCNT_MEM_CE).report 11 0 stack (64 * line)
    else d.lineLost stack line (wrong - 2))) s

/-! ## Refresh (R366 to R368) -/

/-- PERIOD and PHASE of a MEM_REF value. -/
def refPeriod (v : W32) : Nat := fld v 1 15
def refPhase (v : W32) : Nat := fld v 16 15

/-- The first window of a series that lies at least ARM_LEAD ahead (R367). -/
def Dev.refFirst (d : Dev) (s : Nat) : W64 :=
  let v := d.rg (aMEM_REF s)
  let base := BitVec.ofNat 64 (d.rg64 aMEM_REF_BASE_LO + refPhase v)
  let from_ := d.now + BitVec.ofNat 64 d.armLead
  from_ + BitVec.ofInt 64 ((-(from_ - base).toInt) % Int.ofNat (orOne (refPeriod v)))

/-- MEM_REF[s] (R366, R367). -/
def memRefEffect (s : Nat) (v : W32) (d : Dev) : Dev :=
  let a := aMEM_REF s
  let was := d.gb a 0
  let moves := refPeriod v != refPeriod (d.rg a) || refPhase v != refPhase (d.rg a)
  let bad := d.gf aPT_STAT 0 3 == 0 || decide (refPeriod v < 8192) || decide (16384 < refPeriod v) || decide (refPeriod v ≤ refPhase v)
  if (was && moves) || (bitAt v 0 && (bad || (!was && !d.maintRoom))) then d.sb aMEM_STAT 1 true
  else
    let d := Dev.plainWrite a v d
    if bitAt v 0 && !was then d.takeCmp 3 (d.refFirst s) none (.refresh s)
    else if !bitAt v 0 && was then { d.dropCmp (.refresh s) with me := { d.me with series := mput false s false d.me.series } }
    else d

/-- MEM_REF_WRITE (R367). -/
def execMemRefWrite (s0 : Nat) (v : W32) (s : State) : Host.Outcome State Fault Refusal :=
  devStep (fun d => d.when (decide (s0 < 8)) (fun d => d.barWrite (aMEM_REF s0) v (memRefEffect s0))) s

/-- REFRESH_WINDOW_OPEN (R366): the stack's comparator fires and re-arms itself. -/
def execRefreshWindowOpen (s0 : Nat) (s : State) : Host.Outcome State Fault Refusal :=
  devStep (fun d => match (if d.live then d.tm.cmps.find? (fun c => c.act == .refresh s0) else none) with
    | none => d
    | some c =>
      if (d.fires c.id).isNone then d else
      let d := d.rearm c.act (c.time + BitVec.ofNat 64 (refPeriod (d.rg (aMEM_REF s0))))
      { d with me := { d.me with open_ := mput none s0 (some c.time) d.me.open_, series := mput false s0 true d.me.series } }) s

/-- REFRESH_WINDOW_CLOSE (R366): a window lasts 1,536 ticks; one whose opening plant time has gone back before it closes too. -/
def execRefreshWindowClose (s0 : Nat) (s : State) : Host.Outcome State Fault Refusal :=
  devStep (fun d => match mget none s0 d.me.open_ with
    | none => d
    | some t => d.when (d.perst && (decide (1536 ≤ d.since t) || decide (d.since t < 0))) (fun d =>
        { d with me := { d.me with open_ := mput none s0 none d.me.open_ } })) s

/-- A stack refreshes on its own timer (R366, R367, R452): with no series of windows, until the first window of one, or once the device has
stopped. -/
def Dev.ownRefresh (d : Dev) (s : Nat) : Bool := d.stopped || !d.gb (aMEM_REF s) 0 || !mget false s d.me.series

/-- AUTO_REFRESH (R366): a window of the stack's own timer opens each 3,800 cycles. -/
def execAutoRefresh (s0 : Nat) (s : State) : Host.Outcome State Fault Refusal :=
  devStep (fun d => d.when (d.perst && decide (s0 < 8) && d.ownRefresh s0 && !d.stackShut s0 && decide (3800 ≤ d.tm.cycle - mget 0 s0 d.me.autoAt)) (fun d =>
    { d with me := { d.me with autoAt := mput 0 s0 d.tm.cycle d.me.autoAt, open_ := mput none s0 (some d.now) d.me.open_ } })) s

/-! ## MEM_COPY (R369) -/

/-- The checks of R369: a status, or none. Reserved bytes are not checked (R5, log 99). -/
def Dev.memCopyJudge (d : Dev) (f : Fetched) : Option Nat :=
  let bs := f.bytes
  let a := rdLE bs 24 8
  let n := rdLE bs 40 8
  let toHost := bfld bs 16 0 1 == 1
  if bfld bs 16 1 7 ≠ 0 then some stBAD_OPCODE
  else if n = 2 ^ 64 - 1 ∨ a % 64 ≠ 0 ∨ n % 64 ≠ 0 ∨ 2 ^ 38 < a + n then some stLENGTH_RANGE
  else if n = 0 then some stOK
  else if !d.inWindow f.ref.ring (rdLE bs 32 8) n ∨ a < d.wsLo ∨ flowStore < a + n then some stACCESS
  else if !toHost && (d.models.any (fun m => meets a n (d.modelRange m).1 (d.modelRange m).2) ||
      d.me.defs.any (fun x => meets a n (d.defRange x.2.2).1 (d.defRange x.2.2).2) || d.launchWrites a n) then some stCONFLICT
  else none

/-- MEM_COPY (R369): one that passes its checks moves bytes until MEM_COPY_DONE. -/
def execMemCopy (r : Nat) (s : State) : Host.Outcome State Fault Refusal :=
  devStep (fun d => match d.takeFetched r (fun f => f.ref.op == 0x50) with
    | none => d
    | some (f, d) => match d.memCopyJudge f with
      | some st => d.completeS f.ref st
      | none => { d with me := { d.me with copies := d.me.copies ++ [⟨d.me.nextId, f.ref, f.bytes⟩], nextId := d.me.nextId + 1 } }) s

/-- Stage the part of a copy that lies in the weight-store range (R429). -/
def Dev.mirrorWs (d : Dev) (a : Nat) (bs : Bytes) : Dev :=
  let lo := max a d.wsLo
  let hi := min (a + bs.length) d.wsHi
  if lo < hi then d.mirror (.mem lo (sl bs (lo - a) (hi - lo))) else d

/-- End a copy with a status; one that succeeds moves its bytes. -/
def Dev.copyEnd (d : Dev) (m : List Host.Cell) (id status : Nat) (data : Bytes) : Dev × List Host.Cell :=
  match takeFirst (fun x : MemXfer => x.id == id) d.me.copies with
  | none => (d, m)
  | some (x, rest) =>
    let d := { d with me := { d.me with copies := rest } }
    let a := rdLE x.body 24 8
    let n := rdLE x.body 40 8
    if status ≠ stOK then (d.completeS x.ref status, m)
    else if bfld x.body 16 0 1 = 0 then
      let bs := padTo n data
      (((d.linesWritten a n).mirrorWs a bs).completeS x.ref stOK, memWrite a bs m)
    else
      let bad := (d.me.loss.filter (fun l => meets (64 * l) 64 a n)).foldl (fun k l => min k (64 * l - a)) n
      let d := if x.ref.gen = d.hi.gen ∧ bad ≠ 0 then d.emit (.hostWrite (rdLE x.body 32 8) (memRead m a bad)) else d
      (d.completeS x.ref (if bad < n then stDATA_LOST else stOK), m)

/-- MEM_COPY_DONE (R369): `data` is what a write's host range holds. -/
def execMemCopyDone (id : Nat) (data : Bytes) (s : State) : Host.Outcome State Fault Refusal :=
  memStep (fun d m => if d.live then d.copyEnd m id stOK data else (d, m)) s

/-! ## WS_MODEL (R371) -/

/-- Free a model record. -/
def Dev.dropModel (d : Dev) (m : Nat) : Dev := d.wrs (aWS_MODEL m) (List.replicate 8 0)

/-- A MEM_COPY under way writes a range. DEDUCED (log 100): no model is defined over it, since a model's bytes cannot change (R370). -/
def Dev.copyWrites (d : Dev) (a n : Nat) : Bool :=
  d.me.copies.any (fun x => bfld x.body 16 0 1 == 0 && meets a n (rdLE x.body 24 8) (rdLE x.body 40 8))

/-- WS_MODEL with its checks in order, up to the reading of the model: a status, or none where the model is to be read. -/
def Dev.wsModelJudge (d : Dev) (bs : Bytes) : Option Nat :=
  let m := rdLE bs 16 2
  let r := d.defRange bs
  if 4095 < m ∨ 2 ≤ rdLE bs 18 2 then some stBAD_OPCODE
  else if rdLE bs 18 2 = 1 then
    if d.me.sends.any (fun w => rdLE w.body 34 2 == m) then some stCONFLICT else some stOK
  else if r.2 = 0 then some stOK
  else if r.2 = 2 ^ 64 - 1 ∨ d.wsHi < r.1 + r.2 then some stLENGTH_RANGE
  else if d.modelState m ≠ 0 ∨ d.me.defs.any (fun x => x.1 == m) ∨ d.launchWrites r.1 r.2 ∨ d.copyWrites r.1 r.2 then some stCONFLICT
  else none

/-- Take a WS_MODEL descriptor by its UNDEFINE flag; reserved flags go with the defining row. -/
def Dev.takeModel (d : Dev) (r : Nat) (undef : Bool) : Option (Fetched × Dev) :=
  d.takeFetched r (fun f => f.ref.op == 0x51 && (rdLE f.bytes 18 2 == 1) == undef)

/-- WS_MODEL (R371). -/
def execWsModel (r : Nat) (s : State) : Host.Outcome State Fault Refusal :=
  devStep (fun d => match d.takeModel r false with
    | none => d
    | some (f, d) => match d.wsModelJudge f.bytes with
      | some st => d.completeS f.ref st
      | none => { d with me := { d.me with defs := d.me.defs ++ [(rdLE f.bytes 16 2, f.ref, f.bytes)] } }) s

/-- WS_MODEL_UNDEFINE (R371). -/
def execWsModelUndefine (r : Nat) (s : State) : Host.Outcome State Fault Refusal :=
  devStep (fun d => match d.takeModel r true with
    | none => d
    | some (f, d) =>
      let st := (d.wsModelJudge f.bytes).getD stOK
      let m := rdLE f.bytes 16 2
      let d := if st = stOK ∧ d.modelState m ≠ 0 then (d.dropModel m).mirror (.desc f.bytes []) else d
      d.completeS f.ref st) s

/-- The record of a model whose bytes have been read (R371, R377). -/
def Dev.setModel (d : Dev) (bs : Bytes) (hall : Nat) : Dev :=
  let n := rdLE bs 24 8
  d.wrs (aWS_MODEL (rdLE bs 16 2)) ([1, BitVec.ofNat 32 (rdLE bs 20 4), BitVec.ofNat 32 n, BitVec.ofNat 32 (n / 2 ^ 32)] ++
    (List.range 4).map (fun i => BitVec.ofNat 32 (hall / 2 ^ (32 * i))))

/-- WS_MODEL_READ_DONE (R371): the hallmark of the model is kept and completed, or a lost line leaves it undefined. -/
def execWsModelReadDone (model : Nat) (s : State) : Host.Outcome State Fault Refusal :=
  devStep (fun d => d.when d.live (fun d =>
    match takeFirst (fun x : Nat × DescRef × Bytes => x.1 == model) d.me.defs with
    | none => d
    | some ((_, ref, bs), rest) =>
      let d := { d with me := { d.me with defs := rest } }
      let r := d.defRange bs
      if d.lostIn r.1 r.2 then (d.hmNote 0x51 stDATA_LOST 0 ref.hmId model 0).completeS ref stDATA_LOST
      else
        let hall := mixBytes (memRead s.mem r.1 r.2) 0
        let d := ((d.setModel bs hall).mirror (.desc bs [])).hmNote 0x51 stOK 0 ref.hmId model hall
        d.complete ref { hall := hall })) s

/-! ## WS_SEND (R373 to R376) -/

/-- A split entry: rank, first byte and length of its slice. -/
def splitEntry (bs : Bytes) (i : Nat) : Nat × Nat × Nat := (rdLE bs (16 * i) 4, rdLE bs (16 * i + 4) 4 * 4096, rdLE bs (16 * i + 8) 8)

/-- The packets of a slice: the first byte and length of each. -/
def slicePackets (first len : Nat) : List (Nat × Nat) :=
  (List.range (cdiv len 4096)).map (fun i => (first + 4096 * i, min 4096 (len - 4096 * i)))

/-- Step 6 of R374 for an entry of a model of `len` bytes. -/
def splitBad (nmemb len : Nat) (e : Nat × Nat × Nat) : Bool :=
  decide (nmemb ≤ e.1) || e.2.2 == 2 ^ 64 - 1 || decide (len < e.2.1 + e.2.2) || (e.2.2 % 4096 != 0 && decide (e.2.1 + e.2.2 < len))

/-- The split entries of a WS_SEND. -/
def wsSplit (bs split : Bytes) : List (Nat × Nat × Nat) := (List.range (rdLE bs 38 2)).map (splitEntry (padTo (16 * rdLE bs 38 2) split))

/-- WS_SEND with its checks in order (R374): a status, or the judged strike. -/
def Dev.wsSendJudge (d : Dev) (f : Fetched) (split : Bytes) : Nat ⊕ Strike :=
  let bs := f.bytes
  let m := rdLE bs 34 2
  let len := (d.modelRange m).2
  let isSplit := rdLE bs 36 2 == 1
  let n := rdLE bs 38 2
  match d.grp? (rdLE bs 32 2) with
  | none => .inl stBAD_OPCODE
  | some x =>
    if 2 ≤ rdLE bs 36 2 ∨ (!isSplit ∧ n ≠ 0) ∨ 4095 < m ∨ d.modelState m = 0 ∨ rdLE bs 32 2 = 0 then .inl stBAD_OPCODE
    else if f.ref.ring ≠ x.ring then .inl stACCESS
    else if !isSplit ∧ (rdLE bs 48 8 = 2 ^ 64 - 1 ∨ rdLE bs 40 8 % 4096 ≠ 0 ∨ len < rdLE bs 40 8 + rdLE bs 48 8) then .inl stLENGTH_RANGE
    else if isSplit ∧ 4096 < n then .inl stLENGTH_RANGE
    else if (isSplit ∧ n = 0) ∨ (!isSplit ∧ rdLE bs 48 8 = 0) then .inl stOK
    else if isSplit ∧ !d.inWindow f.ref.ring (rdLE bs 56 8) (16 * n) then .inl stACCESS
    else if isSplit ∧ (wsSplit bs split).any (splitBad x.nmemb len) then .inl stLENGTH_RANGE
    else if d.modelState m = 2 then .inl stDATA_LOST
    else match d.judgeStrike (sl bs 16 16) f.time with
      | .bad st => .inl st
      | .now => .inr .now
      | k => if d.cmpFree 0 1 then .inr k else .inl stSTRIKE_BUSY

/-- Enter a send that has passed its checks. -/
def Dev.wsQueue (d : Dev) (f : Fetched) (split : Bytes) (k : Strike) : Dev :=
  let bs := f.bytes
  let es := if rdLE bs 36 2 = 1 then (wsSplit bs split).map (fun e => (some e.1, e.2.1, e.2.2)) else [(none, rdLE bs 40 8, rdLE bs 48 8)]
  let id := d.me.nextId
  let w : WsSend := { id := id, ref := f.ref, body := bs, time := (match k with
                        | .fire t => t
                        | .wait t _ _ => t
                        | _ => f.time),
                      ready := k == .now, running := false, spans := es.map (fun e => (e.2.1, e.2.2)),
                      todo := es.flatMap (fun e => (slicePackets e.2.1 e.2.2).map (fun p => (e.1, p.1, p.2))), blocks := [], hall := 0,
                      flags := 0, fencedEp := none, lost := false }
  let d := { d with me := { d.me with sends := d.me.sends ++ [w], nextId := id + 1 } }
  (d.noteSends (rdLE bs 34 2)).armStrike 0 k (.launchWs (rdLE bs 32 2) id) f.ref.num

/-- WS_SEND (R374): `split` is what the host's memory holds of its split entries. -/
def execWsSend (r : Nat) (split : Bytes) (s : State) : Host.Outcome State Fault Refusal :=
  devStep (fun d => match d.takeFetched r (fun f => f.ref.op == 0x52) with
    | none => d
    | some (f, d) => match d.wsSendJudge f split with
      | .inl st => d.completeS f.ref st
      | .inr k => d.wsQueue f split k) s

/-- Change a send. -/
def Dev.modSend (d : Dev) (id : Nat) (f : WsSend → WsSend) : Dev :=
  { d with me := { d.me with sends := d.me.sends.map (fun w => if w.id = id then f w else w) } }

/-- One send comes before another in the order of R375: strike time, ring, slot. -/
def sendBefore (a b : WsSend) : Bool :=
  let z := (a.time - b.time).toInt
  decide (z < 0) || (z == 0 && (decide (a.ref.ring < b.ref.ring) || (a.ref.ring == b.ref.ring && decide (a.ref.slot < b.ref.slot))))

/-- WS_SEND_START (R375): at most 64 sends run, and those that wait start in order. -/
def execWsSendStart (id : Nat) (s : State) : Host.Outcome State Fault Refusal :=
  devStep (fun d => match d.me.sends.find? (fun w => w.id == id) with
    | none => d
    | some w =>
      d.when (d.live && w.ready && !w.running && decide ((d.me.sends.filter (fun x => x.running)).length < 64) &&
        d.me.sends.all (fun x => x.running || !x.ready || x.id == id || !sendBefore x w)) (fun d =>
          d.modSend id (fun w => { w with running := true }))) s

/-- End a send (R376). -/
def Dev.sendEnd (d : Dev) (w : WsSend) (status : Nat) : Dev :=
  let m := rdLE w.body 34 2
  let d := { d with me := { d.me with sends := d.me.sends.filter (fun x => x.id != w.id) } }
  let d := ((d.dropCmp (.launchWs (rdLE w.body 32 2) w.id)).noteSends m).count (if status = stOK then aCNT_WS_SEND else aCNT_WS_FAIL)
  let hall := if status = stOK then w.hall else 0
  let flags := w.flags ||| (if w.fencedEp.isSome then 32 else 0)
  (d.hmNote 0x52 status (rdLE w.body 32 2) w.ref.hmId m w.hall).complete w.ref
    { status := status, flags := flags, member := w.fencedEp.getD 0, hall := hall }

/-- The blocks of a model's range that a packet reads. -/
def packetBlocks (off n : Nat) : List Nat := (List.range (cdiv (off + n) 256 - off / 256)).map (fun i => off / 256 + i)

/-- The packet of a send (R375). -/
def wsPkt (tc group model off : Nat) (dst : Nat) (bs : Bytes) (send : Nat) : Pkt :=
  { mkPkt tc 1 0xE6 dst 0 0 group 0 (off % 2 ^ 40) model bs with own := some send }

/-- Bytes that the weight store may read in a cycle of the local clock (R375, R377): RATE units of 250 GB/s. -/
def Dev.wsRate (d : Dev) : Nat := 250 * min 32 (max 1 (d.gf aWS_CFG 0 6))

/-- Bytes of sends still to be read now. -/
def Dev.wsBacklog (d : Dev) : Nat := d.me.wsOwed - d.wsRate * (d.tm.cycle - d.me.wsAt)

/-- The weight store begins to read `n` bytes more. -/
def Dev.wsRead (d : Dev) (n : Nat) : Dev := { d with me := { d.me with wsOwed := d.wsBacklog + n, wsAt := d.tm.cycle } }

/-- WS_DATA_EMIT (R375): the next packet of a running send, charged to the weight store's quota, once all sends together have read no more than
RATE lets them: what was begun before ends within this cycle. -/
def execWsDataEmit (id : Nat) (s : State) : Host.Outcome State Fault Refusal :=
  devStep (fun d => match d.me.sends.find? (fun w => w.id == id) with
    | none => d
    | some w => match w.todo, d.grp? (rdLE w.body 32 2) with
      | (rank, off, n) :: rest, some x =>
        d.when (d.live && w.running && decide (d.wsBacklog < d.wsRate)) (fun d =>
          let d := d.wsRead n
          let m := rdLE w.body 34 2
          let r := d.modelRange m
          let bl := (packetBlocks off n).filter (fun b => !w.blocks.contains b)
          if d.lostIn (r.1 + off) n then d.modSend id (fun w => { w with todo := [], lost := true })
          else
            let mix := (bl.map (fun b => mixBytes (memRead s.mem (r.1 + 256 * b) (min 256 (r.2 - 256 * b))) b)).sum
            let d := d.modSend id (fun w => { w with todo := rest, blocks := bl ++ w.blocks, hall := (w.hall + mix) % 2 ^ 128 })
            let bs := memRead s.mem (r.1 + off) n
            match rank with
            | none =>
              let p := wsPkt x.tc x.num m off 0 bs id
              d.sendBranches 65 p (d.multicastBranches x p none)
            | some k =>
              let p := wsPkt x.tc x.num m off (d.memEp x k) bs id
              d.sendBranches 65 p [d.towardRank x p none k])
      | _, _ => d) s

/-- A packet of a send still stands here or waits for its acknowledgement. -/
def Dev.sendAt (d : Dev) (w : WsSend) : Bool :=
  d.fb.pkts.any (fun b => b.pkt.own == some w.id) || d.fb.unitWait.any (fun u => u.2.1.own == some w.id) ||
    d.fb.unacked.any (fun u => u.pkt.own == some w.id)

/-- WS_SEND_COMPLETE (R376). -/
def execWsSendComplete (id : Nat) (s : State) : Host.Outcome State Fault Refusal :=
  devStep (fun d => match d.me.sends.find? (fun w => w.id == id) with
    | none => d
    | some w => d.when (d.live && w.running && w.todo.isEmpty && (w.lost || !d.sendAt w)) (fun d =>
        d.sendEnd w (if w.lost then stDATA_LOST else stOK))) s

/-! ## Partition (R362, R363) -/

/-- Anything that forbids a new partition: sets, models, launches, copies, sends. -/
def Dev.partBusy (d : Dev) : Bool :=
  d.sh.sets.any (fun e => e.2.isSome) || !d.models.isEmpty || !d.me.defs.isEmpty || !d.as_.launches.isEmpty || !d.me.copies.isEmpty ||
    !d.me.sends.isEmpty

/-- Free frames of each deck outside its pool, with no set defined (R361). -/
def Dev.framesAnew (d : Dev) : Dev :=
  (List.range 4).foldl (fun d k => d.wr (aUP_FRAMES_FREE k) (BitVec.ofNat 32 (d.poolLimit k - d.gf (aUP_POOL k) 0 16 * 256))) d

/-- A write of MEM_PART or MEM_WS is accepted (R363). -/
def Dev.partOk (d : Dev) (a : Nat) (v : W32) : Bool :=
  let g := fun (k : Nat) => if a = aMEM_PART k then fld v 0 7 else d.gf (aMEM_PART k) 0 7
  let w := if a = aMEM_WS then fld v 0 8 else d.gf aMEM_WS 0 8
  decide (((List.range 4).map g).sum + w ≤ 255) &&
  (List.range 4).all (fun k => decide (g k ≤ 64) && decide (d.gf (aUP_POOL k) 0 16 * 256 ≤ g k * 65536)) && !d.partBusy

/-- MEM_PART[d] and MEM_WS (R363). -/
def partEffect (a : Nat) (v : W32) (d : Dev) : Dev :=
  if d.partOk a v then
    let d := (Dev.plainWrite a v d).framesAnew
    { d with me := { d.me with loss := [] } }
  else d.sb aMEM_STAT 0 true

/-- A write of the partition: after an accepted one every byte of the weight-store and general ranges reads as zero (R363). -/
def partWrite (a : Nat) (v : W32) (s : State) : Host.Outcome State Fault Refusal :=
  memStep (fun d m => match d.barSees a v with
    | none => (d.barMarks a v, m)
    | some w => (partEffect a w (d.barMarks a v), if (d.barMarks a v).partOk a w then [] else m)) s

/-- MEM_PART_WRITE (R363). -/
def execMemPartWrite (k : Nat) (v : W32) (s : State) : Host.Outcome State Fault Refusal :=
  if k < 4 then partWrite (aMEM_PART k) v s else .next s

/-- MEM_WS_WRITE (R363). -/
def execMemWsWrite (v : W32) (s : State) : Host.Outcome State Fault Refusal := partWrite aMEM_WS v s

/-- MEM_CNT_CLR (R377). -/
def memCntClrEffect (v : W32) (d : Dev) : Dev := if bitAt v 0 then d.clearRegs aCNT_MEM_CE 4 4 else d

/-- MEM_CNT_CLR (R377). -/
def execMemCntClr (v : W32) (s : State) : Host.Outcome State Fault Refusal := devStep (fun d => d.barWrite 0x100028 v memCntClrEffect) s

end Sys2Proof.Machine
end

