-- ==== Sys2Proof/Machine/Assay.lean ====
section
/-! DEFINITION. Assay programs and launches (chapters 10, 11 and 15): images and their checks, ASSAY_LOAD, ASSAY_RUN, how a launch starts,
runs through its phases and ends, and the registers of the engine. -/

namespace Sys2Proof.Machine

/-! ## Images (R306 to R308, R328, R329) -/

/-- Word `i` of the code section of an image. -/
def codeWord (im : Bytes) (i : Nat) : Nat := rdLE im (32 + 4 * i) 4

/-- NWORDS and NDATA of an image. -/
def imgWords (im : Bytes) : Nat := rdLE im 8 4
def imgData (im : Bytes) : Nat := rdLE im 12 4

/-- Offset C of the data section. -/
def imgDataAt (im : Bytes) : Nat := cdiv (32 + 4 * imgWords im) 8 * 8

/-- The instructions of two words. -/
def twoWords (op : Nat) : Bool := op == 0x1D || op == 0x58 || op == 0x52

/-- The second word of CVT (R317), for registers A and D. -/
def cvtWordOk (a d w : Nat) : Bool :=
  let dst := nfld w 0 5
  let src := nfld w 5 5
  decide (1 ≤ dst ∧ dst ≤ 14 ∧ 1 ≤ src ∧ src ≤ 15) && dst != src && !(isMx dst && isMx src) && nfld w 10 2 != 3 && w / 4096 == 0 &&
  (!(src == 14 || src == 15) || a % 2 == 0) && (dst != 14 || d % 2 == 0)

/-- The second word of SOFTMAX (R322). -/
def softWordOk (w : Nat) : Bool :=
  let i := nfld w 6 5
  let o := nfld w 11 5
  decide (1 ≤ i ∧ i ≤ 3 ∧ 1 ≤ o ∧ o ≤ 3) && w / 2 ^ 17 == 0

/-- A word is the first of an instruction of chapter 11, and `w2`, the word after it, its second where it has one (R329 step 4). -/
def asWordOk (w w2 : Nat) : Bool :=
  let op := nfld w 0 8
  let d := nfld w 8 6
  let a := nfld w 14 6
  let b := nfld w 20 6
  let m := nfld w 26 3
  let t := nfld w 29 3
  let jz := w / 256 == 0
  if op = 1 ∨ op = 2 ∨ op = 8 ∨ op = 9 ∨ op = 0xA ∨ op = 0xB then jz
  else if op = 3 ∨ op = 4 ∨ op = 5 then true
  else if op = 6 then t == 0
  else if (0x10 ≤ op ∧ op ≤ 0x1B) ∨ op = 0x1E ∨ op = 0x1F then t == 0
  else if op = 0x1C then true
  else if op = 0x1D then a == 0 && w / 2 ^ 20 == 0
  else if 0x20 ≤ op ∧ op ≤ 0x28 then decide (t ≤ 2) && (decide (op < 0x27) || b == 0)
  else if op = 0x29 then t == 1 || t == 2
  else if op = 0x2A then t == 3 || t == 4 || t == 5
  else if 0x30 ≤ op ∧ op ≤ 0x3B then decide (t ≤ 4) && (op == 0x30 || b == 0)
  else if op = 0x40 then (t == 0 || t == 5 || t == 6) && d / 8 != 7 && (d / 8 != 6 || t == 0)
  else if 0x41 ≤ op ∧ op ≤ 0x48 then w / 2 ^ 23 == 0 && (op != 0x48 || nfld w 14 3 == 0)
  else if op = 0x50 ∨ op = 0x51 then (t == 0 || t == 5) && b / 8 != 7 && (t == 5 || decide (b / 8 < 4)) && (op == 0x51 || b % 8 == 0)
  else if op = 0x52 then m == 0 && t == 0 && softWordOk w2
  else if op = 0x58 then t == 0 && decide (b ≤ 60) && cvtWordOk a d w2
  else if op = 0x5C then b == 0 && t == 0 && decide (d ≤ 60) && decide (a ≤ 60)
  else if 0x60 ≤ op ∧ op ≤ 0x6D then
    let wn := nfld w 20 3
    (wn == 7 || a % 2 == 0) && (decide (op < 0x64) || wn != 6) && (decide (op < 0x68) || wn == 7) &&
      ((op != 0x63 && op != 0x67) || d % 2 == 0)
  else false

/-- Word addresses at which instructions begin, from word `i` on; none where a word does not decode. -/
def codeWalk (im : Bytes) (n : Nat) : Nat → Nat → Option (List Nat)
  | 0, _ => some []
  | fuel + 1, i =>
    if n ≤ i then some [] else
    let w := codeWord im i
    let two := twoWords (nfld w 0 8)
    if !asWordOk w (codeWord im (i + 1)) || (two && decide (n ≤ i + 1)) then none
    else (codeWalk im n fuel (i + if two then 2 else 1)).map (fun l => i :: l)

/-- The word addresses at which the instructions of an image begin. -/
def codeStarts (im : Bytes) : List Nat := (codeWalk im (imgWords im) (imgWords im) 0).getD []

/-- The target of a BR, JMP or CALL at word `i`. -/
def codeTarget (w i : Nat) : Option Int :=
  let op := nfld w 0 8
  if op = 3 then some (Int.ofNat i + sext 12 (nfld w 20 12))
  else if op = 4 ∨ op = 5 then some (Int.ofNat i + sext 24 (nfld w 8 24))
  else none

/-- An image is good (R329); `len` is the LEN of the descriptor. -/
def asImageOk (im : Bytes) (len : Nat) : Bool :=
  let n := imgWords im
  let c := imgDataAt im
  rdLE im 0 4 == 0x59415341 && rdLE im 4 2 == 1 && rdLE im 6 2 == 0 && rdLE im 28 4 == 0 && decide (1 ≤ n ∧ n ≤ 16376) &&
  len == c + imgData im && rdLE im (32 + 4 * n) (c - (32 + 4 * n)) == 0 && crc32 (putAt im 16 (toLE 4 0)) == rdLE im 16 4 &&
  (match codeWalk im n n 0 with
   | none => false
   | some starts => starts.all (fun i => match codeTarget (codeWord im i) i with
     | none => true
     | some t => decide (0 ≤ t) && starts.contains t.toNat))

/-! ## The program store (R294) -/

/-- The image of a slot, empty where there is none. -/
def Dev.prog (d : Dev) (s : Nat) : Bytes := mget [] s d.as_.progs

/-- The slot of an ASSAY_RUN. -/
def runSlot (body : Bytes) : Nat := rdLE body 32 2

/-- A launch pending or running names a slot. -/
def Dev.slotUsed (d : Dev) (s : Nat) : Bool := d.as_.launches.any (fun l => runSlot l.body == s)

/-- AS_SLOT follows its slot. -/
def Dev.noteSlot (d : Dev) (s : Nat) : Dev :=
  d.wr (aAS_SLOT s) (BitVec.ofNat 32 ((d.prog s).length + 2 ^ 31 * (d.slotUsed s).toNat))

/-- Put an image into a slot of every deck's store. -/
def Dev.setProg (d : Dev) (s : Nat) (im : Bytes) : Dev := { d with as_ := { d.as_ with progs := mput [] s im d.as_.progs } }.noteSlot s

/-- ASSAY_LOAD with its checks in order (R294): the device after it and the status. -/
def Dev.assayLoad (d : Dev) (host : Bool) (ring : Nat) (bs image : Bytes) : Dev × Nat :=
  let s := rdLE bs 16 2
  let flags := rdLE bs 18 2
  let len := rdLE bs 20 4
  let im := padTo len image
  let unload := flags % 2 == 1
  if 63 < s ∨ 2 ≤ flags then (d, stBAD_OPCODE)
  else if len = 0xFFFFFFFF ∨ 65536 < len then (d, stLENGTH_RANGE)
  else if len = 0 ∧ !unload then (d, stOK)
  else if host && !unload && !d.inWindow ring (rdLE bs 24 8) len then (d, stACCESS)
  else if d.slotUsed s then (d, stCONFLICT)
  else if unload then (d.setProg s [], stOK)
  else if !asImageOk im len then (d, stBAD_OPCODE)
  else (d.setProg s im, stOK)

/-- Take an ASSAY_LOAD descriptor of a ring by its UNLOAD flag. -/
def Dev.loadDesc (d : Dev) (r : Nat) (unload : Bool) (image : Bytes) : Dev :=
  match d.takeFetched r (fun f => f.ref.op == 0x41 && (bfld f.bytes 18 0 1 == 1) == unload) with
  | none => d
  | some (f, d) =>
    let x := d.assayLoad true r f.bytes image
    let d := if x.2 = stOK then x.1.mirror (.desc f.bytes (padTo (rdLE f.bytes 20 4) image)) else x.1
    d.completeS f.ref x.2

/-- ASSAY_LOAD (R294): `image` is what the host's memory holds. -/
def execAssayLoad (r : Nat) (image : Bytes) (s : State) : Host.Outcome State Fault Refusal := devStep (fun d => d.loadDesc r false image) s

/-- ASSAY_UNLOAD (R294). -/
def execAssayUnload (r : Nat) (s : State) : Host.Outcome State Fault Refusal := devStep (fun d => d.loadDesc r true []) s

/-! ## ASSAY_RUN (R295, R296, R416) -/

/-- ALL of an ASSAY_RUN. -/
def runAll (body : Bytes) : Bool := bfld body 34 1 1 == 1

/-- The numeric control block of an ASSAY_RUN. -/
def runNum (body : Bytes) : NumCtl := NumCtl.read (sl body 48 16)

/-- The logical benches of a launch (R301, R415). -/
def Dev.runBenches (d : Dev) (body : Bytes) : List Nat :=
  if runAll body then
    (if d.compat then d.launchBenches.take (d.gf aREP_COMPAT 8 8) else d.launchBenches)
  else (List.range (rdLE body 38 2)).map (fun i => rdLE body 36 2 + i)

/-- A named bench has been lost, or ALL finds too few launch benches in compatibility mode (R296 step 5, R416). -/
def Dev.runLost (d : Dev) (body : Bytes) : Bool :=
  if runAll body then d.compat && decide (d.launchBenches.length < d.gf aREP_COMPAT 8 8)
  else (d.runBenches body).any (fun b => !d.benchLive b)

/-- A window of an ASSAY_RUN breaks step 1 of R296. -/
def winBad (body : Bytes) (i : Nat) : Bool :=
  let w := rdLE body (80 + 8 * i) 8
  w / 2 ^ 55 != 0 || (if w.testBit 52 then nfld w 26 26 == 0 else w != 0)

/-- What weight-store operations that are pending or running read (R296 step 6), and the models, whose bytes cannot change (R370, log 100). -/
def Dev.storeReads (d : Dev) (a n : Nat) : Bool :=
  d.me.sends.any (fun w => w.spans.any (fun s => meets a n ((d.modelRange (rdLE w.body 34 2)).1 + s.1) s.2)) ||
  d.me.defs.any (fun x => meets a n (d.defRange x.2.2).1 (d.defRange x.2.2).2) ||
  d.models.any (fun m => meets a n (d.modelRange m).1 (d.modelRange m).2)

/-- ASSAY_RUN with its checks in order: a status, or the judged strike. Reserved bytes are not checked (R5, log 99). -/
def Dev.runJudge (d : Dev) (f : Fetched) : Nat ⊕ Strike :=
  let bs := f.bytes
  let im := d.prog (runSlot bs)
  let first := rdLE bs 36 2
  let count := rdLE bs 38 2
  let ws := (winsOf bs).filter (fun w => w.valid)
  if 63 < runSlot bs ∨ im.isEmpty ∨ imgWords im ≤ rdLE bs 40 4 ∨ 4 ≤ rdLE bs 34 2 ∨
      (runAll bs ∧ (first ≠ 0 ∨ count ≠ 0)) ∨ (List.range 6).any (winBad bs) ∨ !(runNum bs).legal false then .inl stBAD_OPCODE
  else if count = 0xFFFF ∨ 4 * d.perDeck < first + count ∨ ws.any (fun w => w.size == (2 ^ 26 - 1) * 4096 || decide (2 ^ 38 < w.base + w.size))
  then .inl stLENGTH_RANGE
  else if count = 0 ∧ !runAll bs then .inl stOK
  else if ws.any (fun w => decide (flowStore < w.base + w.size) || (w.write && decide (w.base < d.wsLo))) then .inl stACCESS
  else if d.runLost bs then .inl stUNIT_FENCED
  else if (d.runBenches bs).any (fun b => (d.updBenches (b / d.perDeck)).contains b) ∨
      ws.any (fun w => w.write && d.storeReads w.base w.size) then .inl stCONFLICT
  else match d.judgeStrike (sl bs 16 16) f.time with
    | .bad st => .inl st
    | .now => .inr .now
    | k => if d.cmpFree 0 1 then .inr k else .inl stSTRIKE_BUSY

/-- Enter a launch that has passed its checks. -/
def Dev.runQueue (d : Dev) (f : Fetched) (k : Strike) : Dev :=
  let id := d.as_.nextId
  let l : Launch := { id := id, ref := f.ref, body := f.bytes, time := (match k with
                        | .fire t => t
                        | .wait t _ _ => t
                        | _ => f.time),
                      ready := k == .now, running := false, start := 0, benches := [], shards := [], written := [], flags := 0, ieee := 0,
                      trap := .init }
  ({ d with as_ := { d.as_ with launches := d.as_.launches ++ [l], nextId := id + 1 } }.noteSlot (runSlot f.bytes)).armStrike 0 k (.launchAs id) f.ref.num

/-- ASSAY_RUN (R296). -/
def execAssayRun (r : Nat) (s : State) : Host.Outcome State Fault Refusal :=
  devStep (fun d => match d.takeFetched r (fun f => f.ref.op == 0x40) with
    | none => d
    | some (f, d) => match d.runJudge f with
      | .inl st => d.completeS f.ref st
      | .inr k => d.runQueue f k) s

/-! ## Launches in progress -/

/-- A launch. -/
def Dev.launch? (d : Dev) (id : Nat) : Option Launch := d.as_.launches.find? (fun l => l.id == id)

/-- Change a launch. -/
def Dev.modLaunch (d : Dev) (id : Nat) (f : Launch → Launch) : Dev :=
  { d with as_ := { d.as_ with launches := d.as_.launches.map (fun l => if l.id = id then f l else l) } }

/-- The bench that carries a logical one while a launch runs on it. -/
def Dev.bench? (d : Dev) (b : Nat) : Option Bench :=
  match d.benchPhys b with
  | none => none
  | some p => if (mget .init p d.as_.benches).busy then some (mget .init p d.as_.benches) else none

/-- Set what a physical bench holds. -/
def Dev.setPhys (d : Dev) (p : Nat) (x : Bench) : Dev := { d with as_ := { d.as_ with benches := mput .init p x d.as_.benches } }

/-- A physical bench is free; what it holds stays until a launch starts on it (R283). -/
def Dev.idlePhys (d : Dev) (p : Nat) : Dev := d.setPhys p { mget .init p d.as_.benches with busy := false }

/-- Set what the bench that carries a logical one holds. -/
def Dev.putBench (d : Dev) (b : Nat) (x : Bench) : Dev :=
  match d.benchPhys b with
  | none => d
  | some p => d.setPhys p x

/-- The bench that carries a logical one is free. -/
def Dev.idleBench (d : Dev) (b : Nat) : Dev :=
  match d.benchPhys b with
  | none => d
  | some p => d.idlePhys p

/-- The running launch that has a bench. -/
def Dev.launchOn (d : Dev) (b : Nat) : Option Launch := d.as_.launches.find? (fun l => l.running && l.benches.contains b)

/-- Candidates for what a byte holds after a phase (R286, R287): its earlier value, then what each bench of the launch wrote; and whether it
was raced. -/
def phaseByte (xs : List Bench) (a : Nat) : List Byte × Bool :=
  let ws := xs.filterMap (fun b => mget? a b.pend)
  let touch := (xs.filter (fun b => (mget? a b.pend).isSome || mget false a b.rd)).length
  (ws, !ws.isEmpty && decide (1 < touch))

/-- What a byte holds after a phase: a raced one holds its earlier value or one of those written, a free value. -/
def afterPhase (free : Nat) (xs : List Bench) (a : Nat) (old : Byte) : Byte :=
  let c := phaseByte xs a
  if c.2 then (old :: c.1).getD (freeAt free a % (c.1.length + 1)) old else c.1.headD old

/-- The benches of a launch. -/
def Dev.benchesOf (d : Dev) (l : Launch) : List Bench := l.benches.filterMap d.bench?

/-- A phase of a launch ends (R286, R288): the stores of its benches become the launch's. -/
def Dev.endPhase (d : Dev) (m : List Host.Cell) (id : Nat) : Dev :=
  match d.launch? id with
  | none => d
  | some l =>
    let xs := d.benchesOf l
    let as_ := (xs.flatMap (fun b => b.pend.map (fun e => e.1))).dedup
    let w := as_.foldl (fun w a => minsert a (afterPhase d.free xs a ((mget? a l.written).getD (mget 0 a m))) w) l.written
    let d := (d.modLaunch id (fun l => { l with written := w })).freeNext
    l.benches.foldl (fun d b => match d.bench? b with
      | some x => d.putBench b { x with pend := [], rd := [], gsync := false }
      | none => d) d

/-- Release a launch: its benches, its comparator, its slot. -/
def Dev.launchRelease (d : Dev) (l : Launch) : Dev :=
  let d := l.benches.foldl Dev.idleBench d
  let d := { d with as_ := { d.as_ with launches := d.as_.launches.filter (fun x => x.id != l.id) } }
  (d.dropCmp (.launchAs l.id)).noteSlot (runSlot l.body)

/-- The memory that a launch leaves that does not end with OK (R299, R198): each byte it stored holds that value or the earlier one. -/
def leftOver (free : Nat) (w : SMap Byte) (m : List Host.Cell) : List Host.Cell :=
  w.foldl (fun m e => if freeAt free e.1 % 2 = 1 then mput 0 e.1 e.2 m else m) m

/-- End a launch with a status other than OK (R299). -/
def Dev.launchFail (d : Dev) (m : List Host.Cell) (id status : Nat) : Dev × List Host.Cell :=
  match d.launch? id with
  | none => (d, m)
  | some l =>
    let d := d.endPhase m id
    let w := ((d.launch? id).map (fun l => l.written)).getD []
    let free := d.free
    let d := ((d.freeNext.launchRelease l).count aCNT_AS_FAIL).hmNote 0x40 status 0 l.ref.hmId 0 0
    (d.completeS l.ref status, leftOver free w m)

/-- Record a fault of a launch, unless one stands (R305): cause, window, store, bench, lane, word address and offset. -/
def Dev.asFault (d : Dev) (ref : DescRef) (cause win : Nat) (store : Bool) (b lane pc ofs : Nat) : Dev :=
  if d.gb aAS_STAT 2 then d else
  (d.wrs aAS_FAULT0 [BitVec.ofNat 32 (cause + 8 * (win % 8) + 64 * store.toNat + 256 * (b % 128) + 65536 * (lane % 32)), BitVec.ofNat 32 pc,
    BitVec.ofNat 32 ofs, BitVec.ofNat 32 (ref.ring % 8192 + 65536 * (ref.slot % 65536))]).sb aAS_STAT 2 true

/-- Status of a fault by its cause: WINDOW, SCRATCH and JUMP end with ACCESS, JOIN and LIMIT with ABORTED. -/
def faultStatus (cause : Nat) : Nat := if cause ≤ 3 then stACCESS else stABORTED

/-- A launch stops with a fault. -/
def Dev.launchFault (d : Dev) (m : List Host.Cell) (l : Launch) (cause win : Nat) (store : Bool) (b lane pc ofs : Nat) :
    Dev × List Host.Cell :=
  (d.asFault l.ref cause win store b lane pc ofs).launchFail m l.id (faultStatus cause)

/-! ## Starting (R297, R298) -/

/-- A launch comes before another: launch time, ring, slot. -/
def launchBefore (a b : Launch) : Bool :=
  let z := (a.time - b.time).toInt
  decide (z < 0) || (z == 0 && (decide (a.ref.ring < b.ref.ring) || (a.ref.ring == b.ref.ring && decide (a.ref.slot < b.ref.slot))))

/-- A bench as a launch starts on it (R283, R298). -/
def Dev.freshBench (d : Dev) (body : Bytes) (i n : Nat) : Bench :=
  let free := bfld body 34 0 1 == 1
  let entry := rdLE body 40 4
  let regs := fun (lane : Nat) => (List.range 4).map (fun k => BitVec.ofNat 32 (rdLE body (64 + 4 * k) 4)) ++
    [BitVec.ofNat 32 i, BitVec.ofNat 32 n, BitVec.ofNat 32 lane, BitVec.ofNat 32 d.shapeWord]
  { busy := true, index := i, free := free, pcs := (List.range (if free then 32 else 1)).foldl (fun m t => mput 0 t entry m) [],
    x := (List.range 32).foldl (fun m lane => mputs 0 (64 * lane + 1) (regs lane) m) [], xd := [], m := [], scr := [], sd := [], ended := [],
    bar := [], joining := [], gsync := false, done := false, pend := [], rd := [] }

/-- Every bench of a set is free, and no waiting launch that comes before overlaps it, whether its strike has been taken yet or not. -/
def Dev.startable (d : Dev) (l : Launch) (bs : List Nat) : Bool :=
  bs.all (fun b => (d.bench? b).isNone) &&
  d.as_.launches.all (fun k => k.running || k.id == l.id || !launchBefore k l || (d.runBenches k.body).all (fun b => !bs.contains b))

/-- A launch takes its benches and the shard versions as committed (R283, R284, R298). -/
def Dev.launchPlace (d : Dev) (l : Launch) (bs : List Nat) : Dev :=
  let d := (bs.zip (List.range bs.length)).foldl (fun d b => d.putBench b.1 (d.freshBench l.body b.2 bs.length)) d
  let shards := d.sh.sets.filterMap (fun e => e.2.map (fun x => (e.1, x, d.shState e.1 != 3 && d.shState e.1 != 4)))
  (d.modLaunch l.id (fun l => { l with running := true, start := d.now, benches := bs, shards := shards })).count aCNT_AS_LAUNCH

/-- Start a launch; an ENTRY at which no instruction starts is a JUMP fault. -/
def Dev.launchStart (d : Dev) (m : List Host.Cell) (l : Launch) (bs : List Nat) : Dev × List Host.Cell :=
  if (codeStarts (d.prog (runSlot l.body))).contains (rdLE l.body 40 4) then (d.launchPlace l bs, m)
  else (d.launchPlace l bs).launchFault m l 3 0 false (bs.headD 0) 0 (rdLE l.body 40 4) 0

/-- ASSAY_LAUNCH_START (R297). -/
def execAssayLaunchStart (id : Nat) (s : State) : Host.Outcome State Fault Refusal :=
  memStep (fun d m => match (if d.live then d.launch? id else none) with
    | none => (d, m)
    | some l =>
      if l.running ∨ !l.ready then (d, m)
      else if d.runLost l.body then d.launchFail m id stUNIT_FENCED
      else
        let bs := d.runBenches l.body
        if d.startable l bs then d.launchStart m l bs else (d, m)) s

/-! ## What a launch reads (R284, R340) -/

/-- A parameter of a set's local slices by its place in the planes of the view. -/
def viewParam (p : Nat) : List Slice → Option Nat
  | [] => none
  | s :: ss => if p < s.count then some (s.first + p) else viewParam (p - s.count) ss

/-- A word of the view of a set (R340), by its offset in bytes / 4: the planes, then Ls, Rs, Lr and Rr of each PRECOND block. -/
def ShardSet.viewWord (x : ShardSet) (k : Nat) : W32 :=
  let pad := fun (n : Nat) => cdiv n 1024 * 1024
  let n := ((localSlices x.slices).map (fun s => s.count)).sum
  let plane := fun (m : SMap W32) (i : Nat) => match viewParam i (localSlices x.slices) with
    | some p => mget 0 p m
    | none => 0
  let np := pad n
  if k < np then plane x.cur.w k
  else if k < 2 * np then plane x.cur.m (k - np)
  else if k < 3 * np then plane x.cur.v (k - 2 * np)
  else
    let parts := (List.range x.blocks.length).flatMap (fun i =>
      let b := x.block i
      if b.precond then [(i, 0, b.rows), (i, 1, b.cols), (i, 2, b.rows), (i, 3, b.cols)] else [])
    let walk := parts.foldl (fun (s : Nat × Option W32) p =>
      if s.2.isSome then s else
      let o := p.2.2
      if s.1 < pad (o * o) then
        let key := 2 ^ 20 * p.1
        let v := if o * o ≤ s.1 then 0 else match p.2.1 with
          | 0 => mget 0 (key + s.1) x.cur.ls
          | 1 => mget 0 (key + s.1) x.cur.rs
          | 2 => BitVec.ofNat 32 (rootLoad key o x.cur.lr (s.1 / o) (s.1 % o))
          | _ => BitVec.ofNat 32 (rootLoad key o x.cur.rr (s.1 / o) (s.1 % o))
        (s.1, some v)
      else (s.1 - pad (o * o), none)) (k - 3 * np, none)
    walk.2.getD 0

/-- What a launch finds at a byte: a value, or unreadable data: ACCESS for a set in doubt or lost (R340), DATA_LOST for a lost line (R365). -/
inductive Seen where
  | byte (b : Byte)
  | shut
  | lost
  deriving DecidableEq, Repr

/-- A byte of stacked memory as a launch's earlier phases leave it. -/
def Dev.seenByte (d : Dev) (m : List Host.Cell) (l : Launch) (a : Nat) : Seen :=
  if a < d.wsLo then
    match l.shards.find? (fun s => decide (s.2.1.view * 4096 ≤ a) && decide (a < s.2.1.view * 4096 + s.2.1.viewBytes)) with
    | none => .byte 0
    | some (n, x, readable) =>
      if !readable then .shut
      else if d.me.badSets.contains n && freeAt d.free a % 2 == 1 then .lost
      else
        let o := a - x.view * 4096
        .byte (BitVec.ofNat 8 ((x.viewWord (o / 4)).toNat / 2 ^ (8 * (o % 4))))
  else match mget? a l.written with
    | some b => .byte b
    | none => if d.me.loss.contains (a / 64) then .lost else .byte (mget 0 a m)

/-! ## Completing (R299) -/

/-- Bytes of a HALL window at the end of a launch, or the status that the first unreadable one gives: ACCESS in a set that is IN_DOUBT or LOST
(R340), DATA_LOST where the line is lost (R365). -/
def Dev.hallBytes (d : Dev) (m : List Host.Cell) (l : Launch) (w : Win) : Nat ⊕ Bytes :=
  (List.range w.size).foldr (fun i acc => match d.seenByte m l (w.base + i) with
    | .byte b => acc.map id (fun bs => b :: bs)
    | .shut => .inl stACCESS
    | .lost => .inl stDATA_LOST) (.inr [])

/-- The hallmark of a launch: block b of window w stands at w · 2^40 + b. -/
def Dev.launchHall (d : Dev) (m : List Host.Cell) (l : Launch) : Nat ⊕ Nat :=
  ((winsOf l.body).zip (List.range 6)).foldl (fun acc w =>
    if !(w.1.valid && w.1.hall) then acc else
    match acc, d.hallBytes m l w.1 with
    | .inr n, .inr bs => .inr ((n + mixBytes bs (w.2 * 2 ^ 40)) % 2 ^ 128)
    | .inl st, _ => .inl st
    | _, .inl st => .inl st) (.inr 0)

/-- Lines that the stores of a launch cover whole leave the loss map. -/
def Dev.linesStored (d : Dev) (w : SMap Byte) : Dev :=
  { d with me := { d.me with loss := d.me.loss.filter (fun l => !(List.range 64).all (fun i => (mget? (64 * l + i) w).isSome)) } }

/-- ASSAY_LAUNCH_COMPLETE (R288, R299): every bench has finished, and the closing pass ends. -/
def execAssayLaunchComplete (id : Nat) (s : State) : Host.Outcome State Fault Refusal :=
  memStep (fun d m => match (if d.live then d.launch? id else none) with
    | none => (d, m)
    | some l =>
      if !l.running ∨ !(d.benchesOf l).all (fun b => b.done) then (d, m) else
      let d := d.endPhase m id
      match d.launch? id with
      | none => (d, m)
      | some l => match d.launchHall m l with
        | .inl st => d.launchFail m id st
        | .inr hall =>
          let d := ((d.launchRelease l).linesStored l.written).hmNote 0x40 stOK 0 l.ref.hmId 0 hall
          (d.complete l.ref { flags := l.flags, ieee := l.ieee, hall := hall }, l.written.foldl (fun m e => mput 0 e.1 e.2 m) m)) s

/-- ASSAY_RUN_LIMIT (R299). -/
def execAssayRunLimit (id : Nat) (s : State) : Host.Outcome State Fault Refusal :=
  memStep (fun d m => match (if d.live then d.launch? id else none) with
    | none => (d, m)
    | some l =>
      if l.running ∧ Int.ofNat (orOne (d.gf aAS_CFG 0 16) * 2 ^ 20) < d.since l.start then
        let b := (l.benches.find? (fun b => (d.bench? b).any (fun x => !x.done))).getD (l.benches.headD 0)
        d.launchFault m l 5 0 false b 0 (((d.bench? b).map (fun x => mget 0 0 x.pcs)).getD 0) 0
      else (d, m)) s

/-! ## Faults of benches (R299, R353) -/

/-- Updates at work that have a slice on a deck. -/
def Dev.updatesOn (d : Dev) (deck : Nat) : List ClOp :=
  d.cl.ops.filter (fun o => o.update && o.launched && (d.shard? o.set).any (fun x => (localSlices x.slices).any (fun s => s.deck == deck)))

/-- The updates at work that have a slice on a deck fail. -/
def Dev.failUpdates (d : Dev) (deck st : Nat) : Dev := (d.updatesOn deck).foldl (fun d o => d.opFail o.group o.opseq st true none) d

/-- What the loss of a bench does to the updates of its deck: DATA_LOST when it was an update bench, UNIT_FENCED where none is left. -/
def Dev.updatesOut (d : Dev) (deck : Nat) (upd : Bool) : Dev :=
  let d := if upd then d.failUpdates deck stDATA_LOST else d
  if (d.updBenches deck).isEmpty then d.failUpdates deck stUNIT_FENCED else d

/-- A physical bench is taken out with an error: its launch ends with DATA_LOST. -/
def Dev.benchOut (d : Dev) (m : List Host.Cell) (phys : Nat) : Dev × List Host.Cell :=
  let r := (d.idlePhys phys).fenceBench phys
  let x := match r.2.bind r.1.launchOn with
    | some l => r.1.launchFail m l.id stDATA_LOST
    | none => (r.1, m)
  (x.1.updatesOut (phys / 34) (r.2.any (fun b => (d.updBenches (phys / 34)).contains b)), x.2)

/-- BENCH_FAULT (R299, R443): an error in a bench's registers, scratch or datapath; one that is corrected is reported (R282). -/
def execBenchFault (phys : EccError) (s : State) : Host.Outcome State Fault Refusal :=
  memStep (fun d m =>
    if d.live && decide (phys.site < 136) && !d.benchFenced phys.site then
      if phys.corrected then (d.report 12 0 phys.site 0, m) else (d.report 12 1 phys.site 0).benchOut m phys.site
    else (d, m)) s

/-! ## Registers (R300, R304, R305) -/

/-- Some update holds a bench. -/
def Dev.updateBusy (d : Dev) : Bool := d.cl.ops.any (fun o => o.update && o.launched)

/-- AS_PROFILE (R304): accepted, the logical benches are assigned afresh (R418), and their domains powered. -/
def asProfileEffect (v : W32) (d : Dev) : Dev :=
  if !d.as_.launches.isEmpty || d.updateBusy || d.ctxInUse || (bitAt v 0 && (List.range 4).any (fun k => decide (24 < d.gf aAS_RESV (8 * k) 6)))
  then d.sb aAS_STAT 0 true
  else ((Dev.plainWrite aAS_PROFILE v d).assignBenches).powerBenches

/-- AS_PROFILE_WRITE (R304). -/
def execAsProfileWrite (v : W32) (s : State) : Host.Outcome State Fault Refusal := devStep (fun d => d.barWrite aAS_PROFILE v asProfileEffect) s

/-- AS_RESV (R300, R338): also refused where it leaves a deck that holds a slice of a set without an update bench. -/
def asResvEffect (v : W32) (d : Dev) : Dev :=
  let needed := fun (k : Nat) => d.sh.sets.any (fun e => e.2.any (fun x => (localSlices x.slices).any (fun s => s.deck == k)))
  if !d.as_.launches.isEmpty || d.updateBusy || (List.range 4).any (fun k => decide (d.perDeck < fld v (8 * k) 6) || (fld v (8 * k) 6 == 0 && needed k))
  then d.sb aAS_STAT 1 true
  else (Dev.plainWrite aAS_RESV v d).reshapeFrom d.shapeRecord

/-- AS_RESV_WRITE (R300). -/
def execAsResvWrite (v : W32) (s : State) : Host.Outcome State Fault Refusal := devStep (fun d => d.barWrite aAS_RESV v asResvEffect) s

/-- AS_CNT_CLR (R305). -/
def asCntClrEffect (v : W32) (d : Dev) : Dev := if bitAt v 0 then d.clearRegs aCNT_AS_LAUNCH 4 2 else d

/-- AS_CNT_CLR (R305). -/
def execAsCntClr (v : W32) (s : State) : Host.Outcome State Fault Refusal := devStep (fun d => d.barWrite 0x70048 v asCntClrEffect) s

/-- REP_COMPAT (R413). -/
def repCompatEffect (v : W32) (d : Dev) : Dev :=
  if !d.as_.launches.isEmpty || d.ctxInUse || fld v 8 8 == 0 || decide (96 < fld v 8 8) then d.sb aREP_STAT 0 true
  else (Dev.plainWrite aREP_COMPAT v d).reshapeFrom d.shapeRecord

/-- REP_COMPAT_WRITE (R413). -/
def execRepCompatWrite (v : W32) (s : State) : Host.Outcome State Fault Refusal := devStep (fun d => d.barWrite aREP_COMPAT v repCompatEffect) s

end Sys2Proof.Machine
end

