-- ==== Sys2Proof/Machine/Bench.lean ====
section
/-! DEFINITION. Assay instructions on a bench: who may execute, what one execution delivers, control and synchronisation (R312, R313), integer
and bit instructions (R314), masks (R320) and the generator (R323). -/

namespace Sys2Proof.Machine

/-! ## Registers of a bench (R275, R325) -/

/-- Register `r` of a lane: x0 reads as zero. -/
def Bench.reg (b : Bench) (lane r : Nat) : Nat := if r % 64 = 0 then 0 else (mget 0 (64 * lane + r % 64) b.x).toNat

/-- The derived bit of a register of a lane. -/
def Bench.der (b : Bench) (lane r : Nat) : Bool := r % 64 != 0 && mget false (64 * lane + r % 64) b.xd

/-- Write a register of a lane with its derived bit: writes to x0 are ignored. -/
def Bench.setReg (b : Bench) (lane r v : Nat) (der : Bool) : Bench :=
  if r % 64 = 0 then b else
  { b with x := mput 0 (64 * lane + r % 64) (BitVec.ofNat 32 v) b.x, xd := mput false (64 * lane + r % 64) der b.xd }

/-- A mask register: m0 reads as all ones. -/
def Bench.mreg (b : Bench) (i : Nat) : Nat := if i % 8 = 0 then 0xFFFFFFFF else (mget 0 (i % 8) b.m).toNat

/-- Write a mask register: writes to m0 are ignored. -/
def Bench.setMask (b : Bench) (i v : Nat) : Bench := if i % 8 = 0 then b else { b with m := mput 0 (i % 8) (BitVec.ofNat 32 v) b.m }

/-! ## What one execution delivers -/

/-- A NaN event of an instruction: its lane, cause and operands with their formats (R195 to R197). -/
structure AsEv where
  lane : Nat
  cause : Nat
  fmtA : Nat
  opA : Nat
  fmtB : Nat := 0
  opB : Nat := 0
  two : Bool := false
  deriving DecidableEq, Repr

/-- Whether an instruction stops its launch: with a fault (cause, window, store, lane, offset), or because it met a lost line. -/
inductive AsStop where
  | go
  | fault (cause win : Nat) (store : Bool) (lane ofs : Nat)
  | lost
  deriving DecidableEq, Repr

/-- What an instruction runs on: the device and its memory, the launch, its bench as it stands, the thread (0 in LOCKSTEP) and the word
address. -/
structure AsCtx where
  d : Dev
  m : List Host.Cell
  l : Launch
  b : Bench
  thread : Nat
  pc : Nat
  num : NumCtl
  deriving DecidableEq, Repr

/-- What an instruction leaves: the bench, the word address that follows, whether that is the target of a transfer, flags and events. -/
structure AsRes where
  b : Bench
  next : Int
  jump : Bool := false
  ieee : Nat := 0
  flags : Nat := 0
  evs : List AsEv := []
  stop : AsStop := .go
  deriving DecidableEq, Repr

/-- The launch flags EMPTY, MASKED_ROW, INF_ROW and OVERFLOW (R404). -/
def asEMPTY : Nat := 1
def asMASKED_ROW : Nat := 2
def asINF_ROW : Nat := 4
def asOVERFLOW : Nat := 8

/-- The lanes an instruction acts on (R280, R309): those of mask `m`, or the thread alone. -/
def AsCtx.lanes (c : AsCtx) (m : Nat) : List Nat := if c.b.free then [c.thread] else (List.range 32).filter (fun i => (c.b.mreg m).testBit i)

/-- An instruction of `n` words that goes on with a bench. -/
def AsCtx.goOn (c : AsCtx) (n : Nat) (b : Bench) : AsRes := { b := b, next := c.pc + n }

/-- What an instruction does in one lane: registers with their values and derived bits, flags and events. -/
structure LaneOut where
  ws : List (Nat × Nat × Bool)
  ieee : Nat := 0
  ovf : Bool := false
  evs : List AsEv := []
  deriving DecidableEq, Repr

/-- Write what lanes deliver, all of it computed before any of it is written (R310). -/
def AsCtx.deliverLanes (c : AsCtx) (n : Nat) (outs : List (Nat × LaneOut)) : AsRes :=
  let b := outs.foldl (fun b o => o.2.ws.foldl (fun b w => b.setReg o.1 w.1 w.2.1 w.2.2) b) c.b
  { c.goOn n b with
    ieee := outs.foldl (fun n o => n ||| o.2.ieee) 0, flags := if outs.any (fun o => o.2.ovf) then asOVERFLOW else 0,
    evs := outs.flatMap (fun o => o.2.evs) }

/-- Act in each lane of a mask. -/
def AsCtx.perLane (c : AsCtx) (n m : Nat) (f : Nat → LaneOut) : AsRes := c.deliverLanes n ((c.lanes m).map (fun i => (i, f i)))

/-! ## Executing (R278, R281, R306, R309) -/

/-- A core may execute its next instruction. -/
def Bench.able (b : Bench) (thread : Nat) : Bool :=
  if b.free then decide (thread < 32) && !b.ended.contains thread && !b.bar.contains thread && !b.joining.contains thread
  else !b.done && !b.gsync

/-- The trap record's contents for an event (R197, R326): ELEMENT is x62 of the lane, or of lane 0. -/
def AsCtx.trapEv (c : AsCtx) (bench : Nat) (lane0 : Bool) (e : AsEv) : TrapEv :=
  { cause := e.cause, fmtA := e.fmtA, opA := e.opA, fmtB := e.fmtB, opB := e.opB, two := e.two, pc := c.pc,
    elem := c.b.reg (if lane0 then 0 else e.lane) 62, bench := true, unit := bench, sub := e.lane, member := none, group := 0 }

/-- The events of an instruction in the order of R326. -/
def trapOrder (es : List TrapEv) : List TrapEv :=
  sortBy (fun a b => decide (a.elem < b.elem) || (a.elem == b.elem && decide (a.sub ≤ b.sub))) es

/-- The word address at which a core goes on is one that R306 allows. -/
def asNextOk (im : Bytes) (r : AsRes) : Bool :=
  decide (0 ≤ r.next) && decide (r.next < Int.ofNat (imgWords im)) && (!r.jump || (codeStarts im).contains r.next.toNat)

/-- A launch whose benches all wait at GSYNC or have finished, not all of the latter, begins its next phase (R286, R312). -/
def Dev.phaseCheck (d : Dev) (m : List Host.Cell) (id : Nat) : Dev :=
  match d.launch? id with
  | none => d
  | some l =>
    let xs := d.benchesOf l
    if xs.any (fun b => b.gsync) && xs.all (fun b => b.gsync || b.done) then d.endPhase m id else d

/-- Where the core that executed goes on: every thread of a bench that has just passed to FREE. -/
def Bench.setPc (b : Bench) (wasFree : Bool) (thread pc : Nat) : Bench :=
  if b.free && !wasFree then { b with pcs := (List.range 32).foldl (fun m t => mput 0 t pc m) [] }
  else if wasFree && !b.free then b
  else { b with pcs := mput 0 thread pc b.pcs }

/-- What an instruction that goes on leaves of its launch: flags and the trap (R195, R326). -/
def Dev.asNote (d : Dev) (c : AsCtx) (bench : Nat) (lane0 : Bool) (r : AsRes) : Dev × Trap :=
  let d := d.modLaunch c.l.id (fun l => { l with ieee := l.ieee ||| r.ieee, flags := l.flags ||| r.flags })
  let t := d.trapAll c.l.trap c.l.ref c.num (trapOrder (r.evs.map (c.trapEv bench lane0)))
  (t.1.modLaunch c.l.id (fun l => { l with trap := t.2 }), t.2)

/-- An instruction goes on, unless its trap halts the launch, which leaves its result, the trapping element a NaN (R198), or it leads to an
address that R306 does not allow. -/
def Dev.asGo (d : Dev) (c : AsCtx) (bench : Nat) (lane0 : Bool) (r : AsRes) : Dev × List Host.Cell :=
  let t := d.asNote c bench lane0 r
  if t.2.fired && c.num.halt then (t.1.putBench bench r.b).launchFail c.m c.l.id stNAN_TRAPPED
  else if r.b.done || asNextOk (t.1.prog (runSlot c.l.body)) r then
    ((t.1.putBench bench (r.b.setPc c.b.free c.thread r.next.toNat)).phaseCheck c.m c.l.id, c.m)
  else t.1.launchFault c.m c.l 3 0 false bench c.thread c.pc 0

/-- A core carries out an instruction: `lock` marks one that is lockstep only. -/
def Dev.asRun (d : Dev) (c : AsCtx) (bench : Nat) (lock lane0 : Bool) (r : AsRes) : Dev × List Host.Cell :=
  if lock && c.b.free then d.launchFault c.m c.l 4 0 false bench c.thread c.pc 0 else
  match r.stop with
  | .fault cause win store lane ofs => d.launchFault c.m c.l cause win store bench lane c.pc ofs
  | .lost => d.launchFail c.m c.l.id stDATA_LOST
  | .go => d.asGo c bench lane0 r

/-- What an instruction of a core sees, where a running launch has the bench and the core does not wait. -/
def Dev.asCtx? (d : Dev) (m : List Host.Cell) (core : Core) : Option AsCtx :=
  match (if d.live then d.launchOn core.bench else none), d.bench? core.bench with
  | some l, some b =>
    let thread := if b.free then core.thread else 0
    if b.able core.thread then some ⟨d, m, l, b, thread, mget 0 thread b.pcs, runNum l.body⟩ else none
  | _, _ => none

/-- The words at the word address where a core stands are those of an instruction (R306, R307). -/
def AsCtx.runs (c : AsCtx) (i : Instr) : Bool :=
  i.spelt (codeWord (c.d.prog (runSlot c.l.body)) c.pc) (codeWord (c.d.prog (runSlot c.l.body)) (c.pc + 1))

/-- A core executes an instruction: `lane0` marks one whose trap names x62 of lane 0. Nothing happens where no running launch has the bench,
the core waits, or its program has another instruction there. -/
def Dev.asExec (d : Dev) (m : List Host.Cell) (i : Instr) (core : Core) (lock lane0 : Bool) (f : AsCtx → AsRes) : Dev × List Host.Cell :=
  match d.asCtx? m core with
  | some c => if c.runs i then d.asRun c core.bench lock lane0 (f c) else (d, m)
  | none => (d, m)

/-- An instruction as a command. -/
def asCmd (i : Instr) (core : Core) (lock : Bool) (f : AsCtx → AsRes) (s : State) : Host.Outcome State Fault Refusal :=
  memStep (fun d m => d.asExec m i core lock false f) s

/-- A lockstep-only instruction whose trap names x62 of lane 0. -/
def asRow (i : Instr) (core : Core) (f : AsCtx → AsRes) (s : State) : Host.Outcome State Fault Refusal :=
  memStep (fun d m => d.asExec m i core true true f) s

/-! ## Control and synchronisation (R312, R313) -/

/-- Every thread has reached a BAR or has ended: those that wait go on. -/
def Bench.barCheck (b : Bench) : Bench := if 32 ≤ b.bar.length + b.ended.length then { b with bar := [] } else b

/-- END (R281): the bench, or the thread, has finished. -/
def AsCtx.finish (c : AsCtx) : AsRes :=
  if c.b.free then
    let ended := c.thread :: c.b.ended
    { b := { c.b with ended := ended, done := decide (32 ≤ ended.length) }.barCheck, next := c.pc }
  else { b := { c.b with done := true }, next := c.pc }

/-- A transfer to this address + REL. -/
def AsCtx.jumpTo (c : AsCtx) (b : Bench) (rel : Int) : AsRes := { b := b, next := Int.ofNat c.pc + rel, jump := true }

/-- The register a condition or a target is read from: lane 0's, or the thread's own. -/
def AsCtx.own (c : AsCtx) (r : Nat) : Nat := c.b.reg c.thread r

/-- COND of BR (R313). -/
def AsCtx.cond (c : AsCtx) (f : FmtB) : Bool :=
  let x := sext 32 (c.own f.a)
  let m := c.b.mreg f.m
  match f.cond % 8 with
  | 0 => x == 0
  | 1 => x != 0
  | 2 => decide (x < 0)
  | 3 => decide (0 ≤ x)
  | 4 => decide (0 < x)
  | 5 => m != 0
  | 6 => m == 0xFFFFFFFF
  | _ => m == 0

/-- BR. -/
def AsCtx.br (c : AsCtx) (f : FmtB) : AsRes := if c.cond f then c.jumpTo c.b (sext 12 f.rel) else c.goOn 1 c.b

/-- CALL: x63 takes the address that follows, in every lane of a lockstep bench. -/
def AsCtx.call (c : AsCtx) (rel : Nat) : AsRes :=
  let lanes := if c.b.free then [c.thread] else List.range 32
  c.jumpTo (lanes.foldl (fun b i => b.setReg i 63 (c.pc + 1) false) c.b) (sext 24 rel)

/-- JR. -/
def AsCtx.jr (c : AsCtx) (a : Nat) : AsRes := { b := c.b, next := Int.ofNat (c.own a), jump := true }

/-- FORK (R278): in FREE it has no effect. -/
def AsCtx.fork (c : AsCtx) : AsRes :=
  c.goOn 1 (if c.b.free then c.b else { c.b with free := true, ended := [], bar := [], joining := [] })

/-- JOIN (R278, R281): in LOCKSTEP it has no effect; once all 32 threads have reached it one program counter goes on. Where they stand at
different JOINs the manual does not say which one's successor that is: a free choice. -/
def AsCtx.join (c : AsCtx) : AsRes :=
  if !c.b.free then c.goOn 1 c.b
  else if !c.b.ended.isEmpty then { c.goOn 1 c.b with stop := .fault 4 0 false c.thread 0 }
  else
    let joining := c.thread :: c.b.joining
    let pcs := mput 0 c.thread (c.pc + 1) c.b.pcs
    if 32 ≤ joining.length then
      c.goOn 1 { c.b with free := false, joining := [], pcs := mput 0 0 (mget 0 (c.d.freeNat % 32) pcs) [] }
    else c.goOn 1 { c.b with joining := joining }

/-- BAR (R286): in LOCKSTEP it has no effect. -/
def AsCtx.barrier (c : AsCtx) : AsRes :=
  if c.b.free then c.goOn 1 { c.b with bar := c.thread :: c.b.bar }.barCheck else c.goOn 1 c.b

/-- GSYNC (R286). -/
def AsCtx.gsync (c : AsCtx) : AsRes := c.goOn 1 { c.b with gsync := true }

/-- AS_END (R312). -/
def execAsEnd (core : Core) (s : State) : Host.Outcome State Fault Refusal := asCmd (.asEnd core) core false (fun c => c.finish) s

/-- AS_NOP (R312). -/
def execAsNop (core : Core) (s : State) : Host.Outcome State Fault Refusal := asCmd (.asNop core) core false (fun c => c.goOn 1 c.b) s

/-- AS_BR (R312, R313): the mask conditions are lockstep only. -/
def execAsBr (core : Core) (f : FmtB) (s : State) : Host.Outcome State Fault Refusal :=
  asCmd (.asBr core f) core (decide (5 ≤ f.cond % 8)) (fun c => c.br f) s

/-- AS_JMP (R312). -/
def execAsJmp (core : Core) (rel : Nat) (s : State) : Host.Outcome State Fault Refusal :=
  asCmd (.asJmp core rel) core false (fun c => c.jumpTo c.b (sext 24 rel)) s

/-- AS_CALL (R312). -/
def execAsCall (core : Core) (rel : Nat) (s : State) : Host.Outcome State Fault Refusal := asCmd (.asCall core rel) core false (fun c => c.call rel) s

/-- AS_JR (R312). -/
def execAsJr (core : Core) (a : Nat) (s : State) : Host.Outcome State Fault Refusal := asCmd (.asJr core a) core false (fun c => c.jr a) s

/-- AS_FORK (R312). -/
def execAsFork (core : Core) (s : State) : Host.Outcome State Fault Refusal := asCmd (.asFork core) core false (fun c => c.fork) s

/-- AS_JOIN (R312): a free value may have been used. -/
def execAsJoin (core : Core) (s : State) : Host.Outcome State Fault Refusal :=
  memStep (fun d m => if d.live then d.freeNext.asExec m (.asJoin core) core false false (fun c => c.join) else (d, m)) s

/-- AS_BAR (R312). -/
def execAsBar (core : Core) (s : State) : Host.Outcome State Fault Refusal := asCmd (.asBar core) core false (fun c => c.barrier) s

/-- AS_GSYNC (R312). -/
def execAsGsync (core : Core) (s : State) : Host.Outcome State Fault Refusal := asCmd (.asGsync core) core true (fun c => c.gsync) s

/-! ## Integer and bit instructions (R314) -/

/-- A result of two registers by lane, not a number: its derived bit is clear. -/
def AsCtx.int2 (c : AsCtx) (f : FmtR) (op : W32 → W32 → W32) : AsRes :=
  c.perLane 1 f.m (fun i =>
    { ws := [(f.d, (op (BitVec.ofNat 32 (c.b.reg i f.a)) (BitVec.ofNat 32 (c.b.reg i f.b))).toNat, false)] })

/-- MOV: the derived bit goes with the value. -/
def AsCtx.mov (c : AsCtx) (f : FmtR) : AsRes := c.perLane 1 f.m (fun i => { ws := [(f.d, c.b.reg i f.a, c.b.der i f.a)] })

/-- All 32 lanes, or the thread: what an unmasked instruction writes. -/
def AsCtx.allLanes (c : AsCtx) (n : Nat) (f : Nat → LaneOut) : AsRes := c.perLane n 0 f

/-- SHFL. -/
def AsCtx.shfl (c : AsCtx) (f : FmtR) : AsRes :=
  c.perLane 1 f.m (fun i =>
    let j := c.b.reg i f.b % 32
    { ws := [(f.d, c.b.reg j f.a, c.b.der j f.a)] })

/-- SEL: every lane is written; in FREE, m0 selects x_A. -/
def AsCtx.sel (c : AsCtx) (f : FmtR) : AsRes :=
  c.allLanes 1 (fun i =>
    let r := if c.b.free || (c.b.mreg f.m).testBit i then f.a else f.b
    { ws := [(f.d, c.b.reg i r, c.b.der i r)] })

/-- AS_MOV. -/
def execAsMov (core : Core) (f : FmtR) (s : State) : Host.Outcome State Fault Refusal := asCmd (.asMov core f) core false (fun c => c.mov f) s

/-- AS_IADD. -/
def execAsIadd (core : Core) (f : FmtR) (s : State) : Host.Outcome State Fault Refusal :=
  asCmd (.asIadd core f) core false (fun c => c.int2 f (fun a b => a + b)) s

/-- AS_ISUB. -/
def execAsIsub (core : Core) (f : FmtR) (s : State) : Host.Outcome State Fault Refusal :=
  asCmd (.asIsub core f) core false (fun c => c.int2 f (fun a b => a - b)) s

/-- AS_IMUL. -/
def execAsImul (core : Core) (f : FmtR) (s : State) : Host.Outcome State Fault Refusal :=
  asCmd (.asImul core f) core false (fun c => c.int2 f (fun a b => a * b)) s

/-- AS_IMIN. -/
def execAsImin (core : Core) (f : FmtR) (s : State) : Host.Outcome State Fault Refusal :=
  asCmd (.asImin core f) core false (fun c => c.int2 f (fun a b => if b.slt a then b else a)) s

/-- AS_IMAX. -/
def execAsImax (core : Core) (f : FmtR) (s : State) : Host.Outcome State Fault Refusal :=
  asCmd (.asImax core f) core false (fun c => c.int2 f (fun a b => if a.slt b then b else a)) s

/-- AS_AND. -/
def execAsAnd (core : Core) (f : FmtR) (s : State) : Host.Outcome State Fault Refusal :=
  asCmd (.asAnd core f) core false (fun c => c.int2 f (fun a b => a &&& b)) s

/-- AS_OR. -/
def execAsOr (core : Core) (f : FmtR) (s : State) : Host.Outcome State Fault Refusal :=
  asCmd (.asOr core f) core false (fun c => c.int2 f (fun a b => a ||| b)) s

/-- AS_XOR. -/
def execAsXor (core : Core) (f : FmtR) (s : State) : Host.Outcome State Fault Refusal :=
  asCmd (.asXor core f) core false (fun c => c.int2 f (fun a b => a ^^^ b)) s

/-- AS_SHL. -/
def execAsShl (core : Core) (f : FmtR) (s : State) : Host.Outcome State Fault Refusal :=
  asCmd (.asShl core f) core false (fun c => c.int2 f (fun a b => a <<< (b.toNat % 32))) s

/-- AS_SHR. -/
def execAsShr (core : Core) (f : FmtR) (s : State) : Host.Outcome State Fault Refusal :=
  asCmd (.asShr core f) core false (fun c => c.int2 f (fun a b => a >>> (b.toNat % 32))) s

/-- AS_SRA. -/
def execAsSra (core : Core) (f : FmtR) (s : State) : Host.Outcome State Fault Refusal :=
  asCmd (.asSra core f) core false (fun c => c.int2 f (fun a b => a.sshiftRight (b.toNat % 32))) s

/-- AS_ADDI. -/
def execAsAddi (core : Core) (f : FmtI) (s : State) : Host.Outcome State Fault Refusal :=
  asCmd (.asAddi core f) core false (fun c => c.allLanes 1 (fun i => { ws := [(f.d, c.b.reg i f.a + ofInt 32 (sext 12 f.imm), false)] })) s

/-- AS_LI: two words. -/
def execAsLi (core : Core) (f : FmtI) (word1 : W32) (s : State) : Host.Outcome State Fault Refusal :=
  asCmd (.asLi core f word1) core false (fun c => c.allLanes 2 (fun _ => { ws := [(f.d, word1.toNat, false)] })) s

/-- AS_SHFL: lockstep only. -/
def execAsShfl (core : Core) (f : FmtR) (s : State) : Host.Outcome State Fault Refusal := asCmd (.asShfl core f) core true (fun c => c.shfl f) s

/-- AS_SEL. -/
def execAsSel (core : Core) (f : FmtR) (s : State) : Host.Outcome State Fault Refusal := asCmd (.asSel core f) core false (fun c => c.sel f) s

/-! ## Mask instructions (R320) -/

/-- A mask from the two source masks. -/
def AsCtx.maskOp (c : AsCtx) (f : FmtK) (op : W32 → W32 → W32) : AsRes :=
  c.goOn 1 (c.b.setMask f.md (op (BitVec.ofNat 32 (c.b.mreg f.ma)) (BitVec.ofNat 32 (c.b.mreg f.mb))).toNat)

/-- TAIL (R280): bit i is set when i lies below the count. -/
def AsCtx.tail (c : AsCtx) (f : FmtK) : AsRes :=
  let n := sext 32 (c.b.reg 0 f.x)
  c.goOn 1 (c.b.setMask f.md (2 ^ (min 32 n.toNat) - 1))

/-- AS_TAIL. -/
def execAsTail (core : Core) (f : FmtK) (s : State) : Host.Outcome State Fault Refusal := asCmd (.asTail core f) core true (fun c => c.tail f) s

/-- AS_MOVRM. -/
def execAsMovrm (core : Core) (f : FmtK) (s : State) : Host.Outcome State Fault Refusal :=
  asCmd (.asMovrm core f) core true (fun c => c.goOn 1 (c.b.setMask f.md (c.b.reg 0 f.x))) s

/-- AS_MOVMR. -/
def execAsMovmr (core : Core) (f : FmtK) (s : State) : Host.Outcome State Fault Refusal :=
  asCmd (.asMovmr core f) core true (fun c => c.allLanes 1 (fun _ => { ws := [(f.x, c.b.mreg f.ma, false)] })) s

/-- AS_MAND. -/
def execAsMand (core : Core) (f : FmtK) (s : State) : Host.Outcome State Fault Refusal :=
  asCmd (.asMand core f) core true (fun c => c.maskOp f (fun a b => a &&& b)) s

/-- AS_MOR. -/
def execAsMor (core : Core) (f : FmtK) (s : State) : Host.Outcome State Fault Refusal :=
  asCmd (.asMor core f) core true (fun c => c.maskOp f (fun a b => a ||| b)) s

/-- AS_MXOR. -/
def execAsMxor (core : Core) (f : FmtK) (s : State) : Host.Outcome State Fault Refusal :=
  asCmd (.asMxor core f) core true (fun c => c.maskOp f (fun a b => a ^^^ b)) s

/-- AS_MANDN. -/
def execAsMandn (core : Core) (f : FmtK) (s : State) : Host.Outcome State Fault Refusal :=
  asCmd (.asMandn core f) core true (fun c => c.maskOp f (fun a b => a &&& ~~~ b)) s

/-- AS_MNOT. -/
def execAsMnot (core : Core) (f : FmtK) (s : State) : Host.Outcome State Fault Refusal :=
  asCmd (.asMnot core f) core true (fun c => c.maskOp f (fun a _ => ~~~ a)) s

/-! ## The generator (R323) -/

/-- The four words of gen for a lane's counter at register `r`. -/
def AsCtx.genAt (c : AsCtx) (lane r : Nat) : List W32 :=
  let x := fun (k : Nat) => BitVec.ofNat 32 (c.b.reg lane (r + k))
  gen (BitVec.ofNat 32 c.num.key) (BitVec.ofNat 32 (c.num.key / 2 ^ 32)) (x 0) (x 1) (x 2) (x 3)

/-- AS_RNG. -/
def execAsRng (core : Core) (f : FmtR) (s : State) : Host.Outcome State Fault Refusal :=
  asCmd (.asRng core f) core false (fun c => c.perLane 1 f.m (fun i =>
    let g := c.genAt i f.a
    { ws := (g.zip (List.range 4)).map (fun w => (f.d + w.2, w.1.toNat, false)) })) s

end Sys2Proof.Machine
end

