-- ==== Sys2Proof/Machine/AsFloat.lean ====
section
/-! DEFINITION. Floating-point instructions of a bench (R315 to R319, R321, R327): arithmetic on elements, dot products, the function unit,
conversions, comparisons and the lane tree (R289). -/

namespace Sys2Proof.Machine

/-! ## Operands and events (R195, R325) -/

/-- Format code of the elements that T names (R172, R311): binary32, bfloat16, binary16, E4M3, E5M2. -/
def tFmt (t : Nat) : Nat := t + 1

/-- Bits of an element under T. -/
def tBits (t : Nat) : Nat := elemBits (tFmt t)

/-- Element `k` of a register's pattern under T. -/
def tElem (t x k : Nat) : Nat := nfld x (tBits t * k) (tBits t)

/-- An operand: its format, its code, and whether its register's derived bit is set. -/
structure Opd where
  fmt : Nat
  code : Nat
  der : Bool
  deriving DecidableEq, Repr

/-- Its value. -/
def Opd.val (o : Opd) : FVal := (ffmtOf o.fmt).decode o.code

/-- The events of one element operation in a lane: each NaN operand whose derived bit is clear is received, then what is produced. -/
def opEvents (lane : Nat) (ops : List Opd) (r : NRes) : List AsEv :=
  (ops.filterMap (fun o => if o.val.isNaN && !o.der then some { lane := lane, cause := 1, fmtA := o.fmt, opA := o.code } else none)) ++
  (if r.cause = 0 then [] else
    match ops with
    | a :: b :: _ => [{ lane := lane, cause := r.cause, fmtA := a.fmt, opA := a.code, fmtB := b.fmt, opB := b.code, two := true }]
    | [a] => [{ lane := lane, cause := r.cause, fmtA := a.fmt, opA := a.code }]
    | [] => [])

/-- A result is a NaN of its format. -/
def isNaNOf (fmt code : Nat) : Bool := !isInt fmt && ((ffmtOf fmt).decode code).isNaN

/-- An operation on values: NaN operands first, in their order and with their own signs (R192, R327), else the arithmetic given. -/
def nanFirst (f : FFmt) (strict : Bool) (ops : List FVal) (r : NRes) : NRes :=
  match firstNaN ops with
  | some n => nanResult f strict ops n
  | none => r

/-! ## FADD to FNEG (R315) -/

/-- An element operation: the operands a, b and d of an element, its format and the mode. -/
abbrev ElemOp := FFmt → Bool → FVal → FVal → FVal → NRes

/-- Whether it reads b and d. -/
structure ElemUse where
  b : Bool
  d : Bool
  deriving DecidableEq, Repr

/-- FADD to FNEG in a lane: each element of the register is rounded to its own format. -/
def AsCtx.elemLane (c : AsCtx) (f : FmtR) (use : ElemUse) (op : ElemOp) (i : Nat) : LaneOut :=
  let fmt := tFmt f.t
  let get := fun (r k : Nat) => (⟨fmt, tElem f.t (c.b.reg i r) k, c.b.der i r⟩ : Opd)
  let rs := (List.range (32 / tBits f.t)).map (fun k =>
    let a := get f.a k
    let b := get f.b k
    let d := get f.d k
    let r := op (ffmtOf fmt) c.num.strict a.val b.val d.val
    (k, r, opEvents i ([a] ++ (if use.b then [b] else []) ++ (if use.d then [d] else [])) r))
  { ws := [(f.d, (rs.map (fun r => r.2.1.code * 2 ^ (tBits f.t * r.1))).sum, rs.any (fun r => isNaNOf fmt r.2.1.code))],
    ieee := rs.foldl (fun n r => n ||| r.2.1.ieee) 0, ovf := rs.any (fun r => r.2.1.ovf), evs := rs.flatMap (fun r => r.2.2) }

/-- FADD to FNEG under the mask. -/
def AsCtx.elem (c : AsCtx) (f : FmtR) (use : ElemUse) (op : ElemOp) : AsRes := c.perLane 1 f.m (c.elemLane f use op)

/-- a − b. -/
def fSub (f : FFmt) (strict : Bool) (a b : FVal) : NRes := nanFirst f strict [a, b] (fAdd f strict a b.negate)

/-- d − a × b. -/
def fFnma (f : FFmt) (strict : Bool) (a b d : FVal) : NRes := nanFirst f strict [a, b, d] (fFma f strict a.negate b d)

/-- |a| and −a: in strict mode the sign bit alone; in ordinary mode a NaN gives the default NaN. No flag. -/
def fSign (f : FFmt) (strict neg : Bool) (a : FVal) : NRes :=
  let s := neg && !a.neg
  match a with
  | .nan _ p => { code := if strict then f.signed s (f.infCode + p / 2 ^ (52 - f.mb)) else f.defNaN }
  | .inf _ => { code := f.signed s f.infCode }
  | .fin _ m e => { code := (f.deliver false false none (.fin s m e)).code }

/-- AS_FADD (R315). -/
def execAsFadd (core : Core) (f : FmtR) (s : State) : Host.Outcome State Fault Refusal :=
  asCmd (.asFadd core f) core false (fun c => c.elem f ⟨true, false⟩ (fun ff st a b _ => fAdd ff st a b)) s

/-- AS_FSUB (R315). -/
def execAsFsub (core : Core) (f : FmtR) (s : State) : Host.Outcome State Fault Refusal :=
  asCmd (.asFsub core f) core false (fun c => c.elem f ⟨true, false⟩ (fun ff st a b _ => fSub ff st a b)) s

/-- AS_FMUL (R315). -/
def execAsFmul (core : Core) (f : FmtR) (s : State) : Host.Outcome State Fault Refusal :=
  asCmd (.asFmul core f) core false (fun c => c.elem f ⟨true, false⟩ (fun ff st a b _ => fMul ff st a b)) s

/-- AS_FMA (R315). -/
def execAsFma (core : Core) (f : FmtR) (s : State) : Host.Outcome State Fault Refusal :=
  asCmd (.asFma core f) core false (fun c => c.elem f ⟨true, true⟩ (fun ff st a b d => fFma ff st a b d)) s

/-- AS_FNMA (R315). -/
def execAsFnma (core : Core) (f : FmtR) (s : State) : Host.Outcome State Fault Refusal :=
  asCmd (.asFnma core f) core false (fun c => c.elem f ⟨true, true⟩ (fun ff st a b d => fFnma ff st a b d)) s

/-- AS_FMIN (R315). -/
def execAsFmin (core : Core) (f : FmtR) (s : State) : Host.Outcome State Fault Refusal :=
  asCmd (.asFmin core f) core false (fun c => c.elem f ⟨true, false⟩ (fun ff st a b _ => fMin ff st a b)) s

/-- AS_FMAX (R315). -/
def execAsFmax (core : Core) (f : FmtR) (s : State) : Host.Outcome State Fault Refusal :=
  asCmd (.asFmax core f) core false (fun c => c.elem f ⟨true, false⟩ (fun ff st a b _ => fMax ff st a b)) s

/-- AS_FABS (R315). -/
def execAsFabs (core : Core) (f : FmtR) (s : State) : Host.Outcome State Fault Refusal :=
  asCmd (.asFabs core f) core false (fun c => c.elem f ⟨false, false⟩ (fun ff st a _ _ => fSign ff st false a)) s

/-- AS_FNEG (R315). -/
def execAsFneg (core : Core) (f : FmtR) (s : State) : Host.Outcome State Fault Refusal :=
  asCmd (.asFneg core f) core false (fun c => c.elem f ⟨false, false⟩ (fun ff st a _ _ => fSign ff st true a)) s

/-! ## DOT2 and DOT4 (R315) -/

/-- Fused steps into binary32 in element order. -/
def AsCtx.dotLane (c : AsCtx) (f : FmtR) (n i : Nat) : LaneOut :=
  let fmt := tFmt f.t
  let get := fun (r k : Nat) => (⟨fmt, tElem f.t (c.b.reg i r) k, c.b.der i r⟩ : Opd)
  let start : Opd := ⟨1, c.b.reg i f.d, c.b.der i f.d⟩
  let x := (List.range n).foldl (fun (x : Nat × Nat × Bool × List AsEv) k =>
    let a := get f.a k
    let b := get f.b k
    let r := fFma fp32 c.num.strict a.val b.val (fp32.decode x.1)
    (r.code, x.2.1 ||| r.ieee, x.2.2.1 || r.ovf, x.2.2.2 ++ opEvents i ([a, b] ++ if k = 0 then [start] else []) r)) (start.code, 0, false, [])
  { ws := [(f.d, x.1, isNaNOf 1 x.1)], ieee := x.2.1, ovf := x.2.2.1, evs := x.2.2.2 }

/-- DOT4 on INT8: integer arithmetic, wrapping. -/
def AsCtx.dotInt (c : AsCtx) (f : FmtR) (i : Nat) : LaneOut :=
  let z := ((List.range 4).map (fun k => sext 8 (nfld (c.b.reg i f.a) (8 * k) 8) * sext 8 (nfld (c.b.reg i f.b) (8 * k) 8))).sum
  { ws := [(f.d, ofInt 32 (Int.ofNat (c.b.reg i f.d) + z), false)] }

/-- AS_DOT2. -/
def execAsDot2 (core : Core) (f : FmtR) (s : State) : Host.Outcome State Fault Refusal :=
  asCmd (.asDot2 core f) core false (fun c => c.perLane 1 f.m (c.dotLane f 2)) s

/-- AS_DOT4. -/
def execAsDot4 (core : Core) (f : FmtR) (s : State) : Host.Outcome State Fault Refusal :=
  asCmd (.asDot4 core f) core false (fun c => c.perLane 1 f.m (if f.t = 5 then c.dotInt f else c.dotLane f 4)) s

/-! ## The function unit (R316) -/

/-- A code expanded exactly to binary32; a signalling NaN stays one. -/
def widen (f : FFmt) (x : Nat) : Nat :=
  match f.decode x with
  | .nan n p => fp32.signed n (fp32.infCode + p / 2 ^ 29)
  | v => (fp32.deliver false false none v).code

/-- A function in a lane. -/
def AsCtx.funcLane (c : AsCtx) (f : FmtR) (op : Nat) (i : Nat) : LaneOut :=
  let fmt := tFmt f.t
  let get := fun (r : Nat) => (⟨fmt, tElem f.t (c.b.reg i r) 0, c.b.der i r⟩ : Opd)
  let a := get f.a
  let b := get f.b
  let r := fuEval op c.num.strict (widen (ffmtOf fmt) a.code) (widen (ffmtOf fmt) b.code)
  { ws := [(f.d, r.code, isNaNOf 1 r.code)], ieee := r.ieee, ovf := r.ovf, evs := opEvents i (if op = 0x30 then [a, b] else [a]) r }

/-- A function under the mask. -/
def AsCtx.func (c : AsCtx) (f : FmtR) (op : Nat) : AsRes := c.perLane 1 f.m (c.funcLane f op)

/-- AS_DIV. -/
def execAsDiv (core : Core) (f : FmtR) (s : State) : Host.Outcome State Fault Refusal := asCmd (.asDiv core f) core false (fun c => c.func f 0x30) s

/-- AS_RCP. -/
def execAsRcp (core : Core) (f : FmtR) (s : State) : Host.Outcome State Fault Refusal := asCmd (.asRcp core f) core false (fun c => c.func f 0x31) s

/-- AS_SQRT. -/
def execAsSqrt (core : Core) (f : FmtR) (s : State) : Host.Outcome State Fault Refusal := asCmd (.asSqrt core f) core false (fun c => c.func f 0x32) s

/-- AS_RSQRT. -/
def execAsRsqrt (core : Core) (f : FmtR) (s : State) : Host.Outcome State Fault Refusal := asCmd (.asRsqrt core f) core false (fun c => c.func f 0x33) s

/-- AS_EXP. -/
def execAsExp (core : Core) (f : FmtR) (s : State) : Host.Outcome State Fault Refusal := asCmd (.asExp core f) core false (fun c => c.func f 0x34) s

/-- AS_EXP2. -/
def execAsExp2 (core : Core) (f : FmtR) (s : State) : Host.Outcome State Fault Refusal := asCmd (.asExp2 core f) core false (fun c => c.func f 0x35) s

/-- AS_LOG. -/
def execAsLog (core : Core) (f : FmtR) (s : State) : Host.Outcome State Fault Refusal := asCmd (.asLog core f) core false (fun c => c.func f 0x36) s

/-- AS_LOG2. -/
def execAsLog2 (core : Core) (f : FmtR) (s : State) : Host.Outcome State Fault Refusal := asCmd (.asLog2 core f) core false (fun c => c.func f 0x37) s

/-- AS_TANH. -/
def execAsTanh (core : Core) (f : FmtR) (s : State) : Host.Outcome State Fault Refusal := asCmd (.asTanh core f) core false (fun c => c.func f 0x38) s

/-- AS_SIGMOID. -/
def execAsSigmoid (core : Core) (f : FmtR) (s : State) : Host.Outcome State Fault Refusal := asCmd (.asSigmoid core f) core false (fun c => c.func f 0x39) s

/-- AS_SIN. -/
def execAsSin (core : Core) (f : FmtR) (s : State) : Host.Outcome State Fault Refusal := asCmd (.asSin core f) core false (fun c => c.func f 0x3A) s

/-- AS_COS. -/
def execAsCos (core : Core) (f : FmtR) (s : State) : Host.Outcome State Fault Refusal := asCmd (.asCos core f) core false (fun c => c.func f 0x3B) s

/-! ## Conversions (R317, R318) -/

/-- A format whose elements take a register pair. -/
def isPair (fmt : Nat) : Bool := fmt == 14 || fmt == 15

/-- The source of a CVT in a lane in raw form (R197), and its derived bit. -/
def AsCtx.cvtSrc (c : AsCtx) (a src i : Nat) : Nat × Bool :=
  let lo := c.b.reg i a
  if isPair src then (lo + 2 ^ 32 * c.b.reg i (a + 1), c.b.der i a && c.b.der i (a + 1))
  else if isMx src then (nfld lo 0 (elemBits src) + 256 * nfld lo 8 8, c.b.der i a)
  else (nfld lo 0 (elemBits src), c.b.der i a)

/-- The register words a converted code takes (R308). -/
def cvtWords (dst d code : Nat) (der : Bool) : List (Nat × Nat × Bool) :=
  if isPair dst then [(d, code % 2 ^ 32, der), (d + 1, code / 2 ^ 32, der)]
  else if dst = 11 ∨ dst = 12 then [(d, ofInt 32 (sext (elemBits dst) code), false)]
  else [(d, code, der)]

/-- RECEIVED for a source that is a NaN (R325). -/
def cvtEvents (i src : Nat) (x : Nat × Bool) : List AsEv :=
  if (rawValue src x.1).isNaN && !x.2 then [{ lane := i, cause := 1, fmtA := src, opA := x.1 }] else []

/-- The generator word of a lane when the rounding is stochastic. -/
def AsCtx.cvtSr (c : AsCtx) (rnd b i : Nat) : Option Nat :=
  if !c.num.strict && (rnd == 2 || (rnd == 0 && c.num.rmode)) then some ((c.genAt i b).headD 0).toNat else none

/-- CVT. -/
def AsCtx.cvt (c : AsCtx) (f : FmtR) (w1 : Nat) : AsRes :=
  let dst := nfld w1 0 5
  let src := nfld w1 5 5
  let rnd := nfld w1 10 2
  let lanes := c.lanes f.m
  let xs := lanes.map (c.cvtSrc f.a src)
  let vs := xs.map (fun x => rawValue src x.1)
  let rs := if isMx dst then deliverBlock dst c.num.strict (fun k => c.cvtSr rnd f.b (lanes.getD k 0)) vs
    else (vs.zip lanes).map (fun v => deliver dst c.num.strict (c.cvtSr rnd f.b v.2) v.1)
  let isN := fun (code : Nat) => if isMx dst then code / 256 == 255 else isNaNOf dst code
  c.deliverLanes 2 ((lanes.zip (xs.zip rs)).map (fun z => (z.1,
    { ws := cvtWords dst f.d z.2.2.code (isN z.2.2.code), ieee := z.2.2.ieee, ovf := z.2.2.ovf, evs := cvtEvents z.1 src z.2.1 })))

/-- AS_CVT: lockstep only where DST is an MX format. -/
def execAsCvt (core : Core) (f : FmtR) (word1 : W32) (s : State) : Host.Outcome State Fault Refusal :=
  asCmd (.asCvt core f word1) core (isMx (fld word1 0 5)) (fun c => c.cvt f word1.toNat) s

/-! ## Compare (R319) -/

/-- A condition of CMP on ordered facts: below, equal, above, unordered. -/
def cmpHolds (cond : Nat) (lt eq gt un : Bool) : Bool :=
  match cond with
  | 0 => eq
  | 1 => !eq
  | 2 => lt
  | 3 => lt || eq
  | 4 => gt
  | 5 => gt || eq
  | 6 => un
  | _ => false

/-- CMP in a lane: the bit, the flags and the events. -/
def AsCtx.cmpLane (c : AsCtx) (f : FmtR) (i : Nat) : Bool × LaneOut :=
  let cond := f.d / 8
  let a := c.b.reg i f.a
  let b := c.b.reg i f.b
  if f.t = 0 then
    let x : Opd := ⟨1, a, c.b.der i f.a⟩
    let y : Opd := ⟨1, b, c.b.der i f.b⟩
    let un := x.val.isNaN || y.val.isNaN
    let loud := decide (2 ≤ cond ∧ cond ≤ 5)
    let bad := c.num.strict && (if loud then un else x.val.sig || y.val.sig)
    (cmpHolds cond (!un && x.val.below y.val) (x.val.same y.val) (!un && y.val.below x.val) un,
     { ws := [], ieee := bad.toNat, evs := opEvents i [x, y] { code := 0 } })
  else
    let u := if f.t = 5 then sext 32 a else Int.ofNat a
    let v := if f.t = 5 then sext 32 b else Int.ofNat b
    (cmpHolds cond (decide (u < v)) (u == v) (decide (v < u)) false, { ws := [] })

/-- CMP: the bits of the lanes present are set or cleared, the others unchanged. -/
def AsCtx.cmp (c : AsCtx) (f : FmtR) : AsRes :=
  let lanes := c.lanes f.m
  let rs := lanes.map (fun i => (i, c.cmpLane f i))
  let v := rs.foldl (fun v r => nsetf v r.1 1 r.2.1.toNat) (c.b.mreg f.d)
  let r := c.deliverLanes 1 (rs.map (fun r => (r.1, r.2.2)))
  { r with b := r.b.setMask f.d v }

/-- AS_CMP: lockstep only. -/
def execAsCmp (core : Core) (f : FmtR) (s : State) : Host.Outcome State Fault Refusal := asCmd (.asCmp core f) core true (fun c => c.cmp f) s

/-! ## The lane tree (R289, R200) -/

/-- A node of the tree: its code in the tree's format, none where every lane below it is absent, and the lowest lane below it. -/
structure Node where
  code : Option Nat
  lane : Nat
  deriving DecidableEq, Repr

/-- What a tree gathers. -/
structure TreeAcc where
  ieee : Nat := 0
  ovf : Bool := false
  evs : List AsEv := []
  deriving DecidableEq, Repr

/-- One pair of adjacent results. -/
def treePair (acc opr : Nat) (strict : Bool) (a b : Node) (t : TreeAcc) : Node × TreeAcc :=
  match a.code, b.code with
  | some x, some y =>
    let r := combine acc opr strict x y
    let ev := if r.cause = 0 then [] else [{ lane := a.lane, cause := r.cause, fmtA := acc, opA := x, fmtB := acc, opB := y, two := true : AsEv }]
    (⟨some r.code, a.lane⟩, { ieee := t.ieee ||| r.ieee, ovf := t.ovf || r.ovf, evs := t.evs ++ ev })
  | some _, none => (a, t)
  | none, some _ => (b, t)
  | none, none => (a, t)

/-- One stage. -/
def treeStage (acc opr : Nat) (strict : Bool) : List Node → TreeAcc → List Node × TreeAcc
  | a :: b :: rest, t =>
    let p := treePair acc opr strict a b t
    let r := treeStage acc opr strict rest p.2
    (p.1 :: r.1, r.2)
  | xs, t => (xs, t)

/-- Five stages over the 32 lanes, those outside a segment absent. -/
def laneTree (acc opr : Nat) (strict : Bool) (xs : List (Option Nat)) (t : TreeAcc) : Option Nat × TreeAcc :=
  let leaves := (xs.zip (List.range 32)).map (fun x => (⟨x.1, x.2⟩ : Node))
  let r := (List.range 5).foldl (fun (s : List Node × TreeAcc) _ => treeStage acc opr strict s.1 s.2) (leaves, t)
  ((r.1.head?).bind (fun n => n.code), r.2)

/-- The identity of an operator in binary32 or INT32 (R200). -/
def identity (int : Bool) (opr : Nat) : Nat :=
  match opr with
  | 0 => 0
  | 1 => if int then 1 else 0x3F800000
  | 2 => if int then 0x80000000 else 0xFF800000
  | 3 => if int then 0x7FFFFFFF else 0x7F800000
  | 4 => 0xFFFFFFFF
  | _ => 0

/-- A binary32 code expanded exactly into binary64; a signalling NaN stays one. -/
def toFp64 (x : Nat) : Nat :=
  match fp32.decode x with
  | .nan n p => fp64.signed n (fp64.infCode + p)
  | v => (fp64.deliver false false none v).code

/-- The last step of a reduction: rounded once to binary32, or saturated to INT32. -/
def treeEnd (int strict : Bool) (x : Nat) : NRes :=
  if int then satInt 32 (sext 64 x) else fp32.deliver false strict none (fp64.decode x)

/-- A reduction over some of the lanes: the binary32 or INT32 result, whether it was empty, and what was gathered. -/
def AsCtx.reduce (c : AsCtx) (f : FmtR) (inSeg : Nat → Bool) : Nat × Bool × TreeAcc :=
  let int := f.t == 5
  let opr := f.b / 8
  let acc := if int then 15 else 14
  let present := fun (i : Nat) => (c.b.mreg f.m).testBit i && inSeg i
  let leaf := fun (i : Nat) =>
    if present i then some (if int then ofInt 64 (sext 32 (c.b.reg i f.a)) else toFp64 (c.b.reg i f.a)) else none
  let recv := if int then [] else ((List.range 32).filter present).flatMap (fun i => opEvents i [⟨1, c.b.reg i f.a, c.b.der i f.a⟩] { code := 0 })
  let r := laneTree acc opr c.num.strict ((List.range 32).map leaf) { evs := recv }
  match r.1 with
  | none => (identity int opr, true, r.2)
  | some x =>
    let z := treeEnd int c.num.strict x
    (z.code, false, { r.2 with ieee := r.2.ieee ||| z.ieee, ovf := r.2.ovf || z.ovf })

/-- Segments as (first lane, next segment's first lane) for start bits, lane 0 always a start. -/
def segStart (s i : Nat) : Nat := ((List.range (i + 1)).filter (fun j => j == 0 || s.testBit j)).getLastD 0

/-- RED and REDS: each segment's result goes to every lane of it. -/
def AsCtx.red (c : AsCtx) (f : FmtR) (starts : Nat) : AsRes :=
  let firsts := (List.range 32).filter (fun i => i == 0 || starts.testBit i)
  let rs := firsts.map (fun k => (k, c.reduce f (fun i => segStart starts i == k)))
  let b := (List.range 32).foldl (fun b i =>
    match rs.find? (fun r => r.1 == segStart starts i) with
    | some r => b.setReg i f.d r.2.1 (f.t != 5 && isNaNOf 1 r.2.1)
    | none => b) c.b
  let flags := (if rs.any (fun r => r.2.2.1) then asEMPTY else 0) ||| (if rs.any (fun r => r.2.2.2.ovf) then asOVERFLOW else 0)
  { c.goOn 1 b with ieee := rs.foldl (fun n r => n ||| r.2.2.2.ieee) 0, flags := flags, evs := rs.flatMap (fun r => r.2.2.2.evs) }

/-- AS_RED (R321): one segment of all 32 lanes. -/
def execAsRed (core : Core) (f : FmtR) (s : State) : Host.Outcome State Fault Refusal := asRow (.asRed core f) core (fun c => c.red f 0) s

/-- AS_REDS (R321). -/
def execAsReds (core : Core) (f : FmtR) (s : State) : Host.Outcome State Fault Refusal := asRow (.asReds core f) core (fun c => c.red f (c.b.mreg f.b)) s

end Sys2Proof.Machine
end

