-- ==== Sys2Proof/Machine/AsMem.lean ====
section
/-! DEFINITION. Memory instructions of a bench (R282 to R287, R324, R325) and the row soft maximum (R201, R202, R322). -/

namespace Sys2Proof.Machine

/-! ## Scratch (R282) -/

/-- `n` bytes of scratch as a number. -/
def Bench.scrRead (b : Bench) (a n : Nat) : Nat := leNat (mgets 0 a n b.scr)

/-- The derived bit of the scratch word that holds a byte. -/
def Bench.scrDer (b : Bench) (a : Nat) : Bool := mget false (a / 4) b.sd

/-- Write `n` bytes of scratch. -/
def Bench.scrWrite (b : Bench) (a n v : Nat) : Bench := { b with scr := mputs 0 a (toLE n v) b.scr }

/-- Set the derived bit of the scratch word that holds a byte. -/
def Bench.setScrDer (b : Bench) (a : Nat) (der : Bool) : Bench := { b with sd := mput false (a / 4) der b.sd }

/-- An access of `n` bytes at a scratch address is allowed. -/
def scrOk (a n : Nat) : Bool := decide (a < 2 ^ 18) && a % n == 0

/-! ## Addresses and their faults (R284, R324) -/

/-- Where a lane's access falls: an address of stacked memory, of the data section or of scratch. -/
inductive Spot where
  | stacked (a : Nat)
  | data (o : Nat)
  | scratch (a : Nat)
  deriving DecidableEq, Repr

/-- The address a lane forms: a 64-bit offset, or a 32-bit scratch address. -/
def AsCtx.offset (c : AsCtx) (f : FmtM) (n i : Nat) : Nat :=
  if f.w % 8 = 7 then (c.b.reg i f.a + f.ofs * n) % 2 ^ 32
  else c.b.reg i f.a + 2 ^ 32 * c.b.reg i (f.a + 1) + f.ofs * n

/-- The spot of a lane's access of `n` bytes, or the cause of its fault. -/
def AsCtx.spot (c : AsCtx) (f : FmtM) (n : Nat) (store : Bool) (i : Nat) : Nat ⊕ Spot :=
  let o := c.offset f n i
  let w := f.w % 8
  if w = 7 then (if scrOk o n then .inr (.scratch o) else .inl 2)
  else if w = 6 then
    (if store || o % n != 0 || decide (imgData (c.d.prog (runSlot c.l.body)) < o + n) then .inl 1 else .inr (.data o))
  else
    let win := winOf c.l.body w
    if !win.valid || decide (win.size ≤ o) || o % n != 0 || (store && !win.write) then .inl 1 else .inr (.stacked (win.base + o))

/-- The first lane of a list whose access faults: its lane and cause. -/
def AsCtx.firstBad (c : AsCtx) (f : FmtM) (n : Nat) (store : Bool) : List Nat → Option (Nat × Nat)
  | [] => none
  | i :: is => match c.spot f n store i with
    | .inl cause => some (i, cause)
    | .inr _ => c.firstBad f n store is

/-- The fault of an access. -/
def AsCtx.memFault (c : AsCtx) (f : FmtM) (n : Nat) (store : Bool) (i cause : Nat) : AsRes :=
  { c.goOn 1 c.b with stop := .fault cause (if cause = 1 then f.w % 8 else 0) store i (c.offset f n i % 2 ^ 32) }

/-! ## Loads -/

/-- A byte of stacked memory as a bench sees it: its own stores of the phase; where another bench of the launch has written it in the phase, its
earlier value or one of those written (R286, R287); else what earlier phases left. -/
def AsCtx.see (c : AsCtx) (a : Nat) : Seen :=
  match mget? a c.b.pend with
  | some v => .byte v
  | none =>
    match c.d.seenByte c.m c.l a with
    | .byte v =>
      let ws := (c.d.benchesOf c.l).filterMap (fun b => mget? a b.pend)
      .byte ((v :: ws).getD (freeAt c.d.free a % (ws.length + 1)) v)
    | s => s

/-- What a lane loads: the bytes as a number with a derived bit for each register, or unreadable data. -/
def AsCtx.loadSpot (c : AsCtx) (n : Nat) (s : Spot) : Option (Nat × Bool × Bool) × Bool :=
  match s with
  | .scratch a => (some (c.b.scrRead a n, c.b.scrDer a, c.b.scrDer (a + 4)), false)
  | .data o =>
    let im := c.d.prog (runSlot c.l.body)
    (some (rdLE im (imgDataAt im + o) n, false, false), false)
  | .stacked a =>
    let bs := (List.range n).map (fun k => c.see (a + k))
    if bs.any (fun b => b == .lost) then (none, true)
    else if bs.any (fun b => b == .shut) then (none, false)
    else (some (leNat (bs.map (fun b => match b with
      | .byte v => v
      | _ => 0)), false, false), false)

/-- A lane's spot, where it has one. -/
def AsCtx.spotOf (c : AsCtx) (f : FmtM) (n : Nat) (store : Bool) (i : Nat) : Spot :=
  match c.spot f n store i with
  | .inr s => s
  | .inl _ => .scratch 0

/-- LD of `n` bytes. -/
def AsCtx.load (c : AsCtx) (f : FmtM) (n : Nat) : AsRes :=
  let lanes := c.lanes f.m
  match c.firstBad f n false lanes with
  | some (i, cause) => c.memFault f n false i cause
  | none =>
    let got := lanes.map (fun i => (i, c.loadSpot n (c.spotOf f n false i)))
    if got.any (fun g => g.2.2) then { c.goOn 1 c.b with stop := .lost } else
    match got.find? (fun g => g.2.1.isNone) with
    | some g => c.memFault f n false g.1 1
    | none =>
      let r := c.deliverLanes 1 (got.map (fun g =>
        let x := g.2.1.getD (0, false, false)
        (g.1, { ws := if n = 8 then [(f.d, x.1 % 2 ^ 32, x.2.1), (f.d + 1, x.1 / 2 ^ 32, x.2.2)] else [(f.d, x.1, x.2.1)] })))
      let rd := lanes.foldl (fun m i => match c.spotOf f n false i with
        | .stacked a => mputs false a (List.replicate n true) m
        | _ => m) c.b.rd
      { r with b := { r.b with rd := rd } }

/-! ## Stores and atomics -/

/-- One lane's store. -/
def AsCtx.storeOne (c : AsCtx) (f : FmtM) (n : Nat) (b : Bench) (i : Nat) : Bench :=
  let v := c.b.reg i f.d + 2 ^ 32 * c.b.reg i (f.d + 1)
  match c.spotOf f n true i with
  | .stacked a => { b with pend := (toLE n v).zip (List.range n) |>.foldl (fun m x => minsert (a + x.2) x.1 m) b.pend }
  | .scratch a =>
    let b := (b.scrWrite a n v).setScrDer a (c.b.der i f.d)
    if n = 8 then b.setScrDer (a + 4) (c.b.der i (f.d + 1)) else b
  | .data _ => b

/-- ST of `n` bytes: where lanes write the same byte the highest-numbered one's value is kept (R285). -/
def AsCtx.store (c : AsCtx) (f : FmtM) (n : Nat) : AsRes :=
  let lanes := c.lanes f.m
  match c.firstBad f n true lanes with
  | some (i, cause) => c.memFault f n true i cause
  | none => c.goOn 1 (lanes.foldl (c.storeOne f n) c.b)

/-- ATOM on a scratch word: every lane is applied. -/
def AsCtx.atom (c : AsCtx) (f : FmtM) (op : W32 → W32 → W32) : AsRes :=
  let lanes := c.lanes f.m
  match c.firstBad f 4 true lanes with
  | some (i, cause) => c.memFault f 4 true i cause
  | none => c.goOn 1 (lanes.foldl (fun b i => match c.spotOf f 4 true i with
      | .scratch a => (b.scrWrite a 4 (op (BitVec.ofNat 32 (b.scrRead a 4)) (BitVec.ofNat 32 (c.b.reg i f.d))).toNat).setScrDer a false
      | _ => b) c.b)

/-- A load as a command: a free value may have been used. -/
def asLoad (i : Instr) (core : Core) (f : FmtM) (n : Nat) (s : State) : Host.Outcome State Fault Refusal :=
  memStep (fun d m => if d.live then d.freeNext.asExec m i core false false (fun c => c.load f n) else (d, m)) s

/-- AS_LD_8 (R324). -/
def execAsLd8 (core : Core) (f : FmtM) (s : State) : Host.Outcome State Fault Refusal := asLoad (.asLd8 core f) core f 1 s

/-- AS_LD_16 (R324). -/
def execAsLd16 (core : Core) (f : FmtM) (s : State) : Host.Outcome State Fault Refusal := asLoad (.asLd16 core f) core f 2 s

/-- AS_LD_32 (R324). -/
def execAsLd32 (core : Core) (f : FmtM) (s : State) : Host.Outcome State Fault Refusal := asLoad (.asLd32 core f) core f 4 s

/-- AS_LD_64 (R324). -/
def execAsLd64 (core : Core) (f : FmtM) (s : State) : Host.Outcome State Fault Refusal := asLoad (.asLd64 core f) core f 8 s

/-- AS_ST_8 (R324). -/
def execAsSt8 (core : Core) (f : FmtM) (s : State) : Host.Outcome State Fault Refusal := asCmd (.asSt8 core f) core false (fun c => c.store f 1) s

/-- AS_ST_16 (R324). -/
def execAsSt16 (core : Core) (f : FmtM) (s : State) : Host.Outcome State Fault Refusal := asCmd (.asSt16 core f) core false (fun c => c.store f 2) s

/-- AS_ST_32 (R324). -/
def execAsSt32 (core : Core) (f : FmtM) (s : State) : Host.Outcome State Fault Refusal := asCmd (.asSt32 core f) core false (fun c => c.store f 4) s

/-- AS_ST_64 (R324). -/
def execAsSt64 (core : Core) (f : FmtM) (s : State) : Host.Outcome State Fault Refusal := asCmd (.asSt64 core f) core false (fun c => c.store f 8) s

/-- AS_ATOM_ADD (R324). -/
def execAsAtomAdd (core : Core) (f : FmtM) (s : State) : Host.Outcome State Fault Refusal :=
  asCmd (.asAtomAdd core f) core false (fun c => c.atom f (fun a b => a + b)) s

/-- AS_ATOM_MIN (R324). -/
def execAsAtomMin (core : Core) (f : FmtM) (s : State) : Host.Outcome State Fault Refusal :=
  asCmd (.asAtomMin core f) core false (fun c => c.atom f (fun a b => if b.slt a then b else a)) s

/-- AS_ATOM_MAX (R324). -/
def execAsAtomMax (core : Core) (f : FmtM) (s : State) : Host.Outcome State Fault Refusal :=
  asCmd (.asAtomMax core f) core false (fun c => c.atom f (fun a b => if a.slt b then b else a)) s

/-- AS_ATOM_AND (R324). -/
def execAsAtomAnd (core : Core) (f : FmtM) (s : State) : Host.Outcome State Fault Refusal :=
  asCmd (.asAtomAnd core f) core false (fun c => c.atom f (fun a b => a &&& b)) s

/-- AS_ATOM_OR (R324). -/
def execAsAtomOr (core : Core) (f : FmtM) (s : State) : Host.Outcome State Fault Refusal :=
  asCmd (.asAtomOr core f) core false (fun c => c.atom f (fun a b => a ||| b)) s

/-- AS_ATOM_XOR (R324). -/
def execAsAtomXor (core : Core) (f : FmtM) (s : State) : Host.Outcome State Fault Refusal :=
  asCmd (.asAtomXor core f) core false (fun c => c.atom f (fun a b => a ^^^ b)) s

/-! ## The row soft maximum (R322) -/

/-- Operands of a SOFTMAX: output, input and bitmap addresses, the count, formats. -/
structure SoftRow where
  out : Nat
  inp : Nat
  map : Nat
  n : Nat
  inFmt : Nat
  outFmt : Nat
  noMask : Bool
  deriving DecidableEq, Repr

/-- The operands from lane 0 and the second word. -/
def AsCtx.softRow (c : AsCtx) (f : FmtR) (w1 : Nat) : SoftRow :=
  { out := c.b.reg 0 f.d, inp := c.b.reg 0 f.a, map := c.b.reg 0 f.b, n := (sext 32 (c.b.reg 0 (nfld w1 0 6))).toNat,
    inFmt := nfld w1 6 5, outFmt := nfld w1 11 5, noMask := w1.testBit 16 }

/-- Bytes of an element. -/
def softBytes (fmt : Nat) : Nat := elemBits fmt / 8

/-- A row that does not lie in scratch, or is not aligned: the lane and the address of the fault. -/
def rowBad (base unit n perLane : Nat) : Option (Nat × Nat) :=
  if base % unit ≠ 0 then some (0, base)
  else if 2 ^ 18 < base + n * unit then
    let j := (2 ^ 18 - base + unit - 1) / unit
    some (j * perLane % 32, (base + j * unit) % 2 ^ 32)
  else none

/-- The fault of a SOFTMAX, with whether it is the output row's. -/
def SoftRow.bad (r : SoftRow) : Option (Nat × Nat × Bool) :=
  match rowBad r.inp (softBytes r.inFmt) r.n 1 with
  | some x => some (x.1, x.2, false)
  | none =>
    match (if r.noMask then none else rowBad r.map 4 (cdiv r.n 32) 0) with
    | some x => some (x.1, x.2, false)
    | none => (rowBad r.out (softBytes r.outFmt) r.n 1).map (fun x => (x.1, x.2, true))

/-- An unmasked entry: its index, operand and value. -/
structure Entry where
  j : Nat
  opd : Opd
  v : FVal
  deriving DecidableEq, Repr

/-- The unmasked entries in ascending order. -/
def AsCtx.entries (c : AsCtx) (r : SoftRow) : List Entry :=
  ((List.range r.n).filter (fun j => r.noMask || (c.b.scrRead (r.map + j / 8) 1).testBit (j % 8))).map (fun j =>
    let a := r.inp + softBytes r.inFmt * j
    let o : Opd := ⟨r.inFmt, c.b.scrRead a (softBytes r.inFmt), c.b.scrDer a⟩
    ⟨j, o, o.val⟩)

/-- What a SOFTMAX gathers with the outputs at the entries that take one. -/
structure SoftOut where
  outs : List (Nat × Nat)
  ieee : Nat := 0
  flags : Nat := 0
  evs : List AsEv := []
  deriving DecidableEq, Repr

/-- A plain OVERFLOW flag. -/
def ovfFlag (b : Bool) : Nat := if b then asOVERFLOW else 0

/-- The largest of the entries. -/
def entryMax (xs : List Entry) : FVal := xs.foldl (fun m x => m.max2 x.v) (.inf true)

/-- The sum of a lane's values in ascending order, in an accumulation format: the code and the OVERFLOW flag. -/
def laneSum (acc : Nat) : List Nat → Option Nat × Bool
  | [] => (none, false)
  | x :: xs =>
    let f := ffmtOf acc
    let start := (f.deliver false false none (fp32.decode x)).code
    let r := xs.foldl (fun (s : Nat × Bool) y =>
      let z := fAdd f false (f.decode s.1) (fp32.decode y)
      (z.code, s.2 || z.ovf)) (start, false)
    (some r.1, r.2)

/-- The ordinary soft maximum of a row of the last kind of R201 (R322 steps 2 to 5). -/
def softOrdinary (r : SoftRow) (xs : List Entry) : SoftOut :=
  let m := entryMax xs
  let es := xs.map (fun x =>
    let df := fSub fp32 false x.v m
    let e := fuEval 0x34 false df.code 0
    (x.j, e.code, df.ovf || e.ovf))
  let acc := accOf r.inFmt
  let sums := (List.range 32).map (fun l => laneSum acc ((es.filter (fun e => e.1 % 32 == l)).map (fun e => e.2.1)))
  let tree := laneTree 14 0 false (sums.map (fun s => s.1.map (fun x => if acc = 14 then x else toFp64 x))) {}
  let s := treeEnd false false (tree.1.getD 0)
  let ys := es.map (fun e =>
    let q := fuEval 0x30 false e.2.1 s.code
    let y := (ffmtOf r.outFmt).deliver false false none (fp32.decode q.code)
    (e.1, y.code, q.ovf || y.ovf))
  { outs := ys.map (fun y => (y.1, y.2.1)),
    flags := ovfFlag (es.any (fun e => e.2.2) || sums.any (fun s => s.2) || tree.2.ovf || s.ovf || ys.any (fun y => y.2.2)) }

/-- The ordinary row by its condition (R201). -/
def softLoose (r : SoftRow) (xs : List Entry) : SoftOut :=
  let f := ffmtOf r.outFmt
  if xs.any (fun x => x.v.isNaN) then
    { outs := (List.range r.n).map (fun j => (j, f.defNaN)), evs := xs.flatMap (fun x => opEvents (x.j % 32) [x.opd] { code := 0 }) }
  else
    let infs := xs.filter (fun x => x.v == .inf false)
    if !infs.isEmpty then
      let q := stickyDiv 1 infs.length 0
      let y := f.deliver false false none (.fin false q.1 q.2)
      { outs := infs.map (fun x => (x.j, y.code)), flags := asINF_ROW }
    else if xs.all (fun x => x.v == .inf true) then { outs := [], flags := asMASKED_ROW }
    else softOrdinary r xs

/-- A quotient as a correctly rounded IEEE division into binary32 (R202). -/
def strictDiv (x y : FVal) : NRes :=
  match firstNaN [x, y], x, y with
  | some n, _, _ => nanResult fp32 true [x, y] n
  | none, .fin a m e, .fin b k g =>
    if m = 0 then fp32.deliver false true none (.fin (a != b) 0 0)
    else
      let q := stickyDiv m k (e - g)
      fp32.deliver false true none (.fin (a != b) q.1 q.2)
  | none, _, _ => produced fp32 true 4

/-- The strict row (R202). -/
def softStrict (r : SoftRow) (xs : List Entry) : SoftOut :=
  match xs with
  | [] => { outs := [], flags := asMASKED_ROW }
  | x :: rest =>
    let f := ffmtOf r.outFmt
    let m0 : NRes := { code := widen (ffmtOf r.inFmt) x.opd.code }
    let m := rest.foldl (fun (s : NRes) y =>
      let z := fMax fp32 true (fp32.decode s.code) y.v
      { z with ieee := z.ieee ||| s.ieee }) m0
    let es := xs.map (fun x =>
      let df := fSub fp32 true x.v (fp32.decode m.code)
      let e := fuEval 0x34 true df.code 0
      (x, df, e))
    let acc := ffmtOf (accOf r.inFmt)
    let s : NRes := match es with
      | [] => { code := 0 }
      | e :: rest => rest.foldl (fun (s : NRes) y =>
          let z := fAdd acc true (acc.decode s.code) (fp32.decode y.2.2.code)
          { z with ieee := z.ieee ||| s.ieee, ovf := z.ovf || s.ovf }) (acc.deliver false true none (fp32.decode e.2.2.code))
    let ys := es.map (fun e =>
      let q := strictDiv (fp32.decode e.2.2.code) (acc.decode s.code)
      let y := f.deliver false true none (fp32.decode q.code)
      (e.1.j, y, q))
    let evs := es.flatMap (fun e => opEvents (e.1.j % 32) [e.1.opd] { code := 0 } ++
      (if e.2.1.cause = 0 then [] else
        [{ lane := e.1.j % 32, cause := e.2.1.cause, fmtA := e.1.opd.fmt, opA := e.1.opd.code, fmtB := 1, opB := m.code, two := true : AsEv }]))
    { outs := ys.map (fun y => (y.1, y.2.1.code)),
      ieee := es.foldl (fun n e => n ||| e.2.1.ieee ||| e.2.2.ieee) (ys.foldl (fun n y => n ||| y.2.1.ieee ||| y.2.2.ieee) (m.ieee ||| s.ieee)),
      flags := ovfFlag (es.any (fun e => e.2.1.ovf || e.2.2.ovf) || s.ovf || ys.any (fun y => y.2.1.ovf || y.2.2.ovf)), evs := evs }

/-- Write the output row: +0 where no output stands. -/
def SoftRow.write (r : SoftRow) (b : Bench) (outs : List (Nat × Nat)) : Bench :=
  let k := softBytes r.outFmt
  let full := outs.foldl (fun m o => mput 0 o.1 o.2 m) ([] : SMap Nat)
  let b := (List.range r.n).foldl (fun b j => (b.scrWrite (r.out + k * j) k (mget 0 j full)).setScrDer (r.out + k * j) false) b
  outs.foldl (fun b o => if isNaNOf r.outFmt o.2 then b.setScrDer (r.out + k * o.1) true else b) b

/-- SOFTMAX. -/
def AsCtx.softmax (c : AsCtx) (f : FmtR) (w1 : Nat) : AsRes :=
  let r := c.softRow f w1
  if r.n = 0 then c.goOn 2 c.b else
  match r.bad with
  | some (lane, a, store) => { c.goOn 2 c.b with stop := .fault 2 0 store lane a }
  | none =>
    let xs := c.entries r
    let o := if c.num.strict then softStrict r xs else softLoose r xs
    { c.goOn 2 (r.write c.b o.outs) with ieee := o.ieee, flags := o.flags, evs := o.evs }

/-- AS_SOFTMAX (R322). -/
def execAsSoftmax (core : Core) (f : FmtR) (word1 : W32) (s : State) : Host.Outcome State Fault Refusal :=
  asRow (.asSoftmax core f word1) core (fun c => c.softmax f word1.toNat) s

end Sys2Proof.Machine
end

