-- ==== Sys2Proof/Machine/Link.lean ====
section
/-! DEFINITION. The link layer (chapter 3): flits and link-level retry, markers, lanes and their fences, bring-up. A port that enters
DOWN loses its queued copies here (R137); what that does to operations and twins is added where the command's meaning ends. -/

namespace Sys2Proof.Machine

/-! ## Rows and states -/

/-- Set LN_PORT_STAT.STATE (R80). -/
def Dev.setPortState (d : Dev) (p st : Nat) : Dev := d.sf (aLN_PORT_STAT p) 0 3 st

/-- Add to a field of LN_PORT_CNT, which saturates at all ones. -/
def Dev.portCount (d : Dev) (p lo w n : Nat) : Dev :=
  d.sf (aLN_PORT_CNT p) lo w (min (2 ^ w - 1) (d.gf (aLN_PORT_CNT p) lo w + n))

/-- The link carries flits: QUALIFY or UP. -/
def Dev.carries (d : Dev) (p : Nat) : Bool := d.portState p == 5 || d.portState p == 6

/-- A LANE event of a port, or TWIN_LINK source 1 for the twin link (R443). -/
def Dev.laneEvent (d : Dev) (p src aux : Nat) : Dev := if p = 256 then d.report 3 1 256 aux else d.report 2 src p aux

/-! ## Fences and widths (R75, R76) -/

/-- The physical lane of a logical lane: as ALIGN has given it (R56), else as the board runs. -/
def Dev.physLane (d : Dev) (p i : Nat) : Nat :=
  match (d.port p).lmap[i]? with
  | some l => l
  | none => (d.lanesOf p).getD i 0

/-- A lane is fenced here. -/
def Dev.laneFenced (d : Dev) (l : Nat) : Bool := d.gb (aLN_LANE_STAT l) 3

/-- FENCE_MASK (R76, R81): bit i for logical lane i; for the twin link bit k for lanes 2k and 2k + 1. -/
def Dev.fenceMask (d : Dev) (p : Nat) : Nat :=
  (List.range (d.lanesOf p).length).foldl (fun m i =>
    if d.laneFenced (d.physLane p i) then m ||| 2 ^ (if p = 256 then i / 2 else i) else m) 0

/-- The subsets a port may use, widest first and lowest first (R76): LANES_USED and lanes. -/
def laneSubsets (lanes : Nat) : List (Nat × Nat) :=
  match lanes with
  | 16 => [(0xFF, 16), (0x0F, 8), (0xF0, 8)]
  | 8 => [(0xFF, 8), (0x0F, 4), (0xF0, 4), (0x03, 2), (0x0C, 2), (0x30, 2), (0xC0, 2)]
  | 4 => [(0x0F, 4), (0x03, 2), (0x0C, 2)]
  | 2 => [(0x03, 2)]
  | _ => []

/-- The subset a port uses under a mask of fences (R76). -/
def Dev.pickSubset (d : Dev) (p fences : Nat) : Option (Nat × Nat) :=
  (laneSubsets (d.lanesOf p).length).find? (fun x => x.1 &&& fences == 0)

/-- Set WIDTH_NOW, LANES_USED and FALLBACK. -/
def Dev.setSubset (d : Dev) (p : Nat) (x : Nat × Nat) : Dev :=
  let d := (d.sf (aLN_PORT_STAT p) 3 5 x.2).sf (aLN_PORT_STAT p) 8 8 x.1
  d.sb (aLN_PORT_STAT p) 16 (decide (x.2 < (d.lanesOf p).length))

/-- The logical lanes in use. -/
def Dev.lanesUsed (d : Dev) (p : Nat) : List Nat :=
  (List.range (d.lanesOf p).length).filter (fun i => (d.gf (aLN_PORT_STAT p) 8 8).testBit (if p = 256 then i / 2 else i))

/-! ## Control blocks (R54) -/

/-- A control block: its type, bytes 1 to 3, and their complement. -/
def ctlBlock (kind b1 b2 b3 : Nat) : Bytes :=
  let w := [BitVec.ofNat 8 kind, BitVec.ofNat 8 b1, BitVec.ofNat 8 b2, BitVec.ofNat 8 b3]
  w ++ w.map (fun b => ~~~ b)

/-- The complement check of a control block. -/
def blockIntact (b : Bytes) : Bool := b.length == 8 && b.drop 4 == (b.take 4).map (fun x => ~~~ x)

/-- The control block that a row acts by: the first that a lane delivers intact. -/
def rowOf (blocks : List Bytes) : Option Bytes := blocks.find? blockIntact

/-- The blocks of a TRAIN row (R54, R81) lane by lane: bytes 1 to 3, each with its complement. -/
def trainBlocks (stage fences acked : List (BitVec 8 × BitVec 8)) : List Bytes :=
  (stage.zip (fences.zip acked)).map (fun x => [0x78, x.1.1, x.2.1.1, x.2.2.1, 0x87, x.1.2, x.2.1.2, x.2.2.2])

/-- The physical lanes in use, in logical order. -/
def Dev.wireLanes (d : Dev) (p : Nat) : List Nat := (d.lanesUsed p).map (d.physLane p)

/-- Send a row: one control block on every lane in use (R54). -/
def Dev.sendRow (d : Dev) (p kind b1 b2 b3 : Nat) : Dev := d.emit (.row p (d.wireLanes p) (ctlBlock kind b1 b2 b3))

/-- A RETRY_REQ or RETRY_START row naming a sequence number. -/
def Dev.seqRow (d : Dev) (p kind n : Nat) : Dev := d.sendRow p kind (n % 256) (n / 256 % 16) 0

/-! ## DOWN (R137 to R140) -/

/-- The rest of the copies being sent goes as though sent, and no acknowledgement comes for those sent. -/
def Dev.dropTx (d : Dev) (p : Nat) : Dev :=
  let d := (d.port p).tx.foldl (fun d c => d.decCells c.id (c.pos / 256) (cdiv (c.pos + c.left.length) 256 - c.pos / 256)) d
  { d.modPort p (fun x => { x with tx := [] }) with fb := { d.fb with unacked := d.fb.unacked.filter (fun u => u.port != p) } }

/-- What a port that has entered DOWN leaves behind of the packets it was sending: a copy not yet sent whole is pruned as a queued one (R137,
R139); for an own group packet sent whole and not acknowledged, the members behind the port count as fenced off (DEDUCED, log 94: R376). -/
def Dev.cutSent (d : Dev) (p : Nat) : Dev :=
  let d := (d.port p).tx.foldl (fun d c => match d.pkt? c.id with
    | some b => d.cutNote p b.pkt b.src
    | none => d) d
  (d.fb.unacked.filter (fun u => u.port == p && u.src.isNone && u.pkt.mclass == 1)).foldl (fun d u => match d.grp? u.pkt.group with
    | some x => d.noteOwn u.pkt ((d.behindPort x p).map (d.memEp x))
    | none => d) d

/-- A port enters DOWN with a CAUSE (R82, R137). -/
def Dev.portDown (d : Dev) (p cause : Nat) : Dev :=
  let d := (d.setPortState p 7).sf (aLN_PORT_STAT p) 18 3 cause
  let d := ((d.modPort p (fun x => { x with retraining := false })).cutSent p).dropTx p
  let d := (d.fb.pkts.filter (fun b => b.copies.any (fun c => c.port == p))).foldl (fun d b => d.downCopy p b) d
  d.laneEvent p 1 0

/-! ## Bring-up (R79 to R83) -/

/-- Start the sequence numbers and the replay buffer afresh (R62): each receiver owes its whole partition, and no credit is held. -/
def Dev.freshPort (d : Dev) (p : Nat) : Dev :=
  let d := d.dropTx p
  let owe := (List.range 4).map (fun m => if p < 256 then d.reserve (8 * p + m) - d.usedBy (8 * p + m) else 0)
  d.modPort p (fun x => { x with txSeq := 0, replay := [], resend := 0, replays := 0, rxNext := 0, rxAny := false, discard := false,
                                 rxPart := [], frag := [], markTx := none, ackSent := 0xFFF, owe := owe, flits := 0,
                                 credit := [0, 0, 0, 0], peerSize := [0, 0, 0, 0], lmap := [], qualify := true })

/-- A marker word is a beat marker's (R65). -/
def isBeat (w : Nat) : Bool := w % 16 == 2

/-- What a port drops when its link trains again: the stages, the rest of a replay, DISCARD and a time marker in flight. Its replay buffer,
its sequence numbers, its credits and a beat marker in flight stay (R32, R62, R82). -/
def Port.again (x : Port) : Port :=
  { x with stage := 0, peerStage := none, aligned := false, resend := 0, replays := 0, discard := false, fragClean := false,
           frag := if isBeat (x.frag.headD 0) then x.frag else [],
           markTx := x.markTx.filter (fun m => isBeat m.1) }

/-- A TRAIN row of our stage (R81). -/
def Dev.sendTrain (d : Dev) (p : Nat) : Dev :=
  let x := d.port p
  let acked := if x.rxAny then (x.rxNext + 4095) % 4096 else 0xFFF
  d.sendRow p 0x78 (x.stage + acked / 256 * 16) (d.fenceMask p) (acked % 256)

/-- Move a port on from SIGNAL to LOCK and from LOCK to DESKEW where its lanes in use allow it (R80). -/
def Dev.advance (d : Dev) (p : Nat) : Dev :=
  let used := (d.lanesUsed p).map (d.physLane p)
  let d := if d.portState p = 1 ∧ used.all (fun l => !d.gb (aLN_LANE_STAT l) 0 && !d.gb (aLN_LANE_STAT l) 1) then
      used.foldl (fun d l => d.setLane l { d.lane l with lockAt := d.tm.cycle }) (d.setPortState p 2)
    else d
  if d.portState p = 2 ∧ used.all (fun l => d.gb (aLN_LANE_STAT l) 2) then
    (d.setPortState p 3).modPort p (fun x => { x with aligned := false })
  else d

/-- The power domains of a port's lanes (R15): its 64 fabric lanes', or the twin link's halves. -/
def portDomains (p : Nat) : List Nat := if p = 256 then [5, 13] else if p < 128 then [p / 32] else [8 + (p - 128) / 32]

/-- A port's lanes may leave OFF: the board table has been verified and the lanes are powered (R77, R473, R479). -/
def Dev.lanesReady (d : Dev) (p : Nat) : Bool :=
  !d.gb aBT_STAT 5 && decide (3 ≤ d.stage) && d.stage != 6 && (portDomains p).all (fun k => d.bt.domains.contains k)

/-- Start bring-up from SIGNAL at the widest width this device's fences leave; each lane starts with its preferred alternative (R79).
every bring-up passes through QUALIFY (R82, R84). DESIGN CHOICE (log 92): a preferred alternative that is not VALID is used all the same. -/
def Dev.bringUp (d : Dev) (p : Nat) : Dev :=
  if !d.lanesReady p then d else
  let d := (d.lanesOf p).foldl (fun d l => (d.sf (aLN_LANE_STAT l) 4 2 (d.pref l)).setLane l { d.lane l with failed := [] }) d
  let now := d.tm.cycle
  let d := (d.wr (aLN_PORT_STAT p) 1).modPort p (fun x =>
    { x.again with peerFence := 0, qualify := true, bringAt := now })
  match d.pickSubset p (d.fenceMask p) with
  | none => d.portDown p 4
  | some x => (d.setSubset p x).advance p

/-- A port leaves UP or QUALIFY and retrains from DESKEW, keeping its replay buffer and sequence numbers (R82). -/
def Dev.retrain (d : Dev) (p : Nat) : Dev :=
  let up := d.portState p == 6
  (d.setPortState p 3).modPort p (fun x => { x.again with
    bringAt := if up then d.tm.cycle else x.bringAt, retraining := x.retraining || up })

/-- A fenced lane's port falls back, or goes DOWN with NO_SUBSET (R76). -/
def Dev.fallBack (d : Dev) (p : Nat) : Dev :=
  let st := d.portState p
  if st = 0 ∨ st = 7 then d else
  match d.pickSubset p (d.fenceMask p ||| (d.port p).peerFence) with
  | none => d.portDown p 4
  | some x => if st < 3 then (d.setSubset p x).advance p else (d.retrain p).setSubset p x

/-- Set a lane's charged retries, and CHARGED, which counts those of the window that ends with a period (R74, R85). -/
def Dev.setCharges (d : Dev) (l period : Nat) (cs : SMap Nat) : Dev :=
  let win := 2 ^ d.gf aLN_FENCE_CFG 16 5
  let cs := cs.filter (fun c => decide (period < c.1 + win))
  (d.setLane l { d.lane l with charges := cs }).sf (aLN_LANE_STAT l) 16 16 (min 0xFFFF (cs.foldl (fun n c => n + c.2) 0))

/-- Fence a lane (R75). -/
def Dev.fenceLane (d : Dev) (p l : Nat) : Dev :=
  if d.laneFenced l then d else (((d.sb (aLN_LANE_STAT l) 3 true).setCharges l 0 []).laneEvent p 0 l).fallBack p

/-- A lane moves to its next valid alternative and its port returns to SIGNAL; with none left the lane is fenced (R83). -/
def Dev.nextAlternative (d : Dev) (p l : Nat) : Dev :=
  let x := d.lane l
  let cur := d.gf (aLN_LANE_STAT l) 4 2
  let failed := cur :: x.failed
  match x.nextAlt cur (fun a => !failed.contains a) with
  | none => (d.setLane l { x with failed := failed }).fenceLane p l
  | some a =>
    let d := ((d.sf (aLN_LANE_STAT l) 4 2 a).setLane l { x with failed := failed }).setCharges l 0 []
    let d := (d.setPortState p 1).modPort p (fun y => { y.again with qualify := true })
    d.advance p

/-! ## Replay (R68 to R72) -/

/-- The flits of the replay buffer from an index on are sent again: RETRIES, the level-1 event, and RETRIED for every operation of which
such a flit carries packet bytes (R72). -/
def Dev.replayed (d : Dev) (p i : Nat) : Dev :=
  let x := d.port p
  let seqs := (x.replay.drop i).map (fun f => f.seq)
  let d := d.portCount p 0 16 1
  let d := if p = 256 then d.report 3 0 256 0 else d.report 1 0 p 0
  let d := (d.fb.unacked.filter (fun u => u.port == p && seqs.contains u.seq)).foldl (fun d u => d.noteRetried u.pkt) d
  (x.tx.filter (fun c => c.seq.any seqs.contains)).foldl (fun d c => match d.pkt? c.id with
    | some b => d.noteRetried b.pkt
    | none => d) d

/-- Replay from an index of the replay buffer, or retrain after MAX_REPLAY replays without an advance of ACK (R70 to R72). -/
def Dev.replayFrom (d : Dev) (p i : Nat) : Dev :=
  let x := d.port p
  if orOne (d.gf aLN_RETRY_CFG 8 4) ≤ x.replays then d.retrain p else
  let d := d.replayed p i
  let n := (x.replay.getD i ⟨0, [], 0⟩).seq
  let d := d.modPort p (fun x => { x with resend := x.replay.length - i, replays := x.replays + 1, ackFrom := d.tm.cycle })
  d.seqRow p 0x66 n

/-- The index in the replay buffer of a sequence number. -/
def Port.replayIndex (x : Port) (n : Nat) : Option Nat := (List.range x.replay.length).find? (fun i => (x.replay.getD i ⟨0, [], 0⟩).seq == n % 4096)

/-- An ACK covers the flits up to a sequence number: they leave the replay buffer (R68). -/
def Dev.ackUpTo (d : Dev) (p n : Nat) : Dev :=
  let x := d.port p
  match x.replayIndex n with
  | none => d
  | some i =>
    let gone := (x.replay.take (i + 1)).map (fun f => f.seq)
    let d := d.setPort p { x with replay := x.replay.drop (i + 1), replays := 0, ackFrom := d.tm.cycle,
                                  resend := min x.resend (x.replay.length - (i + 1)) }
    { d with fb := { d.fb with unacked := d.fb.unacked.filter (fun u => u.port != p || !gone.contains u.seq) } }

/-- RETRY_REQ (R70): a number outside the replay buffer counts in BAD_CTRL. -/
def Dev.retryReq (d : Dev) (p n : Nat) : Dev :=
  match (d.port p).replayIndex n with
  | none => d.portCount p 24 8 1
  | some i => d.replayFrom p i

/-- RETRY_START (R69): it ends DISCARD where it names the number expected; a marker in flight gives no measurement (R67). -/
def Dev.retryStart (d : Dev) (p n : Nat) : Dev :=
  d.modPort p (fun x => { x with fragClean := false, discard := x.discard && x.rxNext != n % 4096 })

/-- RETRY_REQ_TIMEOUT (R69). -/
def execRetryReqTimeout (p : Nat) (s : State) : Host.Outcome State Fault Refusal :=
  devStep (fun d =>
    let x := d.port p
    d.when (d.live && d.carries p && x.discard && decide (orOne (d.gf aLN_RETRY_CFG 12 8) * 64 ≤ d.tm.cycle - x.reqAt)) (fun d =>
      (d.modPort p (fun x => { x with reqAt := d.tm.cycle })).seqRow p 0x55 x.rxNext)) s

/-- ACK_TIMEOUT (R70). -/
def execAckTimeout (p : Nat) (s : State) : Host.Outcome State Fault Refusal :=
  devStep (fun d =>
    let x := d.port p
    d.when (d.live && d.carries p && !x.replay.isEmpty && decide (orOne (d.gf aLN_RETRY_CFG 0 8) * 64 ≤ d.tm.cycle - x.ackFrom))
      (fun d => d.replayFrom p 0)) s

/-! ## Markers (R65 to R67) -/

/-- The 126-bit word of a time marker that begins now, with its number. -/
def Dev.timeWord (d : Dev) (p : Nat) : Nat :=
  let x := d.port p
  let st := d.gf aPT_STAT 0 3
  let hold := (st == 4 || d.gb aPT_STAT 3).toNat
  let delta := match x.echo with
    | some e => (d.now - e.2).toNat % 2 ^ 32
    | none => 0
  1 + d.gf aPT_STAT 4 4 * 2 ^ 6 + hold * 2 ^ 10 + x.mnum % 256 * 2 ^ 12 + (x.echo.map (fun e => e.1)).getD 0 % 256 * 2 ^ 20
    + x.echo.isSome.toNat * 2 ^ 28 + delta * 2 ^ 30 + d.now.toNat * 2 ^ 62

/-- What the next new flit's CREDIT byte holds (R62, R65, R67), with whether it says anything: a beat marker comes first and
abandons a time marker in flight. DESIGN CHOICE (log 92): a beat marker in flight is finished first. -/
def Dev.creditByte (d : Dev) (p : Nat) : Nat × Bool × Dev :=
  let x := d.port p
  let fragByte := fun (w f : Nat) => 128 + (if f = 0 then 64 else 0) + nfld w (6 * f) 6
  let inBeat := x.markTx.any (fun m => isBeat m.1)
  match (if inBeat then none else x.beatTx.head?) with
  | some w => (fragByte w 0, true, d.setPort p { x with markTx := some (w, 1), beatTx := x.beatTx.drop 1 })
  | none =>
    match x.markTx with
    | some (w, f) => (fragByte w f, true, d.setPort p { x with markTx := if f = 20 then none else some (w, f + 1) })
    | none =>
      if x.markDue then
        let w := d.timeWord p
        (fragByte w 0, true, d.setPort p { x with markTx := some (w, 1), markDue := false, mnum := (x.mnum + 1) % 256,
                                                  sent := mput 0 (x.mnum % 256) d.now x.sent })
      else match (List.range 4).find? (fun m => x.owe.getD m 0 != 0) with
        | some m =>
          let n := min 31 (x.owe.getD m 0)
          (m * 32 + n, true, d.setPort p { x with owe := lmod m (fun k => k - n) x.owe })
        | none => (0, false, d)

/-- TIME_MARKER_SEND (R67): each 2^INTERVAL ticks a port in UP has a time marker to send. -/
def execTimeMarkerSend (p : Nat) (s : State) : Host.Outcome State Fault Refusal :=
  devStep (fun d => d.when (d.live && d.portState p == 6 && decide (Int.ofNat (2 ^ d.gf aPT_MARK 0 5) ≤ d.since (d.port p).lastMark))
    (fun d => d.modPort p (fun x => { x with markDue := true, lastMark := d.now }))) s

/-- PT_ASYM of a port, signed. -/
def Dev.asym (d : Dev) (p : Nat) : Int := sext 16 (d.gf (aPT_ASYM p) 0 16)

/-- The error of our count against the peer by a time marker (R66), when our own marker it echoes is known. -/
def Dev.markerError (d : Dev) (p : Nat) (m : RxMarker) : Option Int :=
  let w := m.word
  if !w.testBit 28 then none else
  match mget? (nfld w 20 8) (d.port p).sent with
  | none => none
  | some t1 =>
    let rtt := (m.stamp - t1).toInt - Int.ofNat (nfld w 30 32)
    let delay := rtt / 2 + d.asym p
    some ((m.stamp - (BitVec.ofNat 64 (nfld w 62 64) + BitVec.ofInt 64 delay)).toInt)

/-- TIME_MARKER (R66): the first whole marker of a port, a time marker. A clean one is echoed, and measured when the port is the
selected source (R22, R24, R28). -/
def execTimeMarker (p : Nat) (s : State) : Host.Outcome State Fault Refusal :=
  devStep (fun d => d.when d.live (fun d =>
    match (d.port p).markerIn with
    | [] => d
    | m :: rest =>
      if m.word % 16 ≠ 1 then d else
      let d := d.modPort p (fun x => { x with markerIn := rest, echo := if m.clean then some (nfld m.word 12 8, m.stamp) else x.echo })
      let src := d.gf aPT_CTRL 0 3
      let chosen := (src == 2 && p == d.gf aPT_CTRL 8 8) || (src == 3 && p == 256)
      if !(chosen && m.clean) then d else
      let d := { d with tm := { d.tm with quiet := 0 } }
      match d.markerError p m with
      | none => d
      | some e => d.measure e (nfld m.word 6 4) (m.word.testBit 10))) s

/-! ## Sending flits (R60 to R68) -/

/-- Take bytes of the copies being sent for one flit: the bytes, the copies after, and what happened to each in turn (packet number,
first byte taken, bytes taken, whether it is now whole). -/
def takeBytes : Nat → List TxCopy → Bytes × List TxCopy × List (Nat × Nat × Nat × Bool)
  | _, [] => ([], [], [])
  | room, c :: cs =>
    if room = 0 then ([], c :: cs, []) else
    let n := min room c.left.length
    let whole := decide (n = c.left.length)
    let c' : TxCopy := { c with left := c.left.drop n, pos := c.pos + n }
    if whole then
      let r := takeBytes (room - n) cs
      (c.left.take n ++ r.1, r.2.1, (c.id, c.pos, n, true) :: r.2.2)
    else (c.left.take n, c' :: cs, [(c.id, c.pos, n, false)])

/-- Cells whose last byte of this copy has entered the replay buffer are decremented (R122); a whole packet waits for its ACK. -/
def Dev.sentBytes (d : Dev) (p seq : Nat) (x : Nat × Nat × Nat × Bool) : Dev :=
  let id := x.1
  let fin := x.2.1 + x.2.2.1
  let first := x.2.1 / 256
  let last := if x.2.2.2 then cdiv fin 256 else fin / 256
  let d := if x.2.2.2 then
      match d.pkt? id with
      | some b => { d with fb := { d.fb with unacked := d.fb.unacked ++ [⟨id, p, seq, b.src, { b.pkt with body := [] }⟩] } }
      | none => d
    else d
  d.decCells id first (last - first)

/-- The trailer block of a flit (R61). -/
def flitTrailer (data : Bytes) (seq ack credit : Nat) : Bytes :=
  let hi := toLE 4 (seq % 4096 + ack % 4096 * 2 ^ 12 + credit % 256 * 2 ^ 24)
  toLE 4 (crc32 (data ++ hi)) ++ hi

/-- The 16 blocks of a flit (R60): block b goes on logical lane b mod w, the trailer with sync 0b10. -/
def Dev.flitBlocks (d : Dev) (p : Nat) (data trailer : Bytes) : List (Nat × Nat × Bytes) :=
  let lanes := d.wireLanes p
  let bs := chunks 8 data ++ [trailer]
  (List.range 16).map (fun b => (lanes.getD (b % lanes.length) 0, if b = 15 then 2 else 1, bs.getD b []))

/-- Send one flit's bits with the ACK of now. -/
def Dev.putFlit (d : Dev) (p : Nat) (f : SentFlit) : Dev :=
  let x := d.port p
  let ack := (x.rxNext + 4095) % 4096
  (d.modPort p (fun x => { x with ackSent := ack, flits := x.flits + 1 })).emit
    (.flit p (d.flitBlocks p f.data (flitTrailer f.data f.seq ack f.credit)))

/-- FLIT_SEND (R68): a replayed flit if any is due, else a new one when there is something to say (R64) or the link qualifies. A port of w
lanes sends at most 1,023 w flits between two ALIGN rows (R51, R55). -/
def Dev.flitSend (d : Dev) (p : Nat) : Dev :=
  let x := d.port p
  if 1023 * (d.lanesUsed p).length ≤ x.flits then d
  else if 0 < x.resend then
    let f := x.replay.getD (x.replay.length - x.resend) ⟨0, [], 0⟩
    (d.modPort p (fun x => { x with resend := x.resend - 1 })).putFlit p f
  else if 4095 ≤ x.replay.length then d
  else
    let r := if d.portState p = 6 then takeBytes 120 x.tx else ([], x.tx, [])
    let c := d.creditByte p
    let ackNew := decide ((x.rxNext + 4095) % 4096 ≠ x.ackSent)
    if r.1.isEmpty && !c.2.1 && !ackNew && d.portState p == 6 then d else
    let f : SentFlit := ⟨x.txSeq, padTo 120 r.1, c.1⟩
    let d := c.2.2.modPort p (fun y => { y with tx := r.2.1.map (fun c => if r.2.2.any (fun z => z.1 == c.id && !z.2.2.2) then { c with seq := some y.txSeq } else c), txSeq := (y.txSeq + 1) % 4096, replay := y.replay ++ [f],
                                                ackFrom := if y.replay.isEmpty then d.tm.cycle else y.ackFrom })
    (r.2.2.foldl (fun d z => d.sentBytes p x.txSeq z) d).putFlit p f

/-- FLIT_SEND (R68). -/
def execFlitSend (p : Nat) (s : State) : Host.Outcome State Fault Refusal :=
  devStep (fun d => d.when (d.live && d.carries p) (fun d => d.flitSend p)) s

/-! ## Receiving flits (R60 to R69) -/

/-- Take one 8-byte block of a flit that came at `time` (R63, R167); `none` where it is neither padding nor a header with FRAME 0x5A. -/
def takeBlock (x : Port) (blk : Bytes) (time : W64) (replayed : Bool) : Option Port :=
  if x.rxPart.isEmpty ∧ blk.all (fun b => b == 0) then some x
  else if x.rxPart.isEmpty ∧ blk.headD 0 ≠ 0x5A then none
  else
    let part := x.rxPart ++ blk
    let rep := (!x.rxPart.isEmpty && x.rxPartReplayed) || replayed
    let hdr := if part.length = 32 then time else x.rxHdrTime
    if 32 ≤ part.length ∧ part.length = (Pkt.ofWire part).size then
      some { x with rxPart := [], rxHdrTime := hdr, rxPartReplayed := false, rxWhole := x.rxWhole ++ [⟨Pkt.ofWire part, hdr, rep⟩] }
    else some { x with rxPart := part, rxHdrTime := hdr, rxPartReplayed := rep }

/-- Take the data blocks of a flit in order. -/
def takeBlocks (replayed : Bool) : List RxBlock → Port → Option Port
  | [], x => some x
  | b :: bs, x => match takeBlock x b.data b.time replayed with
    | none => none
    | some y => takeBlocks replayed bs y

/-- The blocks of a flit in their order (R56, R60): block b is the next one of logical lane b mod w. -/
def Dev.flitOrder (d : Dev) (p : Nat) (f : Flit) : List RxBlock :=
  let lanes := d.wireLanes p
  (List.range 16).filterMap (fun b =>
    (f.blocks.filter (fun x => x.lane == lanes.getD (b % lanes.length) 0))[b / lanes.length]?)

/-- The sync headers stand as R60 asks, every block is whole, and the CRC is good (R61). -/
def flitGood (bs : List RxBlock) : Bool :=
  bs.map (fun b => b.sync) == List.replicate 15 1 ++ [2] && bs.all (fun b => b.data.length == 8) &&
  (let data := (bs.take 15).flatMap (fun b => b.data)
   let trailer := (bs.drop 15).flatMap (fun b => b.data)
   crc32 (data ++ trailer.drop 4) == leNat trailer % 2 ^ 32)

/-- Take the CREDIT byte of an accepted flit (R62, R65). A marker of a reserved KIND is ignored. -/
def takeCredit (x : Port) (c : Nat) (stamp : W64) (replayed : Bool) : Port :=
  if c < 128 then
    let m := c / 32
    let n := c % 32
    { x with credit := lmod m (fun k => k + n) x.credit, peerSize := lmod m (fun k => max k (x.credit.getD m 0 + n)) x.peerSize }
  else
    let x := if c.testBit 6 then { x with frag := [c % 64], fragStamp := stamp, fragClean := !replayed }
      else if x.frag.isEmpty then x
      else { x with frag := x.frag ++ [c % 64], fragClean := x.fragClean && !replayed }
    if x.frag.length = 21 then
      let w := x.frag.foldr (fun b n => b + 64 * n) 0
      let x := { x with frag := [] }
      if w % 16 = 1 ∨ w % 16 = 2 then { x with markerIn := x.markerIn ++ [⟨w, x.fragStamp, x.fragClean⟩] } else x
    else x

/-- A flit that fails (R69): the receiver discards until a RETRY_START, and asks for one. -/
def Dev.flitFails (d : Dev) (p : Nat) : Dev :=
  let x := d.port p
  (d.setPort p { x with discard := true, reqAt := d.tm.cycle, fragClean := false, periodRetries := x.periodRetries + 1 }).seqRow
    p 0x55 x.rxNext

/-- FLIT_RECEIVE (R69). -/
def Dev.flitReceive (d : Dev) (p : Nat) (f : Flit) : Dev :=
  let x := d.port p
  let bs := d.flitOrder p f
  let t := leNat ((bs.drop 15).flatMap (fun b => b.data))
  let stamp := ((bs.drop 15).map (fun b => b.time)).headD 0
  let seq := nfld t 32 12
  if x.discard then d
  else if !flitGood bs then d.flitFails p
  else if seq ≠ x.rxNext then
    if (x.rxNext + 4096 - seq) % 4096 ≤ 2047 then d else d.flitFails p
  else
    match takeBlocks f.again (bs.take 15) x with
    | none => d.flitFails p
    | some y =>
      let y := takeCredit y (nfld t 56 8) stamp f.again
      let y := { y with rxNext := (x.rxNext + 1) % 4096, rxAny := true,
                        qualLeft := if d.portState p = 5 then x.qualLeft - 1 else x.qualLeft }
      (d.setPort p y).ackUpTo p (nfld t 44 12)

/-! ## ALIGN and TRAIN (R55 to R57, R74 to R76, R81) -/

/-- ALIGN_SEND (R55): the ALIGN row of a period of 16,384 blocks, 8.192 µs. -/
def execAlignSend (p : Nat) (bips : List (BitVec 8)) (s : State) : Host.Outcome State Fault Refusal :=
  devStep (fun d =>
    let st := d.portState p
    d.when (d.live && d.portExists p && st != 0 && st != 7 && decide (8192 ≤ d.tm.cycle - (d.port p).alignSent)) (fun d =>
      let w := (d.lanesOf p).length
      let d := d.modPort p (fun x => { x with alignSent := d.tm.cycle, flits := 0 })
      d.emit (.align p ((d.lanesUsed p).map (fun i => (d.physLane p i, ctlBlock 0xC3 i (bips.getD i 0).toNat w)))))) s

/-- The logical lane an ALIGN block names, the BIP-8 it carries and the width it names (R54). -/
def alignLogical (r : LaneAlign) : Nat := rdLE r.block 1 1
def alignBip (r : LaneAlign) : Byte := r.block.getD 2 0
def alignWidth (r : LaneAlign) : Nat := bfld r.block 3 0 5

/-- Charge a period's retries to a lane (R74). Those charged since QUALIFY was entered move it at THRESH to its next alternative (R83),
those of the window fence it (R75); at half of THRESH the Surveyor wants the next alternative (R465). `qual` is the period in which
QUALIFY was entered, while the port is in it. -/
def Dev.chargeLane (d : Dev) (p l period n : Nat) (qual : Option Nat) : Dev :=
  let x := d.lane l
  let d := (d.setLane l { x with quiet := 0 }).setCharges l period (mput 0 period (mget 0 period x.charges + n) x.charges)
  let x := d.lane l
  let sum := fun (cs : SMap Nat) => cs.foldl (fun n c => n + c.2) 0
  let total := sum x.charges
  let thresh := orOne (d.gf aLN_FENCE_CFG 0 16)
  let d := if thresh ≤ 2 * total then d.setLane l { x with wanted := match x.nextAlt (d.pref l) (fun _ => true) with
      | some a => some a
      | none => x.wanted } else d
  if qual.any (fun q => decide (thresh ≤ sum (x.charges.filter (fun c => decide (q ≤ c.1))))) then d.nextAlternative p l
  else if thresh ≤ total then d.fenceLane p l
  else d

/-- An ALIGN row of a port that carries flits (R74): the retries of the period are charged to each lane whose BIP-8 disagreed. -/
def Dev.alignCharge (d : Dev) (p : Nat) (rows : List LaneAlign) : Dev :=
  let x := d.port p
  let bad := rows.filter (fun r => alignBip r != r.bipSeen && (d.lanesOf p).contains r.lane)
  let qual := if d.portState p = 5 then some x.qualFrom else none
  let d := d.setPort p { x with periodRetries := 0, period := x.period + 1 }
  let d := (d.lanesOf p).foldl (fun d l => d.setCharges l x.period (d.lane l).charges) d
  if x.periodRetries = 0 then d
  else if bad.isEmpty then d.portCount p 16 8 x.periodRetries
  else bad.foldl (fun d r => d.chargeLane p r.lane x.period x.periodRetries qual) d

/-- An ALIGN row in DESKEW (R56, R57): width, order and skew. -/
def Dev.alignDeskew (d : Dev) (p : Nat) (rows : List LaneAlign) : Dev :=
  let w := (d.lanesOf p).length
  let lmap := (List.range w).map (fun i => match rows.find? (fun r => alignLogical r == i) with
    | some r => r.lane
    | none => d.physLane p i)
  if rows.any (fun r => alignWidth r != w) then d.portDown p 3
  else if rows.any (fun r => decide (128 < r.skew)) then (d.sb (aLN_PORT_STAT p) 17 true).portDown p 2
  else if (d.lanesUsed p).all (fun i => rows.any (fun r => alignLogical r == i)) then
    ((d.modPort p (fun x => { x with lmap := lmap, aligned := true, stage := 0, peerStage := none })).setPortState p 4).sendTrain p
  else d

/-- ALIGN (R54, R56, R57, R74): a row as the lanes of the port deliver it; a block that fails its check is discarded. -/
def Dev.alignRow (d : Dev) (p : Nat) (rows : List LaneAlign) : Dev :=
  let rows := rows.filter (fun r => blockIntact r.block && r.block.headD 0 == 0xC3)
  if d.carries p then d.alignCharge p rows else if d.portState p = 3 then d.alignDeskew p rows else d

/-- A port reaches UP (R82). -/
def Dev.portUp (d : Dev) (p : Nat) : Dev :=
  ((d.setPortState p 6).sb (aLN_PORT_STAT p) 17 false).modPort p (fun x => { x with qualify := false, retraining := false, lastMark := d.now })

/-- The transmitter resumes after STAGE 2 with the flit after the peer's ACKED (R81), and the port enters QUALIFY or UP (R82). -/
def Dev.trainDone (d : Dev) (p acked : Nat) : Dev :=
  let d := d.ackUpTo p acked
  let d := if (d.port p).replay.isEmpty then d else d.replayed p 0
  let d := d.modPort p (fun x => { x with resend := x.replay.length, ackFrom := d.tm.cycle, qualFrom := x.period,
                                          qualLeft := 2 ^ max 16 (d.gf aLN_TRAIN_CFG 0 5) })
  if (d.port p).qualify then d.setPortState p 5 else d.portUp p

/-- TRAIN (R76, R81): a row of the peer. A port in UP or QUALIFY that sees STAGE 0 retrains with its peer, on the subset that the fences
of both leave; the later stages end the exchange that brought it up. -/
def Dev.trainRow (d : Dev) (p stage fences acked : Nat) : Dev :=
  if d.carries p then
    if stage ≠ 0 then d else
    let d := (d.retrain p).modPort p (fun x => { x with peerFence := fences })
    match d.pickSubset p (d.fenceMask p ||| fences) with
    | none => d.portDown p 4
    | some sub => d.setSubset p sub
  else if d.portState p ≠ 4 then d
  else
    let d := d.modPort p (fun x => { x with peerStage := some stage, peerFence := fences, peerAcked := acked })
    match d.pickSubset p (d.fenceMask p ||| fences) with
    | none => d.portDown p 4
    | some sub =>
      let d := d.setSubset p sub
      let mine := (d.port p).stage
      let next := if stage = 0 then max mine 1 else 2
      if next = mine then d else
      let d := (d.modPort p (fun x => { x with stage := next })).sendTrain p
      if next = 2 then d.trainDone p acked else d

/-- A row reaches the receiver of a port (R54): `blocks` are what its lanes deliver of it. One of no known type counts in BAD_CTRL. ALIGN
rows come by ALIGN, and IDLE rows say nothing. -/
def Dev.rowTaken (d : Dev) (p : Nat) (blocks : List Bytes) : Dev :=
  let st := d.portState p
  if st < 3 ∨ st = 7 then d else
  match rowOf blocks with
  | none => d
  | some b =>
    let n := rdLE b 1 2 % 4096
    match rdLE b 0 1 with
    | 0x1E => d
    | 0xC3 => d
    | 0x55 => if d.carries p then d.retryReq p n else d
    | 0x66 => if d.carries p then d.retryStart p n else d
    | 0x78 => d.trainRow p (bfld b 1 0 3) (rdLE b 2 1) (rdLE b 3 1 + 256 * bfld b 1 4 4)
    | _ => d.portCount p 24 8 1

/-- QUALIFY_DONE (R82). -/
def execQualifyDone (p : Nat) (s : State) : Host.Outcome State Fault Refusal :=
  devStep (fun d => d.when (d.live && d.portState p == 5 && (d.port p).qualLeft == 0) (fun d => d.portUp p)) s

/-- ELASTIC_IDLE_ADJUST (R59). -/
def execElasticIdleAdjust (p : Nat) (add : Bool) (s : State) : Host.Outcome State Fault Refusal :=
  devStep (fun d => d.when (d.live && d.portExists p && d.portState p != 0) (fun d =>
    d.modPort p (fun x => { x with elastic := if add then x.elastic + 1 else x.elastic - 1 }))) s

/-! ## Detectors (R53, R73) -/

/-- A loss begins on a lane: `bit` is LOS (0) or LOL (1). -/
def Dev.laneLoss (d : Dev) (l bit : Nat) : Dev :=
  let d := (d.sb (aLN_LANE_STAT l) bit true).sb (aLN_LANE_STAT l) (6 + bit) true
  d.setLane l { d.lane l with lossSince := some ((d.lane l).lossSince.getD d.tm.cycle) }

/-- A lane with neither loss: the loss-hold period ends, and its port may move on. -/
def Dev.laneClear (d : Dev) (l : Nat) : Dev :=
  if d.gb (aLN_LANE_STAT l) 0 || d.gb (aLN_LANE_STAT l) 1 then d else
  let d := d.setLane l { d.lane l with lossSince := none }
  match d.portOfLane l with
  | some p => d.advance p
  | none => d

/-- LOSS_OF_SIGNAL (R73). -/
def execLossOfSignal (l : Nat) (s : State) : Host.Outcome State Fault Refusal :=
  devStep (fun d => d.when (d.live && decide (l < 528)) (fun d => d.laneLoss l 0)) s

/-- LOSS_OF_LOCK (R73). -/
def execLossOfLock (l : Nat) (s : State) : Host.Outcome State Fault Refusal :=
  devStep (fun d => d.when (d.live && decide (l < 528)) (fun d => d.laneLoss l 1)) s

/-- BLOCK_LOCK_LOST (R53): a loss of lock. -/
def execBlockLockLost (l : Nat) (s : State) : Host.Outcome State Fault Refusal :=
  devStep (fun d => d.when (d.live && decide (l < 528)) (fun d => (d.sb (aLN_LANE_STAT l) 2 false).laneLoss l 1)) s

/-- BLOCK_LOCK_GAINED (R53). -/
def execBlockLockGained (l : Nat) (s : State) : Host.Outcome State Fault Refusal :=
  devStep (fun d => d.when (d.live && decide (l < 528)) (fun d =>
    let d := ((d.sb (aLN_LANE_STAT l) 2 true).sb (aLN_LANE_STAT l) 1 false).laneClear l
    match d.portOfLane l with
    | some p => d.advance p
    | none => d)) s

/-- SIGNAL_AND_LOCK_REGAINED (R80). -/
def execSignalAndLockRegained (l : Nat) (s : State) : Host.Outcome State Fault Refusal :=
  devStep (fun d => d.when (d.live && decide (l < 528)) (fun d =>
    ((d.sb (aLN_LANE_STAT l) 0 false).sb (aLN_LANE_STAT l) 1 false).laneClear l)) s

/-- The loss on a lane of a port in service has lasted 2^LOSS_HOLD µs (R75). -/
def Dev.lossHeld (d : Dev) (l : Nat) : Bool :=
  match (d.lane l).lossSince with
  | some c => decide (2 ^ d.gf aLN_FENCE_CFG 24 4 * 1000 ≤ d.tm.cycle - c)
  | none => false

/-- LANE_LOSS_FENCE (R75). A lane of a group that is OFF reports the port it would have at X2 (log 30). -/
def Dev.laneLossFence (d : Dev) (l : Nat) : Dev :=
  if d.lossHeld l then d.fenceLane ((d.portOfLane l).getD (l / 8 * 4 + l % 8 / 2)) l else d

/-- LANE_LOCK_TIMEOUT (R83): no block lock 1 ms after the lane entered LOCK. -/
def Dev.laneLockTimeout (d : Dev) (l : Nat) : Dev :=
  match d.portOfLane l with
  | some p =>
    if d.portState p = 2 ∧ (d.wireLanes p).contains l ∧ !d.gb (aLN_LANE_STAT l) 2 ∧ 1000000 ≤ d.tm.cycle - (d.lane l).lockAt then d.nextAlternative p l else d
  | none => d

/-- BRINGUP_TIMEOUT (R82): TRAIN_TMO ms without reaching UP. -/
def Dev.bringupTimeout (d : Dev) (p : Nat) : Dev :=
  let st := d.portState p
  if 1 ≤ st ∧ st ≤ 5 ∧ orOne (d.gf aLN_TRAIN_CFG 8 8) * 1000000 ≤ d.tm.cycle - (d.port p).bringAt then d.portDown p 1 else d

/-! ## Writes (R84, R85) -/

/-- The four port numbers of a lane group. -/
def groupPorts (g : Nat) : List Nat := (List.range 4).map (fun k => 4 * g + k)

/-- Every port of a lane group whose sorter is lost stands DOWN with CAUSE 6 (R16). -/
def Dev.groupLost (d : Dev) (g : Nat) : Dev :=
  (groupPorts g).foldl (fun d p => if d.portExists p then d.wr (aLN_PORT_STAT p) (BitVec.ofNat 32 (7 + 6 * 2 ^ 18)) else d) d

/-- Bring up every port of a lane group afresh; one whose sorter is lost stays DOWN (R16). -/
def Dev.bringGroup (d : Dev) (g : Nat) : Dev :=
  if d.fb.sortLost.contains g then d.groupLost g
  else (groupPorts g).foldl (fun d p => if d.portExists p then (d.freshPort p).bringUp p else d) d

/-- LN_GROUP_CFG (R84): every port of the group goes OFF and comes up at the new width. -/
def lnGroupCfgEffect (g : Nat) (v : W32) (d : Dev) : Dev :=
  let d := Dev.plainWrite (aLN_GROUP_CFG g) v d
  ((groupPorts g).foldl (fun d p => (d.wr (aLN_PORT_STAT p) 0).modPort p (fun x => { x with retraining := false })) d).bringGroup g

/-- LN_UNFENCE (R84): this device's fence on the lane goes, and its port retrains from SIGNAL, through QUALIFY. -/
def lnUnfenceEffect (v : W32) (d : Dev) : Dev :=
  let l := fld v 0 10
  if !bitAt v 31 || !decide (l < 528) then d else
  let d := ((d.sb (aLN_LANE_STAT l) 3 false).setLane l { d.lane l with failed := [] }).setCharges l 0 []
  match d.portOfLane l with
  | none => d
  | some p =>
    let st := d.portState p
    if st = 0 ∨ d.sorterLost p then d
    else if st = 7 then (d.freshPort p).bringUp p
    else d.bringUp p

/-- LN_CNT_CLR (R85). -/
def lnCntClrEffect (v : W32) (d : Dev) : Dev :=
  let p := fld v 0 9
  if bitAt v 31 && decide (p ≤ 256) then d.wr (aLN_PORT_CNT p) 0 else d

/-- LN_CNT_CLR (R85). -/
def execLnCntClr (v : W32) (s : State) : Host.Outcome State Fault Refusal := devStep (fun d => d.barWrite aLN_CNT_CLR v lnCntClrEffect) s

end Sys2Proof.Machine
end

