-- ==== Sys2Proof/Machine/Strikes.lean ====
section
/-! DEFINITION. Beats and strikes as they come (R31 to R45): edges, beat markers, deadlines, the firing of LAUNCH and COMMIT comparators,
and flits that come. -/

namespace Sys2Proof.Machine

/-! ## A strike that comes too late (R38, R40) -/

/-- What waits for a comparator's beat completes with STRIKE_LATE; the other devices of a group are not told (R270). An update whose upward wave has gone can no longer fail (R353): its COMMIT
then falls at the deadline. -/
def Dev.strikeLate (d : Dev) (m : List Host.Cell) (c : Cmp) : Dev × List Host.Cell :=
  let d := d.freeCmp c.id
  match c.act with
  | .launchCl g q => (d.opFail g q stSTRIKE_LATE false none, m)
  | .commit g q =>
    if (d.op? g q).any (fun o => o.upSent || o.decision.isSome) then (d.updCommit g q, m) else (d.opFail g q stSTRIKE_LATE false none, m)
  | .launchAs id => d.launchFail m id stSTRIKE_LATE
  | .launchWs _ id => match d.me.sends.find? (fun w => w.id == id) with
    | some w => (d.sendEnd w stSTRIKE_LATE, m)
    | none => (d, m)
  | _ => (d, m)

/-! ## Taking a beat (R31, R32, R38) -/

/-- Put a beat marker on every Ryutor port in service and on the twin link. -/
def Dev.relayBeat (d : Dev) (n : W32) (stamp : W64) : Dev :=
  ((List.range 257).filter (fun p => d.portState p == 6)).foldl (fun d p => d.modPort p (fun x => { x with beatTx := x.beatTx ++ [beatWord n stamp] })) d

/-- A beat is taken: log, relay, comparators. -/
def Dev.takeBeat (d : Dev) (m : List Host.Cell) (n : W32) (stamp : W64) : Dev × List Host.Cell :=
  let d := ((d.logBeat n stamp).reload n stamp).relayBeat n stamp
  (d.beatLate n).foldl (fun r c => r.1.strikeLate r.2 c) (d, m)

/-- BEAT_CFG.SRC: 0 PIN, 1 UPSTREAM, 3 OFF. -/
def Dev.beatSrc (d : Dev) : Nat := d.gf aBEAT_CFG 0 2

/-- BEAT_IN_EDGE (R31). DESIGN CHOICE (log 92): an edge before the last accepted stamp, which a step back of the count can bring, is taken. -/
def execBeatInEdge (rising : Bool) (s : State) : Host.Outcome State Fault Refusal :=
  memStep (fun d m =>
    if !d.live || d.beatSrc != 0 || d.gb aBEAT_CFG 2 == rising then (d, m) else
    let near := match d.tm.lastEdge with
      | some t => decide (0 ≤ d.since t) && decide (d.since t < Int.ofNat (d.gf aBEAT_CFG 16 16 * 4096))
      | none => false
    if near then (d.sf aBEAT_STAT 0 16 (min 0xFFFF (d.gf aBEAT_STAT 0 16 + 1)), m)
    else
      let stamp := d.now
      ({ d with tm := { d.tm with lastEdge := some stamp } }).takeBeat m (d.tm.beatCount + 1) stamp) s

/-- The link whose beat markers are taken under UPSTREAM (R32). -/
def Dev.beatLink (d : Dev) : Nat := if d.gf aPT_CTRL 0 3 = 3 then 256 else d.gf aPT_CTRL 8 8

/-- The beat number of a marker's word (R65): bits [43:12]. -/
def beatOf (w : Nat) : W32 := BitVec.ofNat 32 (nfld w 12 32)

/-- BEAT_MARKER (R32): the first whole marker of a port, a beat marker. -/
def execBeatMarker (p : Nat) (s : State) : Host.Outcome State Fault Refusal :=
  memStep (fun d m => match (if d.live then (d.port p).markerIn else []) with
    | [] => (d, m)
    | x :: rest =>
      if x.word % 16 ≠ 2 then (d, m) else
      let d := d.modPort p (fun y => { y with markerIn := rest })
      if d.beatSrc = 1 ∧ p = d.beatLink then d.takeBeat m (beatOf x.word) (BitVec.ofNat 64 (nfld x.word 62 64)) else (d, m)) s

/-- STRIKE_DEADLINE (R38). -/
def execStrikeDeadline (c : Nat) (s : State) : Host.Outcome State Fault Refusal :=
  memStep (fun d m => match (if d.live then d.tm.cmps.find? (fun x => x.id == c) else none) with
    | none => (d, m)
    | some x => if x.wait.isSome && decide (d.ahead x.time ≤ 0) then d.strikeLate m x else (d, m)) s

/-! ## Firing (R44, R259, R297, R355, R375) -/

/-- What a LAUNCH comparator starts. -/
def Dev.launchFires (d : Dev) (c : Cmp) : Dev :=
  match c.act with
  | .launchCl g q => (((d.freeCmp c.id).modOp g q (fun o => { o with fired := true })).tryLaunch g q)
  | .launchAs id => (d.freeCmp c.id).modLaunch id (fun l => { l with ready := true, time := c.time })
  | .launchWs _ id => (d.freeCmp c.id).modSend id (fun w => { w with ready := true, time := c.time })
  | _ => d

/-- LAUNCH_STRIKE (R259). -/
def execLaunchStrike (c : Nat) (s : State) : Host.Outcome State Fault Refusal :=
  devStep (fun d => match (if d.live then d.fires c else none) with
    | none => d
    | some x => d.launchFires x) s

/-- COMMIT_STRIKE (R355). -/
def execCommitStrike (c : Nat) (s : State) : Host.Outcome State Fault Refusal :=
  devStep (fun d => match (if d.live then d.fires c else none) with
    | none => d
    | some x => match x.act with
      | .commit g q => (d.freeCmp x.id).updCommit g q
      | _ => d) s

/-! ## Flits that come -/

/-- FLIT_RECEIVE (R69): what it acknowledges may complete an operation (R264). -/
def execFlitReceive (p : Nat) (f : Flit) (s : State) : Host.Outcome State Fault Refusal :=
  devStep (fun d => d.when (d.live && d.carries p) (fun d => (d.flitReceive p f).clPoll)) s

end Sys2Proof.Machine
end

