-- ==== Sys2Proof/Machine/Twins.lean ====
section
/-! DEFINITION. Twin pairs (R424 to R438, R441): roles and states, mirroring by batches, TWIN_SYNC, shards kept by recomputation, promotion. -/

namespace Sys2Proof.Machine

/-! ## Packets of the twin link (R428) -/

/-- The first packet of the twin link that waits to be consumed: they are taken in the order of arrival. -/
def Dev.twHead (d : Dev) : Option BPkt :=
  d.fb.pkts.find? (fun b => b.place == .inbox && b.src == some 256 && decide (0xE7 ≤ b.pkt.opcode) && decide (b.pkt.opcode ≤ 0xEF))

/-- Take the packet of an opcode that comes next on the twin link. -/
def Dev.takeTw (d : Dev) (op : Nat) : Option (Pkt × Dev) :=
  match d.twHead with
  | some b => if d.live && b.pkt.opcode == op then some (b.pkt, d.dropPkt b.id) else none
  | none => none

/-- Send a packet on the twin link, charged to its quota. -/
def Dev.twPkt (d : Dev) (mclass op group arg0 arg1 : Nat) (body : Bytes) : Dev :=
  d.originate 66 (mkPkt 0 mclass op 0 0 0 group 0 arg0 arg1 body) [256]

/-- The port of the twin link is UP. -/
def Dev.twUp (d : Dev) : Bool := d.portState 256 == 6

/-- ROLE (R424). -/
def Dev.twRole (d : Dev) : Nat := d.gf aTW_CFG 0 2

/-- The pair is STALE, SYNCING or PAIRED. -/
def Dev.twJoined (d : Dev) : Bool := decide (2 ≤ d.twState) && decide (d.twState ≤ 4)

/-! ## TW_HELLO (R426, R437) -/

/-- TW_HELLO: the shape record, TW_KEY, ROLE, and whether the sender has yielded (log 15). -/
def Dev.helloBody (d : Dev) : Bytes :=
  d.shapeRecord.flatMap (fun w => toLE 4 w.toNat) ++ toLE 4 (d.rg aTW_KEY).toNat ++ [BitVec.ofNat 8 d.twRole, BitVec.ofNat 8 (d.twState == 6).toNat]

/-- Send a TW_HELLO when one is due: their spacing is free. -/
def Dev.helloSend (d : Dev) : Dev :=
  if d.twRole = 0 ∨ !d.twUp then d else
  let due := match d.tw.helloAt with
    | none => true
    | some t => decide (Int.ofNat Config.helloGap ≤ d.since t)
  if due then ({ d with tw := { d.tw with helloAt := some d.now } }).twPkt 2 0xE7 0 0 0 d.helloBody else d

/-- The CAUSE for which a TW_HELLO does not join the pair, 0 where it does. -/
def Dev.helloCause (d : Dev) (body : Bytes) : Nat :=
  let role := rdLE body 20 1
  if !d.twUp then 1
  else if !((d.twRole == 1 && role == 2) || (d.twRole == 2 && role == 1)) then 2
  else if BitVec.ofNat 32 (rdLE body 16 4) ≠ d.rg aTW_KEY then 3
  else if (List.range 4).map (fun i => BitVec.ofNat 32 (rdLE body (4 * i) 4)) ≠ d.shapeRecord then 4
  else 0

/-- The peer's shape record as the last TW_HELLO gave it (R441). -/
def Dev.peerShape (d : Dev) : List W32 := (List.range 4).map (fun i => d.rg (aTW_PEER_SHAPE + 4 * i))

/-- TW_HELLO (R426): the peer's record is kept; a JOINING member joins or says why not; one whose peer had yielded goes back to JOINING. -/
def execTwHello (s : State) : Host.Outcome State Fault Refusal :=
  devStep (fun d => match d.takeTw 0xE7 with
    | none => d
    | some (p, d) =>
      let b := p.body
      let was := d.peerShape
      let d := d.wrs aTW_PEER_SHAPE ((List.range 4).map (fun i => BitVec.ofNat 32 (rdLE b (4 * i) 4)))
      if d.twRole = 0 then d else
      let d := if d.twState = 5 ∧ d.gf aTW_STAT 3 3 = 5 ∧ rdLE b 21 1 = 0 then d.setTw 1 else d
      let c := d.helloCause b
      if d.twState = 1 then
        if c = 0 then (d.setTw 2).sf aTW_STAT 3 3 0 else d.sf aTW_STAT 3 3 c
      else if d.twState = 4 ∧ c = 4 ∧ was ≠ d.peerShape ∧ !d.gb aTW_STAT 6 then (d.sb aTW_STAT 6 true).report 16 0 0 0
      else d) s

/-- TW_CFG (R424): ROLE changes only in OFF, JOINING and YIELDED; from YIELDED only ROLE OFF leads on. A write that is ignored is ignored
whole (R516). A descriptor that waits for its strike goes on waiting (log 67). -/
def twCfgEffect (v : W32) (d : Dev) : Dev :=
  let old := d.twRole
  let new := fld v 0 2
  if new = 3 then (if d.twState = 0 ∨ d.twState = 1 ∨ d.twState = 6 then d else d.sb aTW_STAT 9 true)
  else if new ≠ old ∧ !(d.twState == 0 || d.twState == 1 || d.twState == 6) then d.sb aTW_STAT 9 true
  else if new = old then Dev.plainWrite aTW_CFG v d
  else
    let d : Dev := { Dev.plainWrite aTW_CFG v d with tw := { TwinSt.init with batch := d.tw.batch, promote := d.tw.promote } }
    let d := (d.wr aTW_OPEN 0).sb aTW_STAT 7 false
    if new = 0 then (d.setTw 0).sf aTW_STAT 3 3 0 else if d.twState = 6 then d else d.setTw 1

/-- TW_CFG_WRITE (R424). -/
def execTwCfgWrite (v : W32) (s : State) : Host.Outcome State Fault Refusal := devStep (fun d => d.barWrite aTW_CFG v twCfgEffect) s

/-- TW_CNT_CLR (R441). -/
def twCntClrEffect (v : W32) (d : Dev) : Dev := if bitAt v 0 then d.clearRegs aCNT_TW_AGREE 4 5 else d

/-- TW_CNT_CLR (R441). -/
def execTwCntClr (v : W32) (s : State) : Host.Outcome State Fault Refusal := devStep (fun d => d.barWrite 0x90054 v twCntClrEffect) s

/-! ## The mirrored state (R429, R432) -/

/-- Registers of the tables that a pair mirrors: those of R429, the active banks, the groups and the models. -/
def mirrorRange (a : Nat) : Bool :=
  mirroredReg a || (decide (0x980000 ≤ a) && decide (a < 0xA00000)) || (decide (0xA20000 ≤ a) && decide (a < 0xA40000)) ||
  (decide (0xC10000 ≤ a) && decide (a < 0xF00000)) || a == 0xC00018 || a == 0xC0001C || a == 0xC00020 ||
  (decide (0x110000 ≤ a) && decide (a < 0x130000))

/-- The reservations that a quota register holds (R124). -/
def quotaKeys (a : Nat) : Option (List Nat) :=
  if 0x41000 ≤ a ∧ a < 0x42000 then
    let p := (a - 0x41000) / 16
    match (a - 0x41000) % 16 with
    | 0 => some [8 * p, 8 * p + 1]
    | 4 => some [8 * p + 2, 8 * p + 3]
    | 12 => some [8 * p + 4]
    | _ => none
  else if 0x40400 ≤ a ∧ a < 0x40600 then some [4096 + (a - 0x40400) / 4]
  else none

/-- Put a value into a register of a mirrored table, with the counts that follow it. -/
def Dev.setMirror (d : Dev) (a : Nat) (v : W32) : Dev :=
  match quotaKeys a with
  | some keys => d.setQuota a v keys
  | none =>
    if a = aRT_STAT then (d.sf aRT_STAT 0 16 (fld v 0 16)).sb aRT_STAT 20 (bitAt v 20)
    else if 0xC50000 ≤ a ∧ a < 0xC90000 ∧ a % 0x40 = 28 then d.wr a 0
    else if 0x110000 ≤ a ∧ a < 0x130000 ∧ a % 32 = 0 then d.wr a (BitVec.ofNat 32 (fld v 0 2))
    else d.wr a v

/-- Apply a mirrored register write (R429): what the lead has accepted the follower takes as it stands. -/
def Dev.applyReg (d : Dev) (a : Nat) (v : W32) : Dev :=
  if 0x900000 ≤ a ∧ a < 0x980000 then (Dev.plainWrite a v d).sb (a / 16 * 16) 3 true
  else if 0x300000 ≤ a ∧ a < 0x380000 ∧ a % 32 = 12 then polCommitEffect ((a - 0x300000) / 32) v d
  else d.setMirror a v

/-- Apply a TABLE_SWAP (R429): banks exchanged, the lead's EPOCH taken, OLD_LIVE clear. -/
def Dev.applySwap (d : Dev) (fl ep : Nat) : Dev :=
  let d := if fl % 2 = 1 then
      let d := ((d.swapTables d.now).copyBank (aDT_ACTIVE 0) (aDT_SHADOW 0) 0x80000).sb aRT_STAT 17 false
      { d.sf aRT_STAT 0 16 ep with fb := { d.fb with changed := [] } }
    else d
  if fl / 2 % 2 = 1 then d.swapSorters else d

/-- The numbers that carry a shard set in TWIN_SYNC: image, FROZEN bits, schedule, the maps of the committed version, the refresh in progress,
the registers of UP_SET. -/
def ShardSet.parts (x : ShardSet) (regs : List W32) : List (List Nat) :=
  let c := x.cur
  let m := fun (y : SMap W32) => y.flatMap (fun e => [e.1, e.2.toNat])
  let r := fun (y : SMap (Option W32)) => y.flatMap (fun e => [e.1, ((e.2.map (fun w => w.toNat)).getD 0)])
  [x.image.map (fun b => b.toNat), x.blocks.map (fun b => b.frozen.toNat),
   x.sched.flatMap (fun e => [e.1, e.2.stepFrom, e.2.eta, e.2.lambda]), m c.w, m c.m, m c.v, c.bstep.flatMap (fun e => [e.1, e.2]),
   m c.ls, m c.rs, r c.lr, r c.rr, m c.wx, m c.wm, m c.wt, m c.sl, m c.sr,
   (match c.refresh with
    | some (t, ms) => t :: ms
    | none => []), regs.map (fun w => w.toNat)]

/-- A shard set from the numbers that carry it, with its registers. -/
def shardOfParts (ps : List (List Nat)) : ShardSet × List W32 :=
  let p := fun (i : Nat) => ps.getD i []
  let pairs := fun (i : Nat) => (chunks 2 (p i)).map (fun e => (e.getD 0 0, e.getD 1 0))
  let m := fun (i : Nat) => (pairs i).map (fun e => (e.1, (BitVec.ofNat 32 e.2 : W32)))
  let r := fun (i : Nat) => (pairs i).map (fun e => (e.1, some (BitVec.ofNat 32 e.2 : W32)))
  let x := shardOfImage ((p 0).map (BitVec.ofNat 8))
  let cur : Version := { w := m 3, m := m 4, v := m 5, bstep := pairs 6, ls := m 7, rs := m 8, lr := r 9, rr := r 10, wx := m 11, wm := m 12,
                         wt := m 13, sl := m 14, sr := m 15, refresh := match p 16 with
                           | [] => none
                           | t :: ms => some (t, ms) }
  ({ x with blocks := (x.blocks.zip (p 1)).map (fun b => { b.1 with frozen := b.2 == 1 }),
            sched := (chunks 4 (p 2)).map (fun e => (e.getD 0 0, ⟨e.getD 1 0, e.getD 2 0, e.getD 3 0⟩)), cur := cur },
   (p 17).map (BitVec.ofNat 32))

/-- Enter a shard set that TWIN_SYNC brings, where the follower's frames suffice. -/
def Dev.applyShard (d : Dev) (s : Nat) (ps : List (List Nat)) : Dev :=
  let x := shardOfParts ps
  if (List.range 4).all (fun k => decide (x.1.heldFrames k ≤ (d.rg (aUP_FRAMES_FREE k)).toNat)) then
    (((d.putShard s (some x.1)).subFree aUP_FRAMES_FREE x.1.heldFrames).wrs (aUP_SET s) x.2).noteDoubt
  else d

/-- Consecutive cells as runs of bytes. -/
def cellRuns : List Host.Cell → List (Nat × Bytes)
  | [] => []
  | (a, b) :: rest => match cellRuns rest with
    | (c, bs) :: rs => if c = a + 1 then (a, b :: bs) :: rs else (a, [b]) :: (c, bs) :: rs
    | [] => [(a, [b])]

/-- The whole mirrored state as TWIN_SYNC sends it (R432). -/
def Dev.mirrorState (d : Dev) (m : List Host.Cell) : List Change :=
  [Change.start] ++
  d.fb.policers.flatMap (fun e =>
    let a := aPOL e.1
    let w := fun (n : Nat) => BitVec.ofNat 32 n
    [.raw a (w e.2.cir), .raw (a + 4) (w e.2.pir), .raw (a + 8) (w e.2.cbs),
     .reg (a + 12) (w (e.2.pbs + 2 ^ 24 * e.2.en.toNat + 2 ^ 25 * e.2.aware.toNat + 2 ^ 26 * e.2.redDrop.toNat))]) ++
  d.regs.filterMap (fun e => if mirrorRange e.1 then some (.raw e.1 e.2) else none) ++ [.raw aRT_STAT (d.rg aRT_STAT)] ++
  d.fb.flows.map (fun e => .desc (padTo 64 ([BitVec.ofNat 8 0x62] ++ List.replicate 15 0 ++ toLE 4 e.1 ++ toLE 4 1)) (d.flowImage e.1)) ++
  d.as_.progs.map (fun e => .desc (padTo 64 ([BitVec.ofNat 8 0x41] ++ List.replicate 15 0 ++ toLE 2 e.1 ++ toLE 2 0 ++ toLE 4 e.2.length)) e.2) ++
  (cellRuns (m.filter (fun c => decide (d.wsLo ≤ c.1 ∧ c.1 < d.wsHi)))).map (fun r => .mem r.1 r.2) ++
  d.sh.sets.filterMap (fun e => e.2.map (fun x => .shard e.1 (x.parts ((List.range 8).map (fun i => d.rg (aUP_SET e.1 + 4 * i))))))

/-- Release an operation of a follower with its version. -/
def Dev.twDrop (d : Dev) (g q : Nat) : Dev :=
  match d.op? g q, d.grp? g with
  | some o, some x => ((d.dropVersion o).opRelease x o).endDoubt o.set
  | _, _ => d

/-- The follower discards its former mirrored state (R432). -/
def Dev.dropMirror (d : Dev) : Dev :=
  let d := d.cl.ops.foldl (fun d o => d.twDrop o.group o.opseq) d
  let d := d.sh.sets.foldl (fun d e => match e.2 with
    | some x => d.shardRemove e.1 x
    | none => d) d
  let d := d.regs.foldl (fun d e => if (quotaKeys e.1).isSome then d.setMirror e.1 (regReset e.1) else d) d
  let d := d.as_.progs.foldl (fun d e => d.setProg e.1 []) d
  { d with regs := d.regs.filter (fun e => !mirrorRange e.1),
           fb := { d.fb with flows := [], cached := [], policers := [], spDirty := [], changed := [], swap := none } }

/-- Apply a mirrored descriptor (R429). -/
def Dev.applyDesc (d : Dev) (m : List Host.Cell) (bs data : Bytes) : Dev :=
  match rdLE bs 0 1 with
  | 0x30 => (d.shardDefine false 0 bs data).1
  | 0x31 => (d.shardSched false 0 bs data).1
  | 0x32 =>
    let s := rdLE bs 16 2
    if bfld bs 18 0 2 = 2 then (if d.shState s = 1 then d.setShState s 2 else d)
    else d.modShard s (fun y => y.planeWrite (rdLE bs 19 1) (rdLE bs 20 4) (wordsOf data))
  | 0x33 => (d.shardResolve bs).1
  | 0x41 => (d.assayLoad false 0 bs data).1
  | 0x51 =>
    if rdLE bs 18 2 = 1 then d.dropModel (rdLE bs 16 2)
    else
      let r := d.defRange bs
      d.setModel bs (mixBytes (memRead m r.1 r.2) 0)
  | 0x61 => (d.groupSet false 0 bs data).1
  | 0x62 => if bfld bs 32 0 2 = 2 then d.flowZero (rdLE bs 16 4) (rdLE bs 20 4)
    else (d.flowWrite (rdLE bs 16 4) (rdLE bs 20 4) data).getD d
  | _ => d

/-- Apply one change. -/
def Dev.applyChange (d : Dev) (m : List Host.Cell) (c : Change) : Dev × List Host.Cell :=
  match c with
  | .reg a v => ((d.applyReg a v).sweepFences, m)
  | .desc bs data => (d.applyDesc m bs data, m)
  | .mem a data => (d.linesWritten a data.length, memWrite a data m)
  | .swap fl ep => ((d.applySwap fl ep).sweepFences, m)
  | .start => (d, m)
  | .raw a v => (d.setMirror a v, m)
  | .shard s ps => (d.applyShard s ps, m)

/-! ## Batches (R429 to R432) -/

/-- TW_STAT.STALE of the follower: it holds changes that are not committed (R431, R437). -/
def Dev.noteStale (d : Dev) : Dev := d.sb aTW_STAT 7 (!d.tw.staged.isEmpty)

/-- TW_STAGE (R429): the follower holds a change; the start of a TWIN_SYNC clears what it held (R432). -/
def execTwStage (s : State) : Host.Outcome State Fault Refusal :=
  memStep (fun d m => match d.takeTw 0xE8 with
    | none => (d, m)
    | some (p, d) =>
      if !(d.follower && d.twJoined) then (d, m) else
      let part := d.tw.partIn ++ p.body
      if p.arg0 ≠ 0 then ({ d with tw := { d.tw with partIn := part } }, m) else
      let c := Change.ofBytes part
      if c = .start then
        let d := d.dropMirror
        let m := m.filter (fun x => decide (x.1 < d.wsLo ∨ d.wsHi ≤ x.1))
        ((({ d with tw := { d.tw with staged := [c], partIn := [], prep := none } }).setTw 3).noteStale, m)
      else (({ d with tw := { d.tw with staged := d.tw.staged ++ [c], partIn := [] } }).noteStale, m)) s

/-- TW_PREP (R431): the follower checks count and chain, and answers. The payload carries the strike (log 15); with no COMMIT comparator for it
the answer is REFUSE (log 15). -/
def execTwPrep (s : State) : Host.Outcome State Fault Refusal :=
  devStep (fun d => match d.takeTw 0xE9 with
    | none => d
    | some (p, d) =>
      if !(d.follower && d.twJoined) then d else
      let num := p.arg0 % 2 ^ 32
      let n := p.arg0 / 2 ^ 32
      let refuse := n != d.tw.staged.length || p.arg1 != crcChain d.tw.staged || !d.cmpFree 1 1
      let d := { d with tw := { d.tw with prep := some ⟨num, n, refuse, none⟩ } }
      let d := if d.cmpFree 1 1 then d.takeCmp 1 (BitVec.ofNat 64 (rdLE p.body 0 8)) none (.twinCommit num) else d
      let d := if refuse ∧ !d.tm.cmps.any (fun c => c.act == .twinCommit num) then
          (({ d with tw := { d.tw with staged := [], prep := none } }).setTw 2).sb aTW_STAT 7 true
        else d
      d.twPkt 2 0xEA 0 (num + 2 ^ 32 * refuse.toNat) 0 []) s

/-- The time by which the lead sends TW_GO (R431). -/
def Dev.goBy (d : Dev) (b : TwBatch) : W64 := b.strike - BitVec.ofNat 64 (orOne (d.gf aTW_CFG 8 8) * 256)

/-- Send TW_GO. -/
def Dev.sendGo (d : Dev) (b : TwBatch) (apply : Bool) : Dev :=
  ({ d with tw := { d.tw with batch := some { b with go := some apply } } }).twPkt 1 0xEB 0 (b.num + 2 ^ 32 * apply.toNat) 0 []

/-- TW_READY (R431). -/
def execTwReady (s : State) : Host.Outcome State Fault Refusal :=
  devStep (fun d => match d.takeTw 0xEA with
    | none => d
    | some (p, d) => match d.tw.batch with
      | none => d
      | some b =>
        if !d.lead ∨ p.arg0 % 2 ^ 32 ≠ b.num ∨ b.ready.isSome then d else
        let refuse := p.arg0.testBit 32
        let b := { b with ready := some refuse }
        let d := { d with tw := { d.tw with batch := some b } }
        if b.go.isSome then d
        else d.sendGo b (!refuse && decide (0 < d.ahead (d.goBy b)))) s

/-- TWIN_GO_DEADLINE (R431): no TW_READY in time. -/
def execTwinGoDeadline (s : State) : Host.Outcome State Fault Refusal :=
  devStep (fun d => match (if d.live then d.tw.batch else none) with
    | none => d
    | some b => if b.go.isNone && decide (d.ahead (d.goBy b) ≤ 0) then d.sendGo b false else d) s

/-- TW_GO (R431). -/
def execTwGo (s : State) : Host.Outcome State Fault Refusal :=
  devStep (fun d => match d.takeTw 0xEB with
    | none => d
    | some (p, d) => match d.tw.prep with
      | none => d
      | some b =>
        if d.follower ∧ p.arg0 % 2 ^ 32 = b.num then { d with tw := { d.tw with prep := some { b with go := some (p.arg0.testBit 32) } } }
        else d) s

/-- Close a batch (R431, R432): `changes` are those it holds. -/
def Dev.closeBatch (d : Dev) (f : Fetched) (t : W64) (changes : List Change) (sync : Bool) : Dev :=
  let num := ((d.rg aTW_BATCH).toNat + 1) % 2 ^ 32
  let b : TwBatch := { num := num, strike := t, count := changes.length, ready := none, go := none, ref := f.ref, sync := sync, told := false }
  let d := ({ d with tw := { d.tw with batch := some b } }).wr aTW_OPEN 0
  (d.takeCmp 1 t none (.twinCommit num)).twPkt 1 0xE9 0 (num + 2 ^ 32 * changes.length) (crcChain changes) (toLE 8 t.toNat)

/-- The strike of a TWIN_COMMIT, TWIN_SYNC or TWIN_PROMOTE, with STRIKE_BUSY (R430 step 4). -/
def Dev.twStrike (d : Dev) (f : Fetched) : Nat ⊕ W64 :=
  match d.judgeStrike (sl f.bytes 16 16) f.time with
  | .bad st => .inl st
  | .fire t => if d.cmpFree 1 1 then .inr t else .inl stSTRIKE_BUSY
  | _ => .inl stBAD_OPCODE

/-- INFO of a TWIN_COMMIT or TWIN_SYNC that ends is a batch number, as R430 and R431 say of these two; R403 has no row for them (log 68). -/
def Dev.twComplete (d : Dev) (ref : DescRef) (status info : Nat) : Dev := d.complete ref { status := status, info := info }

/-- TWIN_COMMIT (R430). -/
def execTwinCommit (r : Nat) (s : State) : Host.Outcome State Fault Refusal :=
  devStep (fun d => match d.takeFetched r (fun f => f.ref.op == 0x70) with
    | none => d
    | some (f, d) =>
      if bfld f.bytes 24 0 2 ≠ 1 then d.completeS f.ref stBAD_OPCODE
      else if !d.lead ∨ d.twState ≠ 4 ∨ d.tw.batch.isSome then d.completeS f.ref stCONFLICT
      else if d.tw.staged.isEmpty then d.twComplete f.ref stOK (d.rg aTW_BATCH).toNat
      else match d.twStrike f with
        | .inl st => d.completeS f.ref st
        | .inr t => d.closeBatch f t d.tw.staged false) s

/-- Something that a TWIN_SYNC would miss is pending or running on the lead (R432). -/
def Dev.twBusy (d : Dev) : Bool :=
  d.cl.ops.any (fun o => o.update) || d.sh.xfers.any (fun x => bfld x.body 18 0 2 == 0) || d.fb.swap.isSome || !d.me.defs.isEmpty ||
  d.me.copies.any (fun x => bfld x.body 16 0 1 == 0 && decide (rdLE x.body 24 8 < d.wsHi) && decide (d.wsLo < rdLE x.body 24 8 + rdLE x.body 40 8)) ||
  d.hi.fetched.any (fun f => d.stages f.ref.op f.bytes)

/-- TWIN_SYNC (R432): the lead sends its whole mirrored state. -/
def execTwinSync (r : Nat) (s : State) : Host.Outcome State Fault Refusal :=
  devStep (fun d => match d.takeFetched r (fun f => f.ref.op == 0x71) with
    | none => d
    | some (f, d) =>
      if bfld f.bytes 24 0 2 ≠ 1 then d.completeS f.ref stBAD_OPCODE
      else if !d.lead ∨ d.twState ≠ 2 ∨ d.tw.batch.isSome ∨ d.twBusy then d.completeS f.ref stCONFLICT
      else match d.twStrike f with
        | .inl st => d.completeS f.ref st
        | .inr t =>
          let cs := d.mirrorState s.mem
          let d := ({ d with tw := { d.tw with staged := [] } }).setTw 3
          let d := (cs.zip (List.range cs.length)).foldl (fun d c => d.twSend c.2 c.1) d
          d.closeBatch f t cs true) s

/-- The lead at the strike of its batch (R431). -/
def Dev.leadStrike (d : Dev) (b : TwBatch) : Dev :=
  let d := if b.go.isNone && d.lead then d.sendGo b false else d
  let apply := b.go == some true
  let refused := b.ready == some true
  let kept := if b.sync then d.tw.staged else if apply then d.tw.staged.drop b.count else d.tw.staged
  let d := ({ d with tw := { d.tw with batch := none, staged := kept } }).wr aTW_OPEN (BitVec.ofNat 32 kept.length)
  let d := if apply then d.wr aTW_BATCH (BitVec.ofNat 32 b.num) else d
  let d := if d.twState = 3 then d.setTw (if apply then 4 else 2) else if refused ∧ d.twState = 4 then d.setTw 2 else d
  if b.told then d else d.twComplete b.ref (if apply then stOK else stABORTED) b.num

/-- The follower at the strike of the batch it was asked about (R431): what it applies may fence endpoints (R136). -/
def Dev.followerStrike (d : Dev) (m : List Host.Cell) (b : TwPrep) : Dev × List Host.Cell :=
  let stale := fun (d : Dev) => if d.twJoined then d.setTw 2 else d
  let d := { d with tw := { d.tw with prep := none } }
  if b.refuse then ((stale { d with tw := { d.tw with staged := [] } }).sb aTW_STAT 7 true, m)
  else match b.go with
    | some true =>
      let r : Dev × List Host.Cell := (d.tw.staged.take b.count).foldl (fun (r : Dev × List Host.Cell) c => Dev.applyChange r.1 r.2 c) (d, m)
      let d : Dev := { r.1 with tw := { r.1.tw with staged := r.1.tw.staged.drop b.count } }
      let d := ((d.wr aTW_BATCH (BitVec.ofNat 32 b.num)).noteStale).sweepFences
      (if d.twState = 3 then d.setTw 4 else d, r.2)
    | some false => (if d.twState = 3 then d.setTw 2 else d, m)
    | none => (stale d, m)

/-- TWIN_COMMIT_STRIKE (R431). -/
def execTwinCommitStrike (c : Nat) (s : State) : Host.Outcome State Fault Refusal :=
  memStep (fun d m => match (if d.live then d.fires c else none) with
    | none => (d, m)
    | some x => match x.act with
      | .twinCommit num =>
        let d := d.freeCmp x.id
        match d.tw.batch, d.tw.prep with
        | some b, _ => if b.num = num then (d.leadStrike b, m) else (d, m)
        | none, some b => if b.num = num then d.followerStrike m b else (d, m)
        | none, none => (d, m)
      | _ => (d, m)) s

/-! ## Shards kept by recomputation (R433, R435, R436) -/

/-- Send TW_HALL once the follower's step is whole. -/
def Dev.twAnswer (d : Dev) (g q : Nat) : Dev :=
  match d.op? g q, d.grp? g with
  | some o, some x =>
    if !d.follower ∨ o.twin.sent ∨ !d.stepWhole x o then d else
    (d.modOp g q (fun o => { o with twin := { o.twin with sent := true } })).twPkt 2 0xEE g o.twin.suspect.toNat q (toLE 16 o.part)
  | _, _ => d

/-- The fetched form of an update that TW_OP brings: bytes 32 to 127 of its descriptor. -/
def Dev.twFetched (d : Dev) (p : Pkt) : Fetched :=
  { ref := ⟨0, 0, 0x28, false, d.hi.gen, d.hi.fetchNum⟩, bytes := padTo 128 ([BitVec.ofNat 8 0x28] ++ List.replicate 31 0 ++ p.body), time := d.now }

/-- Whether the follower can run an update that TW_OP brings (R433, R351): its set READY, its counter one below, frames and a comparator. -/
def Dev.twCan (d : Dev) (o : ClOp) : Bool :=
  d.shState o.set == 2 && o.step == d.shStep o.set + 1 && (d.shard? o.set).isSome && d.cmpFree 1 1 &&
  (List.range 4).all (fun k => decide (o.claims.getD k 0 ≤ (d.rg (aUP_POOL_FREE k)).toNat))

/-- The COMMIT strike of an update as the follower takes it. -/
def Dev.twCommit (d : Dev) (o : ClOp) : Option Strike :=
  match d.judgeStrike (sl o.body 96 16) d.now with
  | .fire t => some (.fire t)
  | _ => none

/-- TW_OP (R433). -/
def execTwOp (s : State) : Host.Outcome State Fault Refusal :=
  devStep (fun d => match d.takeTw 0xEC with
    | none => d
    | some (p, d) =>
      let g := p.group
      let q := p.arg1
      if !d.follower ∨ d.twState ≠ 4 ∨ (d.op? g q).isSome then d else
      let f := d.twFetched p
      let noset := (d.setTw 2).twPkt 2 0xEE g 2 q (toLE 16 0)
      match d.grp? g with
      | none => noset
      | some x =>
        let o := { d.sizeOp x { ClOp.of f with group := g, opseq := q } d.now with granted := true, launched := true, need := 0, ctx := 0 }
        match (if d.twCan o then d.twCommit o else none) with
        | none => noset
        | some k =>
          let d := { d with cl := { d.cl with ops := d.cl.ops ++ [o] } }
          let d := (d.subFree aUP_POOL_FREE (fun k => o.claims.getD k 0)).noteClaim o.set
          let d := ((d.armStrike 1 k (.commit g q) f.ref.num).sb (aUP_SET o.set) 3 true).updLaunch g q
          d.twAnswer g q) s

/-- TW_PIECE (R433): the follower applies the output stage and the rule to a piece; one in another FORMAT is discarded (R173). -/
def execTwPiece (s : State) : Host.Outcome State Fault Refusal :=
  devStep (fun d => match d.takeTw 0xED with
    | none => d
    | some (p, d) => match (if d.follower then d.op? p.group p.arg1 else none), d.grp? p.group with
      | some o, some x =>
        let k := p.arg0 % 2 ^ 32
        if p.format ≠ accOf o.inFmt then d.report 4 7 0 0 else
        if o.pieces_ x.nmemb ≤ k ∨ o.updated.contains k ∨ o.benched.any (fun b => b.1 == k) then d else
        let acc := unpackTensor (accOf o.inFmt) (o.len x.nmemb k) p.body
        let gr := d.gradOf o k acc
        let d := d.modOp o.group o.opseq (fun o => { o with ieee := o.ieee ||| gr.2.1.ieee, flags := if gr.2.1.ovf then o.flags ||| 8 else o.flags })
        (d.updPiece o.group o.opseq k 0 gr.1).twAnswer o.group o.opseq
      | _, _ => d) s

/-- TW_HALL (R434). -/
def execTwHall (s : State) : Host.Outcome State Fault Refusal :=
  devStep (fun d => match d.takeTw 0xEE with
    | none => d
    | some (p, d) => match (if d.lead then d.op? p.group p.arg1 else none) with
      | none => d
      | some o =>
        if !o.twin.compare ∨ o.twin.settled ∨ o.twin.answer.isSome then d
        else if p.arg0.testBit 1 then (d.twAlone o.group o.opseq false).opPoll o.group o.opseq
        else
          let a := (rdLE p.body 0 16, p.arg0.testBit 0, false)
          (d.modOp o.group o.opseq (fun o => { o with twin := { o.twin with answer := some a } })).opPoll o.group o.opseq) s

/-- TWIN_HALL_TIMEOUT (R434): the follower is told to drop its version, and that the lead goes on alone (log 15). -/
def execTwinHallTimeout (g q : Nat) (s : State) : Host.Outcome State Fault Refusal :=
  devStep (fun d => match (if d.live && d.lead then d.op? g q else none) with
    | none => d
    | some o => match o.twin.waitFrom with
      | none => d
      | some t =>
        if o.twin.settled ∨ o.twin.answer.isSome ∨ d.since t < Int.ofNat (orOne (d.gf aTW_CFG 16 16) * 4096) then d
        else ((d.twPkt 1 0xEF g 12 q [1]).twAlone g q true).opPoll g q) s

/-- TW_DECIDE (R434, R436). -/
def execTwDecide (s : State) : Host.Outcome State Fault Refusal :=
  devStep (fun d => match d.takeTw 0xEF with
    | none => d
    | some (p, d) => match (if d.follower then d.op? p.group p.arg1 else none) with
      | none => d
      | some o =>
        let g := o.group
        let q := o.opseq
        let out := nfld p.arg0 2 2
        match nfld p.arg0 0 2 with
        | 0 => match out with
          | 0 => d.modOp g q (fun o => { o with twin := { o.twin with settled := true } })
          | 1 => (d.twDrop g q).yield_
          | 2 => (d.twDrop g q).solo 5
          | _ =>
            let d := d.twDrop g q
            if !p.body.isEmpty ∧ d.twJoined then d.setTw 2 else d
        | 1 => d.updHear o { Wave.zero with vote := out % 2 }
        | _ => d) s

/-! ## Promotion and loss of the peer (R437, R438) -/

/-- TWIN_PROMOTE (R438). -/
def execTwinPromote (r : Nat) (s : State) : Host.Outcome State Fault Refusal :=
  devStep (fun d => match d.takeFetched r (fun f => f.ref.op == 0x72) with
    | none => d
    | some (f, d) =>
      if bfld f.bytes 24 0 2 ≠ 1 then d.completeS f.ref stBAD_OPCODE
      else if !d.follower ∨ d.twState ≠ 5 ∨ d.gb aTW_STAT 7 ∨ d.gb aTW_STAT 8 ∨ d.tw.promote.isSome then d.completeS f.ref stCONFLICT
      else match d.twStrike f with
        | .inl st => d.completeS f.ref st
        | .inr t => ({ d with tw := { d.tw with promote := some f.ref } }).takeCmp 1 t none .promote) s

/-- TWIN_PROMOTE_STRIKE (R438): ROLE becomes LEAD, STATE stays as it is; where ROLE is no longer FOLLOWER the descriptor ends ABORTED (log 67). -/
def execTwinPromoteStrike (c : Nat) (s : State) : Host.Outcome State Fault Refusal :=
  devStep (fun d => match (if d.live then d.fires c else none) with
    | none => d
    | some x => match x.act, d.tw.promote with
      | .promote, some ref =>
        let c := { d.freeCmp x.id with tw := { d.tw with promote := none } }
        if d.twRole = 2 then (c.sf aTW_CFG 0 2 1).completeS ref stOK else c.completeS ref stABORTED
      | _, _ => d) s

/-- The twin link has gone DOWN, or has come back (R434, R437). -/
def Dev.twSweep (d : Dev) : Dev :=
  if d.twRole = 0 then d
  else if d.twJoined && d.portState 256 == 7 then
    let d := d.solo 6
    if d.follower then (d.cl.ops.filter (fun o => !o.twin.settled)).foldl (fun d o => d.twDrop o.group o.opseq) d
    else (d.cl.ops.filter (fun o => o.twin.compare && !o.twin.settled)).foldl (fun d o =>
      (d.twAlone o.group o.opseq o.twin.answer.isNone).opPoll o.group o.opseq) d
  else if d.twState = 5 ∧ d.gf aTW_STAT 3 3 = 6 ∧ d.twUp then d.setTw 1
  else d

/-! ## The local clock -/

/-- What the device does of itself in one cycle of its local clock, with no command: plant time runs on (R18), operations advance as far as
what has come allows (R263, R264), and a member of a pair greets its peer and minds its link (R426, R437). -/
def Dev.idle (d : Dev) : Dev := if d.live then (d.tick.clPoll).twSweep.helloSend else d.tick

end Sys2Proof.Machine
end

