-- ==== Sys2Proof/Machine/Fences.lean ====
section
/-! DEFINITION. The commands that can fence a lane, a port, a sorter or an endpoint, with what a fence does to queued copies, operations
and the twin pair (R16, R74 to R84, R135 to R140, R271, R437), and the errors of the switch and of power domains (R443). -/

namespace Sys2Proof.Machine

/-- What a new fence reaches: queued copies and operations, and the twin pair (R437). -/
def Dev.afterFence (d : Dev) : Dev := d.sweepFences.twSweep

/-! ## Lanes and ports -/

/-- ALIGN (R74). -/
def execAlign (p : Nat) (rows : List LaneAlign) (s : State) : Host.Outcome State Fault Refusal :=
  devStep (fun d => d.when d.live (fun d => (d.alignRow p rows).afterFence)) s

/-- RETRY_REQ (R54, R70). -/
def execRetryReq (p : Nat) (blocks : List (List (BitVec 8))) (s : State) : Host.Outcome State Fault Refusal :=
  devStep (fun d => d.when d.live (fun d => (d.rowTaken p blocks).afterFence)) s

/-- RETRY_START (R54, R69). -/
def execRetryStart (p : Nat) (blocks : List (List (BitVec 8))) (s : State) : Host.Outcome State Fault Refusal :=
  devStep (fun d => d.when d.live (fun d => (d.rowTaken p blocks).afterFence)) s

/-- TRAIN (R54, R81): STAGE with the top of ACKED, the fences and the rest of ACKED as each lane delivers them, each with its complement. -/
def execTrain (p : Nat) (stage fences acked : List (BitVec 8 × BitVec 8)) (s : State) : Host.Outcome State Fault Refusal :=
  devStep (fun d => d.when d.live (fun d => (d.rowTaken p (trainBlocks stage fences acked)).afterFence)) s

/-- LANE_LOSS_FENCE (R75). -/
def execLaneLossFence (l : Nat) (s : State) : Host.Outcome State Fault Refusal :=
  devStep (fun d => d.when (d.live && decide (l < 528)) (fun d => (d.laneLossFence l).afterFence)) s

/-- LANE_LOCK_TIMEOUT (R83). -/
def execLaneLockTimeout (l : Nat) (s : State) : Host.Outcome State Fault Refusal :=
  devStep (fun d => d.when (d.live && decide (l < 528)) (fun d => (d.laneLockTimeout l).afterFence)) s

/-- BRINGUP_TIMEOUT (R82). -/
def execBringupTimeout (p : Nat) (s : State) : Host.Outcome State Fault Refusal :=
  devStep (fun d => d.when d.live (fun d => (d.bringupTimeout p).afterFence)) s

/-- LN_GROUP_CFG_WRITE (R84). -/
def execLnGroupCfgWrite (g : Nat) (v : W32) (s : State) : Host.Outcome State Fault Refusal :=
  devStep (fun d => d.when (decide (g < 64)) (fun d => d.barWrite (aLN_GROUP_CFG g) v (fun v d => (lnGroupCfgEffect g v d).afterFence))) s

/-- LN_UNFENCE (R84). -/
def execLnUnfence (v : W32) (s : State) : Host.Outcome State Fault Refusal :=
  devStep (fun d => d.barWrite aLN_UNFENCE v (fun v d => (lnUnfenceEffect v d).afterFence)) s

/-! ## Endpoints -/

/-- FD_MAP (R136). -/
def fdMapEffect (i : Nat) (v : W32) (d : Dev) : Dev := (Dev.plainWrite (aFD_MAP i) v d).afterFence

/-- FD_MAP_WRITE (R136). -/
def execFdMapWrite (i : Nat) (v : W32) (s : State) : Host.Outcome State Fault Refusal :=
  devStep (fun d => d.when (decide (i < 1024)) (fun d => d.barWrite (aFD_MAP i) v (fdMapEffect i))) s

/-- TABLE_SWAP_STRIKE (R114): the banks that the pending TABLE_SWAP selects are exchanged; what the new destination table fences is dealt
with (R136, R271). -/
def execTableSwapStrike (c : Nat) (s : State) : Host.Outcome State Fault Refusal :=
  devStep (fun d => match (if d.live then d.fires c else none), d.fb.swap with
    | some x, some w => if x.act = .swap then (d.swapNow w c x.time).afterFence else d
    | _, _ => d) s

/-! ## Sorters (R10, R16, R458) -/

/-- The physical sorter that carries a lane group's logical one. DESIGN CHOICE (log 98): sorter 17d + 16 is deck d's spare, and sorter
17d + k carries group 16d + k at reset. -/
def Dev.sorterPhys (d : Dev) (g : Nat) : Option Nat :=
  if d.fb.sortLost.contains g then none
  else if mget none (g / 16) d.fb.sortSpare = some g then some (17 * (g / 16) + 16) else some (17 * (g / 16) + g % 16)

/-- A physical sorter is fenced. -/
def Dev.sorterFenced (d : Dev) (phys : Nat) : Bool := d.gb (aDP_FENCE_SORT + 4 * (phys / 32)) (phys % 32)

/-- A port whose sorter is lost (R16): it goes DOWN with CAUSE 6. One that is OFF or DOWN already leaves no link, so that nothing is
reported of it. -/
def Dev.sorterDown (d : Dev) (p : Nat) : Dev :=
  if !d.portExists p then d
  else if d.portState p = 0 ∨ d.portState p = 7 then (d.setPortState p 7).sf (aLN_PORT_STAT p) 18 3 6
  else d.portDown p 6

/-- A lane group goes out of service (R16): its logical sorter is lost (R10), and every port of the group goes DOWN. -/
def Dev.loseGroup (d : Dev) (g : Nat) : Dev :=
  (groupPorts g).foldl Dev.sorterDown { d with fb := { d.fb with sortLost := d.fb.sortLost ++ [g] } }

/-- The spare sorter of a deck stands in for a lane group's, or the group is lost (R10, R16). -/
def Dev.replaceSorter (d : Dev) (g : Nat) : Dev :=
  let deck := g / 16
  if (mget none deck d.fb.sortSpare).isNone && !d.sorterFenced (17 * deck + 16) then
    { d with fb := { d.fb with sortSpare := mput none deck (some g) d.fb.sortSpare } }
  else d.loseGroup g

/-- Fence a physical sorter. -/
def Dev.fenceSorter (d : Dev) (phys : Nat) : Dev :=
  let g := (List.range 64).find? (fun g => d.sorterPhys g == some phys)
  let d := d.sb (aDP_FENCE_SORT + 4 * (phys / 32)) (phys % 32) true
  let d := { d with dp := { d.dp with keptSort := if d.dp.keptSort.contains phys then d.dp.keptSort else d.dp.keptSort ++ [phys] } }
  match g with
  | some g => d.replaceSorter g
  | none => d

/-- SORTER_FAULT (R16, R443): an error in a sorter's program or LUT store; one that is corrected is reported. -/
def execSorterFault (phys : EccError) (s : State) : Host.Outcome State Fault Refusal :=
  devStep (fun d => d.when (d.live && decide (phys.site < 68) && !d.sorterFenced phys.site) (fun d =>
    if phys.corrected then d.report 14 0 phys.site 0 else ((d.report 14 1 phys.site 0).fenceSorter phys.site).afterFence)) s

/-! ## Buffer and switch -/

/-- An operation or send of this device loses a packet that it originated (R135). -/
def Dev.ownLost (d : Dev) (p : Pkt) : Dev :=
  if p.opcode = 0xE6 then
    { d with me := { d.me with sends := d.me.sends.map (fun w => if p.own = some w.id then { w with lost := true, todo := [] } else w) } }
  else if p.opcode = 0xE0 ∨ p.opcode = 0xE1 ∨ p.opcode = 0xE3 ∨ p.opcode = 0xE4 ∨ p.opcode = 0xE5 then
    d.opFail p.group p.arg1 stDATA_LOST true none
  else d

/-- BUFFER_ECC_ERROR (R135): the copy queued at a port that holds the cell is discarded, and the cell is retired once its count reaches
zero; a corrected error is reported and changes nothing. -/
def execBufferEccError (p q : Nat) (e : EccError) (s : State) : Host.Outcome State Fault Refusal :=
  let cell := e.site
  devStep (fun d => if e.corrected then d.when (d.live && decide (cell < 1048576)) (fun d => d.report 9 0 (cell / 262144) cell) else
  match d.fb.pkts.find? (fun b => b.copies.any (fun c => c.port == p && c.q == q) && b.cells.any (fun c => c.1 == cell)) with
    | none => d
    | some b => d.when d.live (fun d =>
      let d : Dev := { d with fb := { d.fb with badCells := if d.fb.badCells.contains cell then d.fb.badCells else cell :: d.fb.badCells } }
      let d := (d.dropCopy b.id p).report 9 1 (cell / 262144) cell
      if b.src.isNone then d.ownLost b.pkt else d)) s

/-- A flow context whose cache line is lost is cleared and made not VALID (R443, R144). -/
def Dev.clearFlow (d : Dev) (f : Nat) : Dev :=
  let d := d.setFlow f FlowCtx.init
  ({ d with fb := { d.fb with cached := d.fb.cached.filter (fun x => x != f) } }).notePins

/-- SWITCH_TABLE_ERROR (R443): source 0 is repaired from the other copy, source 1 clears the flow context, source 2 stops the device. -/
def execSwitchTableError (deck source : Nat) (flow : Option Nat) (s : State) : Host.Outcome State Fault Refusal :=
  devStep (fun d => d.when (d.live && decide (deck < 4) && decide (source < 3)) (fun d =>
    let d := d.report 15 source deck 0
    match (if source = 1 then flow else none) with
    | some f => d.clearFlow f
    | none => d)) s

/-! ## Power domains (R15, R443) -/

/-- BENCH_DOMAIN_POWER_LOSS (R443): both benches of a domain that is powered are fenced, a spare one first,
so that it does not stand in; the domain is no longer up. -/
def execBenchDomainPowerLoss (dom : Nat) (s : State) : Host.Outcome State Fault Refusal :=
  memStep (fun d m =>
    let deck := (dom - 16) / 20
    let k := (dom - 16) % 20
    let b0 := 34 * deck + 2 * k
    if d.live && decide (16 ≤ dom) && decide (dom < 96) && decide (k < 17) &&
      d.bt.domains.contains dom then
      let out := fun (r : Dev × List Host.Cell) (p : Nat) => if r.1.benchFenced p then r else r.1.benchOut r.2 p
      let ps := if (d.benchLogical (b0 + 1)).isNone then [b0 + 1, b0] else [b0, b0 + 1]
      ps.foldl out ({ d with bt := { d.bt with domains := d.bt.domains.filter (fun x => x != dom) } }.report 18 0 dom 0, m)
    else (d, m)) s

end Sys2Proof.Machine
end

