-- ==== Sys2Proof/Machine/Boot.lean ====
section
/-! DEFINITION. Supplies, reset, boot, firmware and attestation (R453, R458, R468 to R487): what the embedded store keeps, the stages of boot,
the power domains, the firmware banks, the one-time indices; and the rails (R506 to R509). -/

namespace Sys2Proof.Machine

/-- A SECURITY event (R487). -/
def Dev.security (d : Dev) (src : Nat) : Dev := d.event 21 src (if src = 5 then 3 else 2) 0 0

/-! ## Reset and power (R453, R458, R470 to R473) -/

/-- Every unit in reset (R471): only the embedded store keeps what it holds (R453, R458, R461, R476, R484), the kept fences that
DP_FENCE_CLR named go (R458), and a firmware update under way leaves its bank invalid (R480). -/
def Dev.inReset (d : Dev) : Dev :=
  let kept := fun (k : Nat) (xs : List Nat) => xs.filter (fun x => !d.dp.unkeep.contains (k, x))
  let i := Dev.init
  { i with
    out := d.out
    free := d.free
    perst := false
    tm := { i.tm with tenMHz := d.tm.tenMHz }
    regs := mput 0 aSU_HOURS (d.rg aSU_HOURS) []
    dp := { i.dp with nvLog := d.dp.nvLog, keptB := kept 0 d.dp.keptB, keptS := kept 1 d.dp.keptS, keptSort := kept 2 d.dp.keptSort,
                      decks := mmap DeckSurvey.init (fun x => { DeckSurvey.init with meas := x.meas }) d.dp.decks,
                      lanePref := d.dp.lanePref }
    me := { i.me with retired := d.me.retired }
    bt := { i.bt with bank := d.bt.bank, active := d.bt.active, svnMin := d.bt.svnMin, slots := d.bt.slots, idOff := d.bt.idOff,
                      pwrGood := d.bt.pwrGood, domains := if d.bt.pwrGood then [6, 14] else [] } }

/-- RESET_ASSERT (R471): PERST_N falls; every transmitter goes to electrical idle and CANARY is low. -/
def execResetAssert (s : State) : Host.Outcome State Fault Refusal :=
  devStep (fun d => d.when d.perst (fun d => d.inReset.emit .electricalIdle)) s

/-- RESET_RELEASE (R472): PERST_N rises, and boot begins in stage ROM. -/
def execResetRelease (s : State) : Host.Outcome State Fault Refusal :=
  devStep (fun d => d.when (!d.perst) (fun d => { d with perst := true })) s

/-- PWR_GOOD_RISE (R473): the domains that are always on. -/
def execPwrGoodRise (s : State) : Host.Outcome State Fault Refusal :=
  devStep (fun d => d.when (!d.bt.pwrGood) (fun d =>
    { d with bt := { d.bt with pwrGood := true, domains := if d.bt.domains.isEmpty then [6, 14] else d.bt.domains } })) s

/-- A POWER event of a supply, which belongs to no one domain: its site is a free value. -/
def Dev.supplyEvent (d : Dev) : Dev := (d.freeNext).report 18 1 (d.freeNat % 96) 0

/-- PWR_GOOD_FALL (R470): while PERST_N is high, a POWER event taken at level 3. -/
def execPwrGoodFall (s : State) : Host.Outcome State Fault Refusal :=
  devStep (fun d => d.when d.bt.pwrGood (fun d =>
    let d : Dev := { d with bt := { d.bt with pwrGood := false } }
    if d.live then d.supplyEvent else d)) s

/-- The valid reservation slot of the highest GEN: its number and contents (R484). -/
def Dev.topSlot (d : Dev) : Option (Nat × ResSlot) :=
  (d.bt.slots.filter (fun e => e.2.valid)).foldl (fun (a : Option (Nat × ResSlot)) e => match a with
    | none => some e
    | some x => if x.2.gen < e.2.gen then some e else some x) none

/-- BT_IDX and BT_RES (R484, R488). -/
def Dev.btIdx (d : Dev) : Nat := d.rg64 0x10014
def Dev.btRes (d : Dev) : Nat := d.rg64 0x1001C

/-- POWER_LOSS (R453, R480, R484): only the embedded store is left. `torn`: the loss came while the slot that the next ATTEST needs was
being written, and leaves it invalid. -/
def execPowerLoss (torn : Bool) (s : State) : Host.Outcome State Fault Refusal :=
  devStep (fun d =>
    let writing := torn && d.live && !d.bt.attests.isEmpty && decide (d.btRes ≤ d.btIdx) && !d.gb aBT_STAT 6
    let slots := match (if writing then d.topSlot else none) with
      | some x => mput ⟨0, 0, false⟩ ((x.2.gen + 1) % 64) ⟨0, 0, false⟩ d.bt.slots
      | none => d.bt.slots
    let d := d.inReset
    { d with bt := { d.bt with slots := slots, pwrGood := false, domains := [] } }) s

/-! ## Power domains (R473) -/

/-- The bench domains of a deck that boot brings up: those that carry logical benches under the Standard profile, after the kept fences
(R473 step 6). -/
def Dev.bootBenchDomains (d : Dev) (k : Nat) : List Nat :=
  let ps := (((List.range 34).map (fun i => 34 * k + i)).filter (fun p => !d.dp.keptB.contains p)).take 32
  ((List.range 17).filter (fun j => ps.contains (34 * k + 2 * j) || ps.contains (34 * k + 2 * j + 1))).map (fun j => 16 + 20 * k + j)

/-- Domains of stages ROM, of stage UNITS, and of the lanes, in the order in which they are brought up (R473). -/
def romDomains : List Nat := [7, 15, 5, 13]
def Dev.unitDomains (d : Dev) : List Nat :=
  [4, 12] ++ (List.range 4).flatMap (fun k => [16 + 20 * k + 18, 16 + 20 * k + 19, 16 + 20 * k + 17]) ++ (List.range 4).flatMap d.bootBenchDomains
def laneDomains : List Nat := [0, 1, 2, 3, 8, 9, 10, 11]

/-- The domain that comes next, when its condition holds (R473). -/
def Dev.nextDomain (d : Dev) : Option Nat :=
  let up := fun (k : Nat) => d.bt.domains.contains k
  match romDomains.find? (fun k => !up k) with
  | some k => some k
  | none =>
    if d.stage < 3 ∨ d.stage = 6 then none else
    match (if d.stage = 3 then d.unitDomains.find? (fun k => !up k) else none) with
    | some k => some k
    | none => if d.gb aBT_STAT 5 then none else laneDomains.find? (fun k => !up k)

/-- The ports of powered lanes that are OFF start bring-up (R77); those of a lost sorter stand DOWN (R16). -/
def Dev.startPorts (d : Dev) : Dev :=
  let d := if d.portState 256 = 0 then d.bringUp 256 else d
  (List.range 64).foldl (fun d g =>
    if (groupPorts g).all (fun p => d.portState p == 0) && d.lanesReady (4 * g) then d.bringGroup g else d) d

/-- POWER_DOMAIN_UP (R473): one at a time, at least 20 µs after the last. -/
def execPowerDomainUp (dom : Nat) (s : State) : Host.Outcome State Fault Refusal :=
  devStep (fun d => d.when (d.live && d.bt.pwrGood && d.nextDomain == some dom && decide (20000 ≤ d.tm.cycle - d.bt.domainAt)) (fun d =>
    let d : Dev := { d with bt := { d.bt with domains := d.bt.domains ++ [dom], domainAt := d.tm.cycle } }
    if (laneDomains ++ [5, 13]).contains dom then d.startPorts else d)) s

/-! ## Certificates and images (R476 to R479) -/

/-- The root key of 68 bytes (R478). -/
def rootKey : Bytes := (List.range 17).flatMap (fun i => toLE 4 (Config.rootPk i).toNat)

/-- A signer certificate of a KIND verifies under the root key (R478). -/
def certOk (kind : Nat) (c : Bytes) : Bool :=
  c.length == 2904 && rdLE c 0 4 == 0x4353584B && rdLE c 4 1 == kind && Config.xmssVerify rootKey (sl c 0 84) (sl c 84 2820)

/-- The key of a signer certificate. -/
def certPk (c : Bytes) : Bytes := sl c 16 68

/-- Offset C of an image (R477). -/
def imageC (b : Bytes) : Nat := 0x20 + rdLE b 0xC 4 + rdLE b 0x10 4

/-- The image header is well formed, and the image lies within the bank (R477). -/
def imageHeaderOk (b : Bytes) : Bool :=
  rdLE b 0 4 == 0x5746584B && rdLE b 4 2 == 1 && rdLE b 0xC 4 % 16 == 0 && rdLE b 0x10 4 % 16 == 0 &&
  decide (imageC b + 8509 ≤ 1048576) && decide (imageC b + 8509 ≤ b.length)

/-- SVN of an image. -/
def imageSvn (b : Bytes) : Nat := rdLE b 8 4

/-- A bank's image passes R476. -/
def Dev.fwImageOk (d : Dev) (b : Bytes) : Bool :=
  let c := imageC b
  imageHeaderOk b && certOk 1 (sl b c 2904) && Config.xmssVerify (certPk (sl b c 2904)) (b.take c) (sl b (c + 2904) 5605) &&
  decide (d.bt.svnMin ≤ imageSvn b)

/-- A bank of the store: its image and VALID mark. -/
def Dev.bank (d : Dev) (i : Nat) : Bytes × Bool := d.bt.bank.getD i ([], false)

/-- A bank may be run. -/
def Dev.bankOk (d : Dev) (i : Nat) : Bool := (d.bank i).2 && d.fwImageOk (d.bank i).1

/-- The eight words of a digest, the least significant first (R488). -/
def digestWords (x : BitVec 256) : List W32 := (List.range 8).map (fun i => BitVec.ofNat 32 (x.toNat / 2 ^ (32 * i)))

/-- Set BT_STAT.STAGE. -/
def Dev.setStage (d : Dev) (n : Nat) : Dev := d.sf aBT_STAT 0 3 n

/-- Run a bank (R476). -/
def Dev.runBank (d : Dev) (i : Nat) : Dev :=
  let b := (d.bank i).1
  let d := (d.setStage 1).sb aBT_STAT 3 (i == 1)
  let d := d.sb aBT_STAT 4 (i != d.bt.active)
  (d.wr 0x10004 (BitVec.ofNat 32 (imageSvn b))).wrs 0x10040 (digestWords (Config.shake256 (b.take (imageC b))))

/-- ROM_STAGE_DONE (R476, R487): BANK_ACTIVE is tried first, then the other bank; with neither the stage becomes RECOVERY. -/
def execRomStageDone (s : State) : Host.Outcome State Fault Refusal :=
  devStep (fun d => d.when (d.live && d.stage == 0) (fun d =>
    let other := 1 - d.bt.active
    if d.bankOk d.bt.active then d.runBank d.bt.active
    else if d.bankOk other then (d.runBank other).security 0
    else (d.setStage 6).security 1)) s

/-- The device and manufacturing certificates verify (R481). -/
def identityOk : Bool :=
  let m := Config.mfgCert
  let c := Config.deviceCert
  certOk 3 m && c.length == 5689 && rdLE c 0 4 == 0x4944584B && rdLE c 4 1 == 4 && Config.xmssVerify (certPk m) (sl c 0 84) (sl c 84 5605)

/-- FIRMWARE_STAGE_DONE (R481, R484, R486): the certificates are verified, and the next index is taken from the reservation slots. -/
def execFirmwareStageDone (s : State) : Host.Outcome State Fault Refusal :=
  devStep (fun d => d.when (d.live && d.stage == 1) (fun d =>
    let d := d.setStage 2
    let d := if identityOk then d else (d.sb aBT_STAT 6 true).security 3
    match (if d.bt.idOff then none else d.topSlot) with
    | some x =>
      let d := (d.wr64 0x10014 x.2.res).wr64 0x1001C x.2.res
      if x.2.res < 2 ^ 40 then d else { (d.sb aBT_STAT 6 true).security 4 with bt := { d.bt with idOff := true } }
    | none => { (d.sb aBT_STAT 6 true).security 4 with bt := { d.bt with idOff := true } })) s

/-- The board table verifies (R78, R479). -/
def boardOk (t : Bytes) : Bool :=
  let c := sl t 0x4340 2904
  decide (0x647D ≤ t.length) && rdLE t 0 4 == 0x4254584B && rdLE t 4 2 == 1 && certOk 2 c &&
  Config.xmssVerify (certPk c) (t.take 0x4340) (sl t (0x4340 + 2904) 5605)

/-- BOARD_STAGE_DONE (R77 to R79, R479): a table that verifies gives the widths of the lane groups and the lanes' alternatives; one that
fails leaves every lane OFF. -/
def execBoardStageDone (table : Bytes) (s : State) : Host.Outcome State Fault Refusal :=
  devStep (fun d => d.when (d.live && d.stage == 2) (fun d =>
    let d := d.setStage 3
    if boardOk table then
      let d := d.wrs 0x10060 (digestWords (Config.shake256 (table.take 0x4340)))
      let d := (List.range 64).foldl (fun d g => d.sf (aLN_GROUP_CFG g) 0 2 (bfld table (0x40 + 4 * g) 0 2)) d
      let d := (List.range 528).foldl (fun d l => d.setLane l { d.lane l with alts := rdLE table (0x140 + 32 * l) 32 }) d
      d.startPorts
    else (d.sb aBT_STAT 5 true).security 2)) s

/-- The kept fences of Smelters are applied (R458): the spare of a deck stands in for its first fenced Smelter (log 33). -/
def Dev.applySmelters (d : Dev) (k : Nat) : Dev :=
  let d := (d.dp.keptS.filter (fun p => p / 17 == k)).foldl (fun d p => d.sb (aDP_FENCE_S + 4 * (p / 32)) (p % 32) true) d
  if d.smFenced (17 * k + 16) then d.sb aSM_SPARE (8 * k + 6) true
  else match (List.range 16).find? (fun i => d.smFenced (17 * k + i)) with
    | some i => d.sf aSM_SPARE (8 * k) 6 (16 * k + i)
    | none => d

/-- The kept fences of sorters are applied (R458): the spare of a deck stands in for its first fenced sorter, the others' groups are lost. -/
def Dev.applySorters (d : Dev) (k : Nat) : Dev :=
  let ps := d.dp.keptSort.filter (fun p => p / 17 == k)
  let d := ps.foldl (fun d p => d.sb (aDP_FENCE_SORT + 4 * (p / 32)) (p % 32) true) d
  ((List.range 16).filter (fun i => d.sorterFenced (17 * k + i))).foldl (fun d i => d.replaceSorter (16 * k + i)) d

/-- UNITS_STAGE_DONE (R474): kept fences are applied and logical units assigned, once the domains of steps 1 to 6 are up. -/
def execUnitsStageDone (s : State) : Host.Outcome State Fault Refusal :=
  devStep (fun d => d.when (d.live && d.stage == 3 && (romDomains ++ d.unitDomains).all (fun k => d.bt.domains.contains k)) (fun d =>
    let d := d.dp.keptB.foldl (fun d p => d.sb (aDP_FENCE_B + 4 * (p / 32)) (p % 32) true) d
    let d := (List.range 4).foldl (fun d k => (d.applySmelters k).applySorters k) d
    (d.assignBenches.powerBenches).setStage 4)) s

/-- MEMORY_STAGE_DONE (R458, R474): every byte of stacked memory is zero, retired pages are replaced, and the device is READY; CANARY
starts (R455). -/
def execMemoryStageDone (s : State) : Host.Outcome State Fault Refusal :=
  memStep (fun d m =>
    if d.live && d.stage == 4 then
      let d := (List.range 8).foldl (fun d k =>
        let n := (d.me.retired.filter (fun x => x.1 == k)).length
        (d.sf (aMEM_SPARE k) 0 10 (512 - n)).sf (aMEM_SPARE k) 16 16 n) d
      ({ d with dp := { d.dp with canaryOn := true, canaryMs := msIndex d.now, canaryAt := d.tm.cycle } }.setStage 5, [])
    else (d, m)) s

/-! ## Firmware updates (R480) -/

/-- What R480 says of a FW_UPDATE at fetch: a status, or none where the image is to be written. -/
def Dev.fwJudge (d : Dev) (f : Fetched) : Option Nat :=
  let len := rdLE f.bytes 24 4
  let flags := rdLE f.bytes 28 1
  if 4 ≤ flags ∨ (flags / 2 = 1 ∧ len ≠ 0) then some stBAD_OPCODE
  else if flags / 2 = 1 then some stOK
  else if len = 0xFFFFFFFF ∨ 1048576 < len then some stLENGTH_RANGE
  else if len = 0 then some stOK
  else if !d.inWindow f.ref.ring (rdLE f.bytes 16 8) len then some stACCESS
  else if d.bt.update.isSome then some stCONFLICT
  else none

/-- The bank that is not running (R480). -/
def Dev.idleBank (d : Dev) : Nat := if d.gb aBT_STAT 3 then 0 else 1

/-- FW_UPDATE (R480): the VALID mark of the idle bank is cleared, and its writing begins. `image` is what the host's memory holds. -/
def execFwUpdate (r : Nat) (image : Bytes) (s : State) : Host.Outcome State Fault Refusal :=
  devStep (fun d => match d.takeFetched r (fun f => f.ref.op == 0x80 && bfld f.bytes 28 1 1 == 0) with
    | none => d
    | some (f, d) => match d.fwJudge f with
      | some st => d.completeS f.ref st
      | none => { d with bt := { d.bt with bank := lset d.idleBank ([], false) d.bt.bank,
                                           update := some (f.ref, bfld f.bytes 28 0 1 == 1, padTo (rdLE f.bytes 24 4) image) } }) s

/-- FW_UPDATE_RAISE (R480): SVN_MIN takes the running SVN, and never falls. -/
def execFwUpdateRaise (r : Nat) (s : State) : Host.Outcome State Fault Refusal :=
  devStep (fun d => match d.takeFetched r (fun f => f.ref.op == 0x80 && bfld f.bytes 28 1 1 == 1) with
    | none => d
    | some (f, d) => match d.fwJudge f with
      | some st =>
        let d : Dev := if st = stOK then { d with bt := { d.bt with svnMin := max d.bt.svnMin (d.rg 0x10004).toNat } } else d
        d.completeS f.ref st
      | none => d) s

/-- FW_UPDATE_DONE (R480): the bank is verified, and only then VALID. -/
def execFwUpdateDone (s : State) : Host.Outcome State Fault Refusal :=
  devStep (fun d => match d.bt.update with
    | none => d
    | some (ref, activate, image) => d.when d.live (fun d =>
      let ok := d.fwImageOk image
      let i := d.idleBank
      let d : Dev := { d with bt := { d.bt with update := none, bank := lset i (image, ok) d.bt.bank,
                                                active := if ok && activate then i else d.bt.active } }
      d.completeS ref (if ok then stOK else stBAD_OPCODE))) s

/-! ## Attestation (R482 to R486) -/

/-- What R482 says of an ATTEST at fetch. -/
def Dev.attestJudge (d : Dev) (f : Fetched) : Option Nat :=
  let len := rdLE f.bytes 56 4
  if len = 0xFFFFFFFF ∨ (len ≠ 0 ∧ len < 14454) then some stLENGTH_RANGE
  else if len = 0 then some stOK
  else if !d.inWindow f.ref.ring (rdLE f.bytes 48 8) len then some stACCESS
  else if d.gb aBT_STAT 6 ∨ d.stage = 6 then some stUNIT_FENCED
  else if 16 ≤ d.bt.attests.length then some stCONFLICT
  else none

/-- ATTEST (R482). -/
def execAttest (r : Nat) (s : State) : Host.Outcome State Fault Refusal :=
  devStep (fun d => match d.takeFetched r (fun f => f.ref.op == 0x81) with
    | none => d
    | some (f, d) => match d.attestJudge f with
      | some st => d.completeS f.ref st
      | none => { d with bt := { d.bt with attests := d.bt.attests ++ [(f.ref, f.bytes)] } }) s

/-- Reserve indices above `i` (R485): each try writes the next slot, with `good` saying what its read-back finds; `n` bounds the tries.
The second value says whether one succeeded. -/
def Dev.reserveIdx (d : Dev) (i gen : Nat) : Nat → List Bool → Dev × Bool
  | 0, _ => (d, false)
  | n + 1, good =>
    let ok := good.headD true
    let res := min (i + 256) (2 ^ 40)
    let d : Dev := { d with bt := { d.bt with slots := mput ⟨0, 0, false⟩ ((gen + 1) % 64) ⟨res, gen + 1, ok⟩ d.bt.slots } }
    if ok then (d.wr64 0x1001C res, true) else d.reserveIdx i (gen + 1) n good.tail

/-- Ones among the first `n` bits of registers. -/
def Dev.onesOf (d : Dev) (a n : Nat) : Nat := ((List.range n).filter (fun i => d.gb (a + 4 * (i / 32)) (i % 32))).length

/-- Bytes 0 to 255 of the report (R483). -/
def Dev.reportHead (d : Dev) (nonce : Bytes) : Bytes :=
  toLE 4 0x5441584B ++ toLE 2 1 ++ [Config.stepping] ++ toLE 1 Config.grade.toNat ++ toLE 8 Config.serial.toNat ++ nonce ++
  toLE 8 d.now.toNat ++ toLE 4 (d.rg 0x10004).toNat ++ toLE 4 d.bt.svnMin ++
  (List.range 8).flatMap (fun i => toLE 4 (d.rg (0x10040 + 4 * i)).toNat) ++
  (List.range 8).flatMap (fun i => toLE 4 (d.rg (0x10060 + 4 * i)).toNat) ++
  d.shapeRecord.flatMap (fun w => toLE 4 w.toNat) ++ toLE 4 (d.rg aSU_HOURS).toNat ++
  toLE 4 ((d.gb aBT_STAT 5).toNat + 2 * (d.gb aBT_STAT 4).toNat + 4 * d.degraded.toNat) ++
  [BitVec.ofNat 8 (d.onesOf aDP_FENCE_B 136), BitVec.ofNat 8 (d.onesOf aDP_FENCE_S 68), BitVec.ofNat 8 (d.onesOf aDP_FENCE_SORT 68), 0] ++
  toLE 4 d.me.retired.length ++ List.replicate 96 0

/-- The report signed with an index (R478, R483): the signature begins with the index, its most significant byte first (RFC 8391). -/
def Dev.reportOf (d : Dev) (nonce : Bytes) (i : Nat) : Bytes :=
  let head := d.reportHead nonce
  head ++ (toLE 5 i).reverse ++ (padTo 5605 (Config.xmssSign i head)).drop 5 ++ padTo 5689 Config.deviceCert ++ padTo 2904 Config.mfgCert

/-- The rate limit of R482 allows a signature. -/
def Dev.signDue (d : Dev) : Bool :=
  match d.bt.signedAt with
  | none => true
  | some t => decide (d.since t < 0) || decide (2 ^ 30 ≤ d.since t)

/-- Sign the report of an ATTEST with the next index (R482, R485, R486). -/
def Dev.signReport (d : Dev) (x : DescRef × Bytes) : Dev :=
  let i := d.btIdx
  let d := if x.1.gen = d.hi.gen then d.emit (.hostWrite (rdLE x.2 48 8) (d.reportOf (sl x.2 16 32) i)) else d
  let d := { d.wr64 0x10014 (i + 1) with bt := { d.bt with signedAt := some d.now } }
  let d : Dev := if i + 1 < 2 ^ 40 then d else { (d.sb aBT_STAT 6 true).security 4 with bt := { d.bt with idOff := true } }
  d.completeS x.1 stOK

/-- ATTEST_SIGN (R485): the oldest ATTEST is signed; an index is used only below a reservation that has been read back intact. -/
def execAttestSign (goodWrites : List Bool) (s : State) : Host.Outcome State Fault Refusal :=
  devStep (fun d => match d.bt.attests with
    | [] => d
    | x :: rest => d.when (d.live && d.signDue) (fun d =>
      let d : Dev := { d with bt := { d.bt with attests := rest } }
      if d.gb aBT_STAT 6 then d.completeS x.1 stUNIT_FENCED
      else if d.btIdx < d.btRes then d.signReport x
      else match d.topSlot with
        | none => d.completeS x.1 stUNIT_FENCED
        | some t =>
          let r := d.reserveIdx d.btIdx t.2.gen 4 goodWrites
          if r.2 then r.1.signReport x else ((r.1.sb aBT_STAT 6 true).security 4).completeS x.1 stUNIT_FENCED)) s

/-- CODE_DIGEST_CHECK (R487). -/
def execCodeDigestCheck (changed : Bool) (s : State) : Host.Outcome State Fault Refusal :=
  devStep (fun d => d.when (d.live && changed) (fun d => d.security 5)) s

/-! ## Rails (R506, R507, R509) -/

/-- A rail lies within its window: VDD_DECK0 to 3, VDD_FLOOR, VDD_SERDES, VDDA_SERDES, VDD_DRAM, VDD_IO, in mV. For 2 µs after a change of
code a deck's old window counts too. -/
def Dev.railOk (d : Dev) (i mv : Nat) : Bool :=
  let within := fun (lo hi : Nat) => decide (lo ≤ mv) && decide (mv ≤ hi)
  let deck := fun (c : Nat) => within (580 + 5 * c) (620 + 5 * c)
  match i with
  | 4 => within 825 875
  | 5 => within 873 927
  | 6 => within 1164 1236
  | 7 => within 1067 1133
  | 8 => within 1746 1854
  | _ => deck (d.gf (aSU_VDD i) 0 8) || (decide (0 ≤ d.since (d.deck i).vddAt) && decide (d.since (d.deck i).vddAt ≤ 8590) && deck (d.deck i).codeWas)

/-- RAIL_CHECK (R509): each microsecond; a rail outside its window for 10 µs raises POWER source 1. -/
def execRailCheck (millivolts : List Nat) (s : State) : Host.Outcome State Fault Refusal :=
  devStep (fun d => d.when (d.live && decide (1000 ≤ d.tm.cycle - d.bt.railAt)) (fun d =>
    let now := d.tm.cycle
    let outside := ((List.range 9).filter (fun i => (millivolts[i]?).any (fun mv => !d.railOk i mv))).foldl (fun m i =>
      mput none i (some ((mget none i d.bt.railOut).getD now)) m) []
    let d : Dev := { d with bt := { d.bt with railAt := now, railOut := outside } }
    if outside.any (fun e => e.2.any (fun t => decide (10000 ≤ now - t))) then d.supplyEvent else d)) s

end Sys2Proof.Machine
end

