-- ==== Sys2Proof/Machine/Control.lean ====
section
/-! DEFINITION. The rings (R381 to R386), host reads that fail (R382), the Function Level Reset (R381), locks (R495), accesses of a
wrong size (R491), and the write of any register (R5, R6, R492, R516). -/

namespace Sys2Proof.Machine

/-! ## Rings (R383, R386, R408) -/

/-- A pending SWAP's descriptor is aborted before its DRAIN strike: its comparators are free (R386). -/
def Dev.abortSwap (d : Dev) (p : DescRef → Bool) : Dev :=
  match d.fb.swap with
  | none => d
  | some w => d.when (p w.ref && !w.drained) (fun d =>
      let d : Dev := { d with fb := { d.fb with swap := none } }
      (((d.dropCmp .drain).dropCmp .swap).sb aRT_STAT 16 false).completeS w.ref stABORTED)

/-- A pending TWIN_PROMOTE is aborted (R386). -/
def Dev.abortPromote (d : Dev) (p : DescRef → Bool) : Dev :=
  match d.tw.promote with
  | none => d
  | some ref => d.when (p ref) (fun d =>
      let d : Dev := { d with tw := { d.tw with promote := none } }
      (d.dropCmp .promote).completeS ref stABORTED)

/-- A batch of a TWIN_COMMIT or TWIN_SYNC is aborted before its strike (R386). DESIGN CHOICE (log 103): where the lead has not told the
follower to apply it, the batch ends as one that is not applied; where it has, the batch runs on and only its descriptor completes. -/
def Dev.abortBatch (d : Dev) (p : DescRef → Bool) : Dev :=
  match d.tw.batch with
  | none => d
  | some b => d.when (p b.ref && !b.told) (fun d =>
      if b.go = some true then ({ d with tw := { d.tw with batch := some { b with told := true } } }).twComplete b.ref stABORTED b.num
      else (d.dropCmp (.twinCommit b.num)).leadStrike b)

/-- Every fetched descriptor that a test names and that has not launched completes with ABORTED; one that has joined a group operation
aborts that operation (R229, R386). A launch or send whose strike has fired, or that has none, has launched, whatever it waits for (R35). -/
def Dev.abortDesc (d : Dev) (m : List Host.Cell) (p : DescRef → Bool) : Dev × List Host.Cell :=
  let held := d.hi.fetched.filter (fun f => p f.ref)
  let d : Dev := { d with hi := { d.hi with fetched := d.hi.fetched.filter (fun f => !p f.ref) } }
  let d := held.foldl (fun (d : Dev) f => d.completeS f.ref stABORTED) d
  let ops := d.cl.ops.filter (fun o => !o.launched && o.joins.any (fun j => p j.2))
  let d := ops.foldl (fun (d : Dev) o => d.opFail o.group o.opseq stABORTED true none) d
  let sends := d.me.sends.filter (fun w => !w.ready && p w.ref)
  let d := sends.foldl (fun (d : Dev) w => d.sendEnd w stABORTED) d
  let d := ((d.abortSwap p).abortPromote p).abortBatch p
  let sigs := d.bt.attests.filter (fun x => p x.1)
  let d : Dev := { d with bt := { d.bt with attests := d.bt.attests.filter (fun x => !p x.1) } }
  let d := sigs.foldl (fun (d : Dev) x => d.completeS x.1 stABORTED) d
  let runs := d.as_.launches.filter (fun l => !l.ready && p l.ref)
  runs.foldl (fun (r : Dev × List Host.Cell) l => r.1.launchFail r.2 l.id stABORTED) (d, m)

/-- Whether a ring's context admits EN 1 (R383). -/
def Dev.ringOk (d : Dev) (r : Nat) : Bool :=
  let a := aRING r
  let page := fun (o : Nat) => d.gf (a + o) 0 12 == 0
  decide (d.gf a 8 4 ≤ 12) && decide (d.gf a 12 4 ≤ 12) && decide (d.gf a 8 4 ≤ d.gf a 12 4) && page 0x8 && page 0x10 && page 0x18 && page 0x20 &&
  decide (d.gf (a + 0x28) 0 16 < d.sqSize r) && decide (d.gf (a + 0x2C) 0 16 < d.cqSize r) && d.gb aHI_CFG 0

/-- A ring starts (R383, R386): RUN with no cause. A post whose doorbell word was read while the ring was not in RUN is not lost (R389); a
SQ_TAIL so read that lies beyond the queue stops the ring. -/
def Dev.ringStart (d : Dev) (r : Nat) : Dev :=
  let d := d.wr (aRING r + 4) 1
  let d := { d with hi := { d.hi with blocked := mput 0 r 0 d.hi.blocked } }
  if (mget none r d.hi.tails).any (fun t => decide (d.sqSize r ≤ t)) then (d.stopRing r 2).report 8 2 0 0 else d

/-- The fields of RING_CTRL that a write may change only while the ring is OFF (R408). -/
def ringFixed : W32 := 0x07FFFF02

/-- A write of RING_CTRL is refused whole (R383, R408). -/
def Dev.ringRefuses (d : Dev) (r : Nat) (v : W32) : Bool :=
  if d.ringState r = 0 then bitAt v 0 && !(Dev.plainWrite (aRING r) v d).ringOk r
  else (v ^^^ d.rg (aRING r)) &&& ringFixed != 0

/-- RING_CTRL of ring `r` (R383, R386, R408): EN starts or drains; ABORT acts in DRAINING. -/
def ringCtrlEffect (r : Nat) (v : W32) (d : Dev) (m : List Host.Cell) : Dev × List Host.Cell :=
  let a := aRING r
  if d.ringRefuses r v then (d.sb aHI_STAT 0 true, m) else
  let st := d.ringState r
  let d := Dev.plainWrite a v d
  if st = 0 then (if bitAt v 0 then d.ringStart r else d, m)
  else if st = 2 then
    let d := d.sb a 0 false
    if bitAt v 3 then d.abortDesc m (fun x => x.ring == r && x.gen == d.hi.gen) else (d, m)
  else (if bitAt v 0 then d else d.sf (a + 4) 0 2 (if d.gf (a + 0x34) 0 17 = 0 then 0 else 2), m)

/-- A 4-byte write of a ring's RING_CTRL. -/
def ringWrite (r : Nat) (v : W32) (s : State) : Host.Outcome State Fault Refusal :=
  memStep (fun d m => if r < 8192 then
      match d.barSees (aRING r) v with
      | none => (d.barMarks (aRING r) v, m)
      | some w => ringCtrlEffect r w (d.barMarks (aRING r) v) m
    else (d, m)) s

/-- RING_ENABLE (R383). -/
def execRingEnable (r : Nat) (v : W32) (s : State) : Host.Outcome State Fault Refusal := ringWrite r v s

/-- RING_DRAIN (R386). -/
def execRingDrain (r : Nat) (v : W32) (s : State) : Host.Outcome State Fault Refusal := ringWrite r v s

/-- RING_ABORT (R386). -/
def execRingAbort (r : Nat) (v : W32) (s : State) : Host.Outcome State Fault Refusal := ringWrite r v s

/-- What the doorbell word of a ring gave is forgotten once its context is written anew: SQ_TAIL with SQ_HEAD, CQ_HEAD with CQ_TAIL.
DESIGN CHOICE (log 24). -/
def Dev.forgetDoorbell (d : Dev) (a : Nat) : Dev :=
  let r := (a - 0x500000) / 0x40
  if a % 0x40 = 0x28 then { d with hi := { d.hi with tails := mput none r none d.hi.tails } }
  else if a % 0x40 = 0x2C then { d with hi := { d.hi with heads := mput none r none d.hi.heads } }
  else d

/-- A word of a ring's context (R408): written only while the ring is OFF. -/
def ringWordEffect (a : Nat) (v : W32) (d : Dev) : Dev :=
  if d.ringState ((a - 0x500000) / 0x40) = 0 then (Dev.plainWrite a v d).forgetDoorbell a else d.sb aHI_STAT 0 true

/-- DESCRIPTOR_FETCH (R391 to R399): an ASSAY_RUN is held back while 256 launches wait (R297). -/
def execDescriptorFetch (r : Nat) (bytes : Bytes) (s : State) : Host.Outcome State Fault Refusal :=
  devStep (fun d => d.when (decide (r < 8192)) (fun d => d.fetch r bytes)) s

/-! ## Failed host reads (R382) -/

/-- The opcodes that read host memory: SHARD_DEFINE, SHARD_SCHED, ASSAY_LOAD, WS_SEND, GROUP_SET, FLOW_CTX and FW_UPDATE (SHARD_IO and
MEM_COPY read theirs as they run). -/
def readsHost (f : Fetched) : Bool :=
  f.ref.op == 0x30 || f.ref.op == 0x31 || f.ref.op == 0x41 || f.ref.op == 0x61 || (f.ref.op == 0x62 && bfld f.bytes 32 0 2 == 0) || f.ref.op == 0x52 || f.ref.op == 0x80

/-- A failed host read is counted and reported (R382). -/
def Dev.hostErr (d : Dev) : Dev := (d.count aCNT_HOST_ERR).report 8 1 0 0

/-- The operation of a ring and slot fails with DATA_LOST because the host's memory failed to give its data. -/
def Dev.hostDataLost (d : Dev) (m : List Host.Cell) (r slot : Nat) : Dev × List Host.Cell :=
  let is := fun (x : DescRef) => x.ring == r && x.slot == slot && x.gen == d.hi.gen
  match takeFirst (fun f : Fetched => is f.ref && readsHost f) d.hi.fetched with
  | some (f, rest) => (({ d with hi := { d.hi with fetched := rest } }.hostErr).completeS f.ref stDATA_LOST, m)
  | none =>
  match d.me.copies.find? (fun x => is x.ref && bfld x.body 16 0 1 == 0) with
  | some x => d.hostErr.copyEnd m x.id stDATA_LOST []
  | none =>
  match d.sh.xfers.find? (fun x => is x.ref && bfld x.body 18 0 2 != 1) with
  | some x => (d.hostErr.shardIoEnd x.id stDATA_LOST [], m)
  | none =>
  match d.bt.update with
  | some u => if is u.1 then (({ d with bt := { d.bt with update := none } }.hostErr).completeS u.1 stDATA_LOST, m) else (d, m)
  | none => (d, m)

/-- HOST_READ_ERROR (R382): without a slot, the read of a descriptor or a doorbell word fails and the ring stops; with one, the read of
data for the operation of that slot. -/
def execHostReadError (r : Nat) (slot : Option Nat) (s : State) : Host.Outcome State Fault Refusal :=
  memStep (fun d m =>
    if !d.live || !decide (r < 8192) then (d, m) else
    match slot with
    | none => ((if d.ringState r = 1 then d.stopRing r 3 else d).hostErr, m)
    | some i => d.hostDataLost m r i) s

/-! ## Function Level Reset (R381, R495) -/

/-- The registers after a Function Level Reset: those of the host interface at their reset values but for HI_STAT.FLR_SEEN and the CAUSE
of every ring. -/
def flrRegs (regs : SMap W32) : SMap W32 :=
  regs.filter (fun e => decide (e.1 < 0x400000)) ++ [(aHI_STAT, 4)] ++ (List.range 8192).map (fun r => (aRING r + 4, 0x40)) ++
  regs.filter (fun e => decide (0x600000 ≤ e.1))

/-- FUNCTION_LEVEL_RESET (R381): what has not launched is aborted, what has runs on and writes nothing more to host memory; lock bit 9 is
clear (R495). -/
def execFunctionLevelReset (s : State) : Host.Outcome State Fault Refusal :=
  memStep (fun d m => if !d.live then (d, m) else
    let r := d.abortDesc m (fun x => x.gen == d.hi.gen)
    let d := r.1
    let d : Dev := { d with regs := flrRegs d.regs, hi := { HostSt.init with gen := d.hi.gen + 1, fetchNum := d.hi.fetchNum } }
    (d.sb aCTL_LOCK 9 false, r.2)) s

/-! ## Control block (R491, R495, R498) -/

/-- CTL_LOCK_SET (R495). -/
def ctlLockEffect (v : W32) (d : Dev) : Dev := d.wr aCTL_LOCK (d.rg aCTL_LOCK ||| (v &&& 0x3FFF))

/-- CTL_LOCK_SET (R495). -/
def execCtlLockSet (v : W32) (s : State) : Host.Outcome State Fault Refusal := devStep (fun d => d.barWrite 0xC v ctlLockEffect) s

/-- A size and alignment that BAR0 accepts (R491). -/
def barSizeOk (addr size : Nat) : Bool := (size == 4 && addr % 4 == 0) || (size == 8 && addr % 8 == 0)

/-- An access of a size or alignment that BAR0 does not accept (R491): a read returns zero; BAD_ACCESS is set unless the device has stopped. -/
def Dev.badAccess (d : Dev) (write : Bool) (addr : Nat) : Dev :=
  let d := if write then d else d.emit (.readValue addr 0)
  if d.stopped then d else d.ctlEvent 1 addr

/-- BAR0_BAD_ACCESS (R491). -/
def execBar0BadAccess (write : Bool) (addr size : Nat) (s : State) : Host.Outcome State Fault Refusal :=
  devStep (fun d => d.when (d.perst && !barSizeOk addr size) (fun d => d.badAccess write addr)) s

/-! ## Shaping counters (R170) -/

/-- SV_CNT_CLR (R170). -/
def svCntClrEffect (v : W32) (d : Dev) : Dev := if bitAt v 0 then d.clearRegs aCNT_POL_RED_DROP 4 4 else d

/-- SV_CNT_CLR (R170). -/
def execSvCntClr (v : W32) (s : State) : Host.Outcome State Fault Refusal := devStep (fun d => d.barWrite 0x200014 v svCntClrEffect) s

/-! ## Registers without a row of their own -/

/-- A write that a field map ignores for its value is ignored whole (R516). -/
def keepIf (ok : Bool) (a : Nat) (v : W32) (d : Dev) : Dev := if ok then Dev.plainWrite a v d else d

/-- A plain write of a register that a pair mirrors (R429). -/
def mirroredWrite (a : Nat) (v : W32) (d : Dev) : Dev := (Dev.plainWrite a v d).mirror (.reg a v)

/-- LR_CFG: a SHARED_MIN that the reservations do not leave is refused as R126 refuses a reservation. -/
def lrCfgEffect (v : W32) (d : Dev) : Dev :=
  let n := Dev.plainWrite aLR_CFG v d
  if n.reserveLimit < d.sumReserved then d.sb aLR_STAT 1 true else n

/-- MEM_REF_BASE: the series of the enabled stacks follow it (R366). -/
def memRefBaseEffect (a : Nat) (v : W32) (d : Dev) : Dev :=
  (List.range 8).foldl (fun (d : Dev) s => if d.gb (aMEM_REF s) 0 then d.rearm (.refresh s) (d.refFirst s) else d) (Dev.plainWrite a v d)

/-- PORT_KIND (R94, R117): a reserved KIND is ignored; what the new kind fences is dealt with (R136). -/
def portKindEffect (a : Nat) (v : W32) (d : Dev) : Dev := if 4 < fld v 0 3 then d else (mirroredWrite a v d).afterFence

/-- The plant-time block (R49, R171). -/
def timeEffect (a : Nat) (v : W32) (d : Dev) : Dev :=
  if a = aPT_CTRL then ptCtrlEffect v d
  else if a = aPT_RATE_LO then ptRateLoEffect v d
  else if a = aPT_RATE_HI then ptRateHiEffect v d
  else if a = aPT_STEP_LO then { d with tm := { d.tm with stepLo := v } }
  else if a = aPT_STEP_HI then ptStepEffect v d
  else if a = aPT_SERVO then keepIf (fld v 0 8 != 0) a v d
  else if a = aPT_MARK then keepIf (decide (20 ≤ fld v 0 5) && decide (fld v 0 5 ≤ 28)) a v d
  else if a = aBEAT_CFG then keepIf (fld v 0 2 != 2) a v d
  else if a = aBEAT_STAT then beatStatEffect v d
  else if a = aPT_CMP_RES then ptCmpResEffect v d
  else if a < 0x21000 then Dev.plainWrite a v d
  else if a < 0x22000 then
    let g := (a - 0x21000) / 0x40
    if a = aGE g then geCtrlEffect g v d else if a = aGE g + 0x14 then geSwapEffect g v d else Dev.plainWrite a v d
  else if mirroredReg a then mirroredWrite a v d else Dev.plainWrite a v d

/-- The lane block (R85). -/
def laneEffect (a : Nat) (v : W32) (d : Dev) : Dev :=
  if a < 0x30100 then (lnGroupCfgEffect ((a - 0x30000) / 4) v d).afterFence
  else if a = aLN_CNT_CLR then lnCntClrEffect v d
  else if a = aLN_UNFENCE then (lnUnfenceEffect v d).afterFence
  else Dev.plainWrite a v d

/-- The Lamp Room block (R148). -/
def lampEffect (a : Nat) (v : W32) (d : Dev) : Dev :=
  if a = aLR_CFG then lrCfgEffect v d
  else if a = 0x40034 then lrCntClrEffect v d
  else if 0x40400 ≤ a ∧ a < 0x40600 then qtUnitEffect ((a - 0x40400) / 4) v d
  else if 0x41000 ≤ a ∧ a < 0x42000 then
    let p := (a - 0x41000) / 16
    if a = aQT_PORT_QF p then qtPortQfEffect p v d
    else if a = aQT_PORT_PC p then qtPortPcEffect p v d
    else if a = aQT_PORT_SHARE p then mirroredWrite a v d
    else qtPortRsqEffect p v d
  else if 0x43000 ≤ a ∧ a < 0x44000 then fdMapEffect ((a - 0x43000) / 4) v d
  else Dev.plainWrite a v d

/-- The blocks of the units that compute, the twin and the Deputy (R203, R246, R305, R423, R441, R466, R467, R361). -/
def unitEffect (a : Nat) (v : W32) (d : Dev) : Dev :=
  if a = 0x50004 then ntClrEffect v d
  else if a = aSM_CFG then smCfgEffect v d
  else if a = 0x60040 then smCntClrEffect v d
  else if aRCP 16 ≤ a ∧ a < aRCP 64 then rcpEffect ((a - 0x61000) / 0x80) ((a - 0x61000) % 0x80 / 4) v d
  else if a = aAS_PROFILE then asProfileEffect v d
  else if a = aAS_RESV then asResvEffect v d
  else if a = 0x70048 then asCntClrEffect v d
  else if a = aREP_COMPAT then repCompatEffect v d
  else if a = aTW_CFG then twCfgEffect v d
  else if a = 0x90054 then twCntClrEffect v d
  else if a = 0xA000C then dpAckEffect v d
  else if a = aDP_THERM then dpThermEffect v d
  else if a = 0xA0020 then dpFenceClrEffect v d
  else if a = 0xA0024 then dpCntClrEffect v d
  else if a = aSU_WIN_BASE_LO ∨ a = aSU_WIN_BASE_LO + 4 then suBaseEffect a v d
  else if a = aSU_WIN 0 then suWinEffect 0 v d
  else if a = aSU_WIN 1 then suWinEffect 1 v d
  else if aUP_POOL 0 ≤ a ∧ a < aUP_POOL 4 then upPoolEffect ((a - aUP_POOL 0) / 4) v d
  else if a = 0xC0014 then upCntClrEffect v d
  else if a = aMEM_REF_BASE_LO ∨ a = aMEM_REF_BASE_LO + 4 then memRefBaseEffect a v d
  else if a = 0x100028 then memCntClrEffect v d
  else if aMEM_REF 0 ≤ a ∧ a < aMEM_REF 8 then memRefEffect ((a - aMEM_REF 0) / 4) v d
  else Dev.plainWrite a v d

/-- The shaping block (R170). -/
def shapingEffect (a : Nat) (v : W32) (d : Dev) : Dev :=
  if a = 0x200014 then svCntClrEffect v d
  else if 0x200020 ≤ a ∧ a < 0x200040 then svClassLenEffect ((a - 0x200020) / 4) v d
  else if 0x200400 ≤ a ∧ a < 0x200800 then svGateBindEffect ((a - 0x200400) / 4) v d
  else if 0x210000 ≤ a ∧ a < 0x218000 then svQuantEffect ((a - 0x210000) / 0x80) ((a - 0x210000) % 0x80 / 4) v d
  else if 0x300000 ≤ a ∧ a < 0x380000 then
    if a % 32 = 12 then polCommitEffect ((a - 0x300000) / 32) v d
    else if a % 32 < 12 then mirroredWrite a v d
    else Dev.plainWrite a v d
  else Dev.plainWrite a v d

/-- The routing block (R117). -/
def routeEffect (a : Nat) (v : W32) (d : Dev) : Dev :=
  if a = aRT_CFG then keepIf (decide (20 ≤ fld v 0 6) && decide (fld v 0 6 ≤ 36)) a v d
  else if a = 0x800028 then rtCntClrEffect v d
  else if 0x800400 ≤ a ∧ a < 0x800800 then portKindEffect a v d
  else if 0x900000 ≤ a ∧ a < 0x980000 then dtShadowEffect ((a - 0x900000) / 16) (a % 16 / 4) v d
  else if 0x980000 ≤ a ∧ a < 0xA00000 then (Dev.plainWrite a v d).afterFence
  else if 0xA00000 ≤ a ∧ a < 0xA20000 then spShadowEffect ((a - 0xA00000) / 0x800) ((a - 0xA00000) % 0x800 / 4) v d
  else Dev.plainWrite a v d

/-- What the register at an address does with a write that reaches it, RING_CTRL, MEM_PART and MEM_WS apart. -/
def regEffect (a : Nat) (v : W32) (d : Dev) : Dev :=
  if a = 0xC then ctlLockEffect v d
  else if a < 0x20000 then Dev.plainWrite a v d
  else if a < 0x30000 then timeEffect a v d
  else if a < 0x40000 then laneEffect a v d
  else if a < 0x50000 then lampEffect a v d
  else if a < 0x140000 then unitEffect a v d
  else if a < 0x400000 then shapingEffect a v d
  else if a < 0x600000 then
    if a = aHI_CFG then hiCfgEffect v d
    else if a = 0x40002C then hiCntClrEffect v d
    else if 0x500000 ≤ a ∧ a % 0x40 ≤ 0x30 then ringWordEffect a v d
    else Dev.plainWrite a v d
  else if a < 0xC00000 then routeEffect a v d
  else if a = 0xC00014 then clCntClrEffect v d
  else Dev.plainWrite a v d

/-- REGISTER_WRITE (R5, R6, R452, R490 to R498, R516): a 4-byte write of any register; one that has a command of its own acts as that command
does. An address of 0x1000_0000 or above names BAR2, whose table it writes (R379). -/
def execRegisterWrite (addr : Nat) (v : W32) (s : State) : Host.Outcome State Fault Refusal :=
  if 0x10000000 ≤ addr then devStep (fun d => d.when (d.live && addr % 4 == 0) (fun d => d.bar2Write (addr - 0x10000000) v)) s
  else if addr % 4 ≠ 0 then devStep (fun d => d.when d.perst (fun d => d.badAccess true addr)) s
  else if 0x500000 ≤ addr ∧ addr < 0x580000 ∧ addr % 0x40 = 0 then ringWrite ((addr - 0x500000) / 0x40) v s
  else if addr = aMEM_WS ∨ (aMEM_PART 0 ≤ addr ∧ addr < aMEM_PART 4) then partWrite addr v s
  else devStep (fun d => d.barWrite addr v (regEffect addr)) s

end Sys2Proof.Machine
end

