-- ==== Sys2Proof/Machine/Package.lean ====
section
/-! DEFINITION. The JTAG port (R505): what each instruction shifts out or drives. It gives no access to the units, the memories or the
embedded store. -/

namespace Sys2Proof.Machine

/-- IDCODE (R505): the letter of the stepping, 0x9800, eleven zeros, and a one. -/
def idcode : Nat := 2 ^ 28 * (Config.stepping.toNat / 16 % 16) + 2 ^ 12 * 0x9800 + 1

/-- JTAG_BYPASS (R505, IEEE 1149.1): the register of one bit, which captures zero. -/
def execJtagBypass (s : State) : Host.Outcome State Fault Refusal := devStep (fun d => d.emit (.jtag 0 [false])) s

/-- JTAG_IDCODE (R505): 32 bits, the lowest first. -/
def execJtagIdcode (s : State) : Host.Outcome State Fault Refusal :=
  devStep (fun d => d.emit (.jtag 1 ((List.range 32).map idcode.testBit))) s

/-- JTAG_SAMPLE_PRELOAD (R505): the boundary cells are shifted; the pins go on as they are. -/
def execJtagSamplePreload (cells : List Bool) (s : State) : Host.Outcome State Fault Refusal := devStep (fun d => d.emit (.jtag 2 cells)) s

/-- JTAG_EXTEST (R505): only while PERST_N is low, the boundary cells drive the pins; the transmitters not driven stay idle. -/
def execJtagExtest (cells : List Bool) (s : State) : Host.Outcome State Fault Refusal :=
  devStep (fun d => d.when (!d.perst) (fun d => d.emit (.jtag 3 cells))) s

/-- JTAG_EXTEST_PULSE (R505, IEEE 1149.6): as EXTEST, over the AC-coupled pairs. -/
def execJtagExtestPulse (cells : List Bool) (s : State) : Host.Outcome State Fault Refusal :=
  devStep (fun d => d.when (!d.perst) (fun d => d.emit (.jtag 4 cells))) s

end Sys2Proof.Machine
end

