-- ==== Sys2Proof/Machine/Dispatch.lean ====
section
/-! DEFINITION. The dispatch: one direct call of a meaning for each command. -/

namespace Sys2Proof.Machine

/-- The effect of a command on everything but the queue. -/
def exec (i : Instr) (s : State) : Host.Outcome State Fault Refusal :=
  match i with
  | .ptStep v => Sys2Proof.Machine.execPtStep v s
  | .ptRateLoWrite v => Sys2Proof.Machine.execPtRateLoWrite v s
  | .ptRateHiWrite v => Sys2Proof.Machine.execPtRateHiWrite v s
  | .ptCtrlWrite v => Sys2Proof.Machine.execPtCtrlWrite v s
  | .ptNowLoRead => Sys2Proof.Machine.execPtNowLoRead s
  | .ptCmpResWrite v => Sys2Proof.Machine.execPtCmpResWrite v s
  | .beatStatClr v => Sys2Proof.Machine.execBeatStatClr v s
  | .beatStampLoRead => Sys2Proof.Machine.execBeatStampLoRead s
  | .ppsEdge => Sys2Proof.Machine.execPpsEdge s
  | .timeMarker p => Sys2Proof.Machine.execTimeMarker p s
  | .sourceLost => Sys2Proof.Machine.execSourceLost s
  | .timeMarkerSend p => Sys2Proof.Machine.execTimeMarkerSend p s
  | .beatInEdge rising => Sys2Proof.Machine.execBeatInEdge rising s
  | .beatMarker p => Sys2Proof.Machine.execBeatMarker p s
  | .strikeDeadline c => Sys2Proof.Machine.execStrikeDeadline c s
  | .launchStrike c => Sys2Proof.Machine.execLaunchStrike c s
  | .commitStrike c => Sys2Proof.Machine.execCommitStrike c s
  | .tableDrainStrike c => Sys2Proof.Machine.execTableDrainStrike c s
  | .tableSwapStrike c => Sys2Proof.Machine.execTableSwapStrike c s
  | .twinCommitStrike c => Sys2Proof.Machine.execTwinCommitStrike c s
  | .twinPromoteStrike c => Sys2Proof.Machine.execTwinPromoteStrike c s
  | .gateCycleStart g => Sys2Proof.Machine.execGateCycleStart g s
  | .gateEntryBoundary g => Sys2Proof.Machine.execGateEntryBoundary g s
  | .geCtrlWrite g v => Sys2Proof.Machine.execGeCtrlWrite g v s
  | .geSwapHiWrite g v => Sys2Proof.Machine.execGeSwapHiWrite g v s
  | .ppsOutPulse => Sys2Proof.Machine.execPpsOutPulse s
  | .canaryToggle => Sys2Proof.Machine.execCanaryToggle s
  | .canaryGapToggle => Sys2Proof.Machine.execCanaryGapToggle s
  | .blockLockGained l => Sys2Proof.Machine.execBlockLockGained l s
  | .blockLockLost l => Sys2Proof.Machine.execBlockLockLost l s
  | .alignSend p bips => Sys2Proof.Machine.execAlignSend p bips s
  | .align p rows => Sys2Proof.Machine.execAlign p rows s
  | .elasticIdleAdjust p add => Sys2Proof.Machine.execElasticIdleAdjust p add s
  | .flitReceive p f => Sys2Proof.Machine.execFlitReceive p f s
  | .flitSend p => Sys2Proof.Machine.execFlitSend p s
  | .retryReq p blocks => Sys2Proof.Machine.execRetryReq p blocks s
  | .retryStart p blocks => Sys2Proof.Machine.execRetryStart p blocks s
  | .retryReqTimeout p => Sys2Proof.Machine.execRetryReqTimeout p s
  | .ackTimeout p => Sys2Proof.Machine.execAckTimeout p s
  | .train p stage fences acked => Sys2Proof.Machine.execTrain p stage fences acked s
  | .lossOfSignal l => Sys2Proof.Machine.execLossOfSignal l s
  | .lossOfLock l => Sys2Proof.Machine.execLossOfLock l s
  | .laneLossFence l => Sys2Proof.Machine.execLaneLossFence l s
  | .laneLockTimeout l => Sys2Proof.Machine.execLaneLockTimeout l s
  | .bringupTimeout p => Sys2Proof.Machine.execBringupTimeout p s
  | .qualifyDone p => Sys2Proof.Machine.execQualifyDone p s
  | .lnGroupCfgWrite g v => Sys2Proof.Machine.execLnGroupCfgWrite g v s
  | .lnUnfence v => Sys2Proof.Machine.execLnUnfence v s
  | .lnCntClr v => Sys2Proof.Machine.execLnCntClr v s
  | .packetArrive p => Sys2Proof.Machine.execPacketArrive p s
  | .sorterClassify g => Sys2Proof.Machine.execSorterClassify g s
  | .rsqGapTimeout flow => Sys2Proof.Machine.execRsqGapTimeout flow s
  | .fenceRelease p => Sys2Proof.Machine.execFenceRelease p s
  | .heldPacketTimeout p => Sys2Proof.Machine.execHeldPacketTimeout p s
  | .fencedNak p => Sys2Proof.Machine.execFencedNak p s
  | .pruned p => Sys2Proof.Machine.execPruned p s
  | .tableSwap r => Sys2Proof.Machine.execTableSwap r s
  | .oldBankRetire => Sys2Proof.Machine.execOldBankRetire s
  | .dtShadowWrite e w v => Sys2Proof.Machine.execDtShadowWrite e w v s
  | .spShadowWrite g w v => Sys2Proof.Machine.execSpShadowWrite g w v s
  | .rtCntClr v => Sys2Proof.Machine.execRtCntClr v s
  | .srEnd g f => Sys2Proof.Machine.execSrEnd g f s
  | .srDrop g f => Sys2Proof.Machine.execSrDrop g f s
  | .srLdh g f => Sys2Proof.Machine.execSrLdh g f s
  | .srLdi g f => Sys2Proof.Machine.execSrLdi g f s
  | .srLui g f => Sys2Proof.Machine.execSrLui g f s
  | .srAdd g f => Sys2Proof.Machine.execSrAdd g f s
  | .srSub g f => Sys2Proof.Machine.execSrSub g f s
  | .srAnd g f => Sys2Proof.Machine.execSrAnd g f s
  | .srOr g f => Sys2Proof.Machine.execSrOr g f s
  | .srXor g f => Sys2Proof.Machine.execSrXor g f s
  | .srShl g f => Sys2Proof.Machine.execSrShl g f s
  | .srShr g f => Sys2Proof.Machine.execSrShr g f s
  | .srHash g f => Sys2Proof.Machine.execSrHash g f s
  | .srLut g f => Sys2Proof.Machine.execSrLut g f s
  | .srJeq g f => Sys2Proof.Machine.execSrJeq g f s
  | .srJne g f => Sys2Proof.Machine.execSrJne g f s
  | .srJlt g f => Sys2Proof.Machine.execSrJlt g f s
  | .srJge g f => Sys2Proof.Machine.execSrJge g f s
  | .srJmp g f => Sys2Proof.Machine.execSrJmp g f s
  | .srOut g f => Sys2Proof.Machine.execSrOut g f s
  | .unitCellTake u => Sys2Proof.Machine.execUnitCellTake u s
  | .bufferEccError p q cell => Sys2Proof.Machine.execBufferEccError p q cell s
  | .flowCtxFetch flow => Sys2Proof.Machine.execFlowCtxFetch flow s
  | .flowCtxWrite r images => Sys2Proof.Machine.execFlowCtxWrite r images s
  | .flowCtxRead r => Sys2Proof.Machine.execFlowCtxRead r s
  | .flowCtxZero r => Sys2Proof.Machine.execFlowCtxZero r s
  | .qtPortQfWrite p v => Sys2Proof.Machine.execQtPortQfWrite p v s
  | .qtPortPcWrite p v => Sys2Proof.Machine.execQtPortPcWrite p v s
  | .qtPortRsqWrite p v => Sys2Proof.Machine.execQtPortRsqWrite p v s
  | .qtUnitWrite u v => Sys2Proof.Machine.execQtUnitWrite u v s
  | .fdMapWrite i1 v => Sys2Proof.Machine.execFdMapWrite i1 v s
  | .lrCntClr v => Sys2Proof.Machine.execLrCntClr v s
  | .packetDepart p => Sys2Proof.Machine.execPacketDepart p s
  | .policerCommit i1 v => Sys2Proof.Machine.execPolicerCommit i1 v s
  | .polLastLoRead i1 => Sys2Proof.Machine.execPolLastLoRead i1 s
  | .svQuantWrite p q v => Sys2Proof.Machine.execSvQuantWrite p q v s
  | .svClassLenWrite t v => Sys2Proof.Machine.execSvClassLenWrite t v s
  | .svGateBindWrite p v => Sys2Proof.Machine.execSvGateBindWrite p v s
  | .svCntClr v => Sys2Proof.Machine.execSvCntClr v s
  | .ntClr v => Sys2Proof.Machine.execNtClr v s
  | .smPart p => Sys2Proof.Machine.execSmPart p s
  | .smGrant p => Sys2Proof.Machine.execSmGrant p s
  | .tallyGrant floor => Sys2Proof.Machine.execTallyGrant floor s
  | .tallyTimeout group opseq => Sys2Proof.Machine.execTallyTimeout group opseq s
  | .smAbort p => Sys2Proof.Machine.execSmAbort p s
  | .smelterFault phys corrected => Sys2Proof.Machine.execSmelterFault phys corrected s
  | .redMemEccError slot owner => Sys2Proof.Machine.execRedMemEccError slot owner s
  | .rcNop sm f => Sys2Proof.Machine.execRcNop sm f s
  | .rcLdin sm f => Sys2Proof.Machine.execRcLdin sm f s
  | .rcLdacc sm f => Sys2Proof.Machine.execRcLdacc sm f s
  | .rcStacc sm f => Sys2Proof.Machine.execRcStacc sm f s
  | .rcRed sm f => Sys2Proof.Machine.execRcRed sm f s
  | .rcAdd sm f => Sys2Proof.Machine.execRcAdd sm f s
  | .rcMul sm f => Sys2Proof.Machine.execRcMul sm f s
  | .rcMax sm f => Sys2Proof.Machine.execRcMax sm f s
  | .rcMin sm f => Sys2Proof.Machine.execRcMin sm f s
  | .rcAbs sm f => Sys2Proof.Machine.execRcAbs sm f s
  | .rcNeg sm f => Sys2Proof.Machine.execRcNeg sm f s
  | .rcLdk sm f => Sys2Proof.Machine.execRcLdk sm f s
  | .rcEmit sm f => Sys2Proof.Machine.execRcEmit sm f s
  | .rcpWrite r w v => Sys2Proof.Machine.execRcpWrite r w v s
  | .smCfgWrite v => Sys2Proof.Machine.execSmCfgWrite v s
  | .smQheadLoRead => Sys2Proof.Machine.execSmQheadLoRead s
  | .smCntClr v => Sys2Proof.Machine.execSmCntClr v s
  | .allreduce r => Sys2Proof.Machine.execAllreduce r s
  | .reduce r => Sys2Proof.Machine.execReduce r s
  | .reduceScatter r => Sys2Proof.Machine.execReduceScatter r s
  | .allgather r => Sys2Proof.Machine.execAllgather r s
  | .broadcast r => Sys2Proof.Machine.execBroadcast r s
  | .alltoall r => Sys2Proof.Machine.execAlltoall r s
  | .alltoallv r => Sys2Proof.Machine.execAlltoallv r s
  | .barrier r => Sys2Proof.Machine.execBarrier r s
  | .reduceUpdateGather r => Sys2Proof.Machine.execReduceUpdateGather r s
  | .clData p => Sys2Proof.Machine.execClData p s
  | .clCount p => Sys2Proof.Machine.execClCount p s
  | .clDone p => Sys2Proof.Machine.execClDone p s
  | .orderTimeout group opseq => Sys2Proof.Machine.execOrderTimeout group opseq s
  | .groupSet r image => Sys2Proof.Machine.execGroupSet r image s
  | .groupDelete r => Sys2Proof.Machine.execGroupDelete r s
  | .clCntClr v => Sys2Proof.Machine.execClCntClr v s
  | .assayLoad r image => Sys2Proof.Machine.execAssayLoad r image s
  | .assayUnload r => Sys2Proof.Machine.execAssayUnload r s
  | .assayRun r => Sys2Proof.Machine.execAssayRun r s
  | .assayLaunchStart id => Sys2Proof.Machine.execAssayLaunchStart id s
  | .assayLaunchComplete id => Sys2Proof.Machine.execAssayLaunchComplete id s
  | .assayRunLimit id => Sys2Proof.Machine.execAssayRunLimit id s
  | .benchFault phys => Sys2Proof.Machine.execBenchFault phys s
  | .asProfileWrite v => Sys2Proof.Machine.execAsProfileWrite v s
  | .asResvWrite v => Sys2Proof.Machine.execAsResvWrite v s
  | .asCntClr v => Sys2Proof.Machine.execAsCntClr v s
  | .asEnd c => Sys2Proof.Machine.execAsEnd c s
  | .asNop c => Sys2Proof.Machine.execAsNop c s
  | .asBr c f => Sys2Proof.Machine.execAsBr c f s
  | .asJmp c rel => Sys2Proof.Machine.execAsJmp c rel s
  | .asCall c rel => Sys2Proof.Machine.execAsCall c rel s
  | .asJr c a => Sys2Proof.Machine.execAsJr c a s
  | .asFork c => Sys2Proof.Machine.execAsFork c s
  | .asJoin c => Sys2Proof.Machine.execAsJoin c s
  | .asBar c => Sys2Proof.Machine.execAsBar c s
  | .asGsync c => Sys2Proof.Machine.execAsGsync c s
  | .asMov c f => Sys2Proof.Machine.execAsMov c f s
  | .asIadd c f => Sys2Proof.Machine.execAsIadd c f s
  | .asIsub c f => Sys2Proof.Machine.execAsIsub c f s
  | .asImul c f => Sys2Proof.Machine.execAsImul c f s
  | .asImin c f => Sys2Proof.Machine.execAsImin c f s
  | .asImax c f => Sys2Proof.Machine.execAsImax c f s
  | .asAnd c f => Sys2Proof.Machine.execAsAnd c f s
  | .asOr c f => Sys2Proof.Machine.execAsOr c f s
  | .asXor c f => Sys2Proof.Machine.execAsXor c f s
  | .asShl c f => Sys2Proof.Machine.execAsShl c f s
  | .asShr c f => Sys2Proof.Machine.execAsShr c f s
  | .asSra c f => Sys2Proof.Machine.execAsSra c f s
  | .asAddi c f => Sys2Proof.Machine.execAsAddi c f s
  | .asLi c f word1 => Sys2Proof.Machine.execAsLi c f word1 s
  | .asShfl c f => Sys2Proof.Machine.execAsShfl c f s
  | .asSel c f => Sys2Proof.Machine.execAsSel c f s
  | .asFadd c f => Sys2Proof.Machine.execAsFadd c f s
  | .asFsub c f => Sys2Proof.Machine.execAsFsub c f s
  | .asFmul c f => Sys2Proof.Machine.execAsFmul c f s
  | .asFma c f => Sys2Proof.Machine.execAsFma c f s
  | .asFnma c f => Sys2Proof.Machine.execAsFnma c f s
  | .asFmin c f => Sys2Proof.Machine.execAsFmin c f s
  | .asFmax c f => Sys2Proof.Machine.execAsFmax c f s
  | .asFabs c f => Sys2Proof.Machine.execAsFabs c f s
  | .asFneg c f => Sys2Proof.Machine.execAsFneg c f s
  | .asDot2 c f => Sys2Proof.Machine.execAsDot2 c f s
  | .asDot4 c f => Sys2Proof.Machine.execAsDot4 c f s
  | .asDiv c f => Sys2Proof.Machine.execAsDiv c f s
  | .asRcp c f => Sys2Proof.Machine.execAsRcp c f s
  | .asSqrt c f => Sys2Proof.Machine.execAsSqrt c f s
  | .asRsqrt c f => Sys2Proof.Machine.execAsRsqrt c f s
  | .asExp c f => Sys2Proof.Machine.execAsExp c f s
  | .asExp2 c f => Sys2Proof.Machine.execAsExp2 c f s
  | .asLog c f => Sys2Proof.Machine.execAsLog c f s
  | .asLog2 c f => Sys2Proof.Machine.execAsLog2 c f s
  | .asTanh c f => Sys2Proof.Machine.execAsTanh c f s
  | .asSigmoid c f => Sys2Proof.Machine.execAsSigmoid c f s
  | .asSin c f => Sys2Proof.Machine.execAsSin c f s
  | .asCos c f => Sys2Proof.Machine.execAsCos c f s
  | .asCvt c f word1 => Sys2Proof.Machine.execAsCvt c f word1 s
  | .asCmp c f => Sys2Proof.Machine.execAsCmp c f s
  | .asTail c f => Sys2Proof.Machine.execAsTail c f s
  | .asMovrm c f => Sys2Proof.Machine.execAsMovrm c f s
  | .asMovmr c f => Sys2Proof.Machine.execAsMovmr c f s
  | .asMand c f => Sys2Proof.Machine.execAsMand c f s
  | .asMor c f => Sys2Proof.Machine.execAsMor c f s
  | .asMxor c f => Sys2Proof.Machine.execAsMxor c f s
  | .asMandn c f => Sys2Proof.Machine.execAsMandn c f s
  | .asMnot c f => Sys2Proof.Machine.execAsMnot c f s
  | .asRed c f => Sys2Proof.Machine.execAsRed c f s
  | .asReds c f => Sys2Proof.Machine.execAsReds c f s
  | .asSoftmax c f word1 => Sys2Proof.Machine.execAsSoftmax c f word1 s
  | .asRng c f => Sys2Proof.Machine.execAsRng c f s
  | .asLd8 c f => Sys2Proof.Machine.execAsLd8 c f s
  | .asLd16 c f => Sys2Proof.Machine.execAsLd16 c f s
  | .asLd32 c f => Sys2Proof.Machine.execAsLd32 c f s
  | .asLd64 c f => Sys2Proof.Machine.execAsLd64 c f s
  | .asSt8 c f => Sys2Proof.Machine.execAsSt8 c f s
  | .asSt16 c f => Sys2Proof.Machine.execAsSt16 c f s
  | .asSt32 c f => Sys2Proof.Machine.execAsSt32 c f s
  | .asSt64 c f => Sys2Proof.Machine.execAsSt64 c f s
  | .asAtomAdd c f => Sys2Proof.Machine.execAsAtomAdd c f s
  | .asAtomMin c f => Sys2Proof.Machine.execAsAtomMin c f s
  | .asAtomMax c f => Sys2Proof.Machine.execAsAtomMax c f s
  | .asAtomAnd c f => Sys2Proof.Machine.execAsAtomAnd c f s
  | .asAtomOr c f => Sys2Proof.Machine.execAsAtomOr c f s
  | .asAtomXor c f => Sys2Proof.Machine.execAsAtomXor c f s
  | .shardDefine r image => Sys2Proof.Machine.execShardDefine r image s
  | .shardDelete r => Sys2Proof.Machine.execShardDelete r s
  | .shardFlagsOnly r image => Sys2Proof.Machine.execShardFlagsOnly r image s
  | .shardSched r entries => Sys2Proof.Machine.execShardSched r entries s
  | .shardIoWrite r => Sys2Proof.Machine.execShardIoWrite r s
  | .shardIoRead r => Sys2Proof.Machine.execShardIoRead r s
  | .shardIoSeal r => Sys2Proof.Machine.execShardIoSeal r s
  | .shardResolve r => Sys2Proof.Machine.execShardResolve r s
  | .updatePiece group opseq piece => Sys2Proof.Machine.execUpdatePiece group opseq piece s
  | .upPoolWrite d v => Sys2Proof.Machine.execUpPoolWrite d v s
  | .upCntClr v => Sys2Proof.Machine.execUpCntClr v s
  | .scrubLine stack line wrong => Sys2Proof.Machine.execScrubLine stack line wrong s
  | .stackEccError stack line frame => Sys2Proof.Machine.execStackEccError stack line frame s
  | .refreshWindowOpen s1 => Sys2Proof.Machine.execRefreshWindowOpen s1 s
  | .refreshWindowClose s1 => Sys2Proof.Machine.execRefreshWindowClose s1 s
  | .autoRefresh s1 => Sys2Proof.Machine.execAutoRefresh s1 s
  | .memCopy r => Sys2Proof.Machine.execMemCopy r s
  | .wsModel r => Sys2Proof.Machine.execWsModel r s
  | .wsModelUndefine r => Sys2Proof.Machine.execWsModelUndefine r s
  | .wsSend r split => Sys2Proof.Machine.execWsSend r split s
  | .wsSendStart id => Sys2Proof.Machine.execWsSendStart id s
  | .wsDataEmit id => Sys2Proof.Machine.execWsDataEmit id s
  | .wsSendComplete id => Sys2Proof.Machine.execWsSendComplete id s
  | .memPartWrite d v => Sys2Proof.Machine.execMemPartWrite d v s
  | .memWsWrite v => Sys2Proof.Machine.execMemWsWrite v s
  | .memRefWrite s1 v => Sys2Proof.Machine.execMemRefWrite s1 v s
  | .memCntClr v => Sys2Proof.Machine.execMemCntClr v s
  | .doorbellPoll top0 top1 seconds doorbells => Sys2Proof.Machine.execDoorbellPoll top0 top1 seconds doorbells s
  | .atomicSwapError top0 top1 read => Sys2Proof.Machine.execAtomicSwapError top0 top1 read s
  | .hostReadError r slot => Sys2Proof.Machine.execHostReadError r slot s
  | .descriptorFetch r bytes => Sys2Proof.Machine.execDescriptorFetch r bytes s
  | .functionLevelReset => Sys2Proof.Machine.execFunctionLevelReset s
  | .ringEnable r v => Sys2Proof.Machine.execRingEnable r v s
  | .ringDrain r v => Sys2Proof.Machine.execRingDrain r v s
  | .ringAbort r v => Sys2Proof.Machine.execRingAbort r v s
  | .pollEnable v => Sys2Proof.Machine.execPollEnable v s
  | .msixModTimer vec => Sys2Proof.Machine.execMsixModTimer vec s
  | .nop r => Sys2Proof.Machine.execNop r s
  | .hiCntClr v => Sys2Proof.Machine.execHiCntClr v s
  | .repCompatWrite v => Sys2Proof.Machine.execRepCompatWrite v s
  | .twCfgWrite v => Sys2Proof.Machine.execTwCfgWrite v s
  | .twHello => Sys2Proof.Machine.execTwHello s
  | .twStage => Sys2Proof.Machine.execTwStage s
  | .twPrep => Sys2Proof.Machine.execTwPrep s
  | .twReady => Sys2Proof.Machine.execTwReady s
  | .twGo => Sys2Proof.Machine.execTwGo s
  | .twinGoDeadline => Sys2Proof.Machine.execTwinGoDeadline s
  | .twOp => Sys2Proof.Machine.execTwOp s
  | .twPiece => Sys2Proof.Machine.execTwPiece s
  | .twHall => Sys2Proof.Machine.execTwHall s
  | .twinHallTimeout group opseq => Sys2Proof.Machine.execTwinHallTimeout group opseq s
  | .twDecide => Sys2Proof.Machine.execTwDecide s
  | .twinCommit r => Sys2Proof.Machine.execTwinCommit r s
  | .twinSync r => Sys2Proof.Machine.execTwinSync r s
  | .twinPromote r => Sys2Proof.Machine.execTwinPromote r s
  | .twCntClr v => Sys2Proof.Machine.execTwCntClr v s
  | .dpAck v => Sys2Proof.Machine.execDpAck v s
  | .dpFenceClr v => Sys2Proof.Machine.execDpFenceClr v s
  | .dpCntClr v => Sys2Proof.Machine.execDpCntClr v s
  | .deputyWatchdogExpiry => Sys2Proof.Machine.execDeputyWatchdogExpiry s
  | .thermalThrottleStep decks floors => Sys2Proof.Machine.execThermalThrottleStep decks floors s
  | .loadSample decks ports => Sys2Proof.Machine.execLoadSample decks ports s
  | .surveyorMeasurement d vreq cap => Sys2Proof.Machine.execSurveyorMeasurement d vreq cap s
  | .maintWindowOpen w => Sys2Proof.Machine.execMaintWindowOpen w s
  | .maintWindowClose w => Sys2Proof.Machine.execMaintWindowClose w s
  | .vddStep d => Sys2Proof.Machine.execVddStep d s
  | .slackAlarm d => Sys2Proof.Machine.execSlackAlarm d s
  | .railCheck millivolts => Sys2Proof.Machine.execRailCheck millivolts s
  | .clockLockLoss site => Sys2Proof.Machine.execClockLockLoss site s
  | .benchDomainPowerLoss dom => Sys2Proof.Machine.execBenchDomainPowerLoss dom s
  | .sorterFault phys => Sys2Proof.Machine.execSorterFault phys s
  | .switchTableError deck source flow => Sys2Proof.Machine.execSwitchTableError deck source flow s
  | .codeDigestCheck changed => Sys2Proof.Machine.execCodeDigestCheck changed s
  | .resetAssert => Sys2Proof.Machine.execResetAssert s
  | .resetRelease => Sys2Proof.Machine.execResetRelease s
  | .pwrGoodRise => Sys2Proof.Machine.execPwrGoodRise s
  | .pwrGoodFall => Sys2Proof.Machine.execPwrGoodFall s
  | .powerDomainUp dom => Sys2Proof.Machine.execPowerDomainUp dom s
  | .romStageDone => Sys2Proof.Machine.execRomStageDone s
  | .firmwareStageDone => Sys2Proof.Machine.execFirmwareStageDone s
  | .boardStageDone table => Sys2Proof.Machine.execBoardStageDone table s
  | .unitsStageDone => Sys2Proof.Machine.execUnitsStageDone s
  | .memoryStageDone => Sys2Proof.Machine.execMemoryStageDone s
  | .fwUpdate r image => Sys2Proof.Machine.execFwUpdate r image s
  | .fwUpdateRaise r => Sys2Proof.Machine.execFwUpdateRaise r s
  | .attest r => Sys2Proof.Machine.execAttest r s
  | .attestSign goodWrites => Sys2Proof.Machine.execAttestSign goodWrites s
  | .ctlLockSet v => Sys2Proof.Machine.execCtlLockSet v s
  | .registerWrite addr v => Sys2Proof.Machine.execRegisterWrite addr v s
  | .bar0BadAccess write addr size => Sys2Proof.Machine.execBar0BadAccess write addr size s
  | .jtagBypass => Sys2Proof.Machine.execJtagBypass s
  | .jtagIdcode => Sys2Proof.Machine.execJtagIdcode s
  | .jtagSamplePreload cells => Sys2Proof.Machine.execJtagSamplePreload cells s
  | .jtagExtest cells => Sys2Proof.Machine.execJtagExtest cells s
  | .jtagExtestPulse cells => Sys2Proof.Machine.execJtagExtestPulse cells s
  | .signalAndLockRegained l => Sys2Proof.Machine.execSignalAndLockRegained l s
  | .pt10mInPresence present => Sys2Proof.Machine.execPt10mInPresence present s
  | .msixVectorUnmask vec => Sys2Proof.Machine.execMsixVectorUnmask vec s
  | .powerLoss torn => Sys2Proof.Machine.execPowerLoss torn s
  | .memCopyDone id data => Sys2Proof.Machine.execMemCopyDone id data s
  | .shardIoDone id data => Sys2Proof.Machine.execShardIoDone id data s
  | .fwUpdateDone => Sys2Proof.Machine.execFwUpdateDone s
  | .wsModelReadDone model => Sys2Proof.Machine.execWsModelReadDone model s

end Sys2Proof.Machine
end

