-- ==== Sys2Proof/Machine/View.lean ====
section
/-! DEFINITION. The voltage codes at the pins (R507, R508), and what a 4-byte read of BAR0 returns (R490, R491, R493): a register that shows other state, one that is read and used as
another value, and a write-only one, beside those that read as they are held. No command of the table reads a register but those of
the latched pairs; statements and later tests read through this. -/

namespace Sys2Proof.Machine

/-- DECK_VID of a deck (R507, R508): the code that the device drives, none while PERST_N is low. -/
def Dev.deckVid (d : Dev) (k : Nat) : Option Nat := if d.perst then some (d.gf (aSU_VDD k) 0 8) else none

/-- Four fields of a byte each, from what a test counts (PT_CMP_USE). -/
def packBytes (f : Nat → Nat) : W32 := BitVec.ofNat 32 (f 0 + 2 ^ 8 * f 1 + 2 ^ 16 * f 2 + 2 ^ 24 * f 3)

/-- Registers that are written and never read (R6). -/
def writeOnly (a : Nat) : Bool :=
  [0xC, 0x20018, 0x2001C, 0x3010C, 0x30110, 0x40034, 0x50004, 0x60040, 0x70048, 0x90054, 0xA000C, 0xA0020, 0xA0024, 0xC0014, 0x100028,
   0x200014, 0x40002C, 0x800028, 0xC00014].contains a

/-- The words of a policer (R170): what is set, its buckets in whole bytes and LAST. -/
def Dev.readPol (d : Dev) (i w : Nat) : W32 :=
  let x := d.policer i
  match w with
  | 4 => BitVec.ofNat 32 (x.tc / 65536)
  | 5 => BitVec.ofNat 32 (x.tp / 65536)
  | 6 => BitVec.ofNat 32 x.last.toNat
  | 7 => mget 0 i d.fb.polHi
  | _ => d.rg (aPOL i + 4 * w)

/-- SU_MEAS (R461, R467): the fused baseline stands as the FULL measurement of hour 0 until there is a newer one. -/
def Dev.readMeas (d : Dev) (k b : Nat) : W32 :=
  match (if b = 3 then some (d.fullMeas k) else mget none b (d.deck k).meas) with
  | none => 0
  | some x => BitVec.ofNat 32 (x.vreq + 2 ^ 8 * (d.measValid x).toNat + 2 ^ 16 * min 0xFFFF ((d.rg aSU_HOURS).toNat - x.hour))

/-- The plant-time block. -/
def Dev.readTime (d : Dev) (a : Nat) : W32 :=
  if a = 0x20000 then BitVec.ofNat 32 d.now.toNat
  else if a = 0x20004 then d.tm.nowHi
  else if a = aPT_STAT then setb (d.rg a) 12 (!d.tm.cmps.isEmpty)
  else if a = aPT_RATE_LO then BitVec.ofNat 32 d.tm.rate.toNat
  else if a = aPT_RATE_HI then BitVec.ofNat 32 (d.tm.rate.toNat / 2 ^ 32)
  else if a = aPT_LEAD then BitVec.ofNat 32 d.armLead
  else if a = 0x20034 then d.tm.beatCount
  else if a = 0x20038 then BitVec.ofNat 32 d.tm.beatStamp.toNat
  else if a = 0x2003C then d.tm.stampHi
  else if a = 0x20048 then packBytes d.cmpHeld
  else d.rg a

/-- The boot block (R488). -/
def Dev.readBoot (d : Dev) (a : Nat) : W32 :=
  let valid := fun (i : Nat) => (d.bt.bank.getD i ([], false)).2
  if a = aBT_STAT then setb (setb (setb (d.rg a) 7 (d.bt.active == 1)) 8 (valid 0)) 9 (valid 1)
  else if a = 0x10008 then BitVec.ofNat 32 d.bt.svnMin
  else if a = 0x1000C then BitVec.ofNat 32 Config.serial.toNat
  else if a = 0x10010 then BitVec.ofNat 32 (Config.serial.toNat / 2 ^ 32)
  else if 0x10080 ≤ a ∧ a < 0x100C4 then Config.rootPk ((a - 0x10080) / 4)
  else d.rg a

/-- A field that is read and used as at least `n`. -/
def atLeast (v : W32) (lo w n : Nat) : W32 := setf v lo w (max n (fld v lo w))

/-- Registers with fields whose value zero, or whose values out of range, are read and used as another (R85, R117, R203, R246, R305, R377,
R408, R441, R466, R467). -/
def usedAs (a : Nat) (v : W32) : W32 :=
  if a = aLN_RETRY_CFG then atLeast (atLeast (atLeast v 0 8 1) 8 4 1) 12 8 1
  else if a = aLN_FENCE_CFG then atLeast v 0 16 1
  else if a = aLN_TRAIN_CFG then atLeast (atLeast v 0 5 16) 8 8 1
  else if a = aRT_CFG then atLeast v 16 8 1
  else if a = aSM_TALLY_CFG then atLeast (atLeast v 0 8 1) 16 16 1
  else if a = aAS_CFG then atLeast v 0 16 1
  else if a = aMEM_SCRUB then atLeast v 0 6 30
  else if a = aWS_CFG then setf v 0 6 (min 32 (max 1 (fld v 0 6)))
  else if a = aDB_POLL then setf (setf v 0 4 (min 8 (fld v 0 4))) 4 4 (min 8 (fld v 4 4))
  else if 0x401000 ≤ a ∧ a < 0x403000 then atLeast v 0 8 1
  else if a = aTW_CFG then atLeast (atLeast v 8 8 1) 16 16 1
  else if a = aDP_CFG then atLeast (atLeast v 0 8 1) 8 5 16
  else if a = aSU_CFG then atLeast (atLeast v 4 4 1) 16 16 1
  else if a = aSU_WIN 0 ∨ a = aSU_WIN 1 then atLeast (atLeast v 8 8 1) 16 16 1
  else v

/-- The value a 4-byte read of BAR0 returns; zero for reserved space. -/
def Dev.barRead (d : Dev) (a : Nat) : W32 :=
  if writeOnly a then 0
  else if 0x10000 ≤ a ∧ a < 0x20000 then d.readBoot a
  else if 0x20000 ≤ a ∧ a < 0x30000 then d.readTime a
  else if a = 0x40008 then BitVec.ofNat 32 d.fb.free
  else if a = 0x4000C then BitVec.ofNat 32 d.sharedFree
  else if 0x40600 ≤ a ∧ a < 0x4070C then BitVec.ofNat 32 (d.usedBy (4096 + (a - 0x40600) / 4))
  else if 0x42000 ≤ a ∧ a < 0x42400 then BitVec.ofNat 32 (mget 0 ((a - 0x42000) / 4) d.fb.borrowed)
  else if a = aSM_CFG then setb (d.rg a) 0 d.pairwise
  else if a = 0x60018 then BitVec.ofNat 32 (((d.headRequest false).map (fun o => o.key.toNat)).getD 0)
  else if a = 0x6001C then d.sm.qhi
  else if a = 0x60020 then match d.headRequest false with
    | none => 0
    | some o =>
      let lead := BitVec.ofNat 64 (orOne (d.gf aSM_TALLY_CFG 0 8) * 256)
      BitVec.ofNat 32 (o.group % 65536 + 2 ^ 16 + 2 ^ 17 * (decide (0 ≤ d.since (o.key - lead))).toNat + 2 ^ 18 * o.late.toNat)
  else if 0x80020 ≤ a ∧ a < 0x80030 then d.shapeRecord.getD ((a - 0x80020) / 4) 0
  else if 0xA3000 ≤ a ∧ a < 0xA3200 then (d.dp.nvLog.getD ((a - 0xA3000) / 32) []).getD ((a - 0xA3000) % 32 / 4) 0
  else if 0xB0040 ≤ a ∧ a < 0xB0080 then d.readMeas ((a - 0xB0040) / 16) ((a - 0xB0040) % 16 / 4)
  else if 0x300000 ≤ a ∧ a < 0x380000 then d.readPol ((a - 0x300000) / 32) (a % 32 / 4)
  else usedAs a (d.rg a)

end Sys2Proof.Machine
end

