-- ==== Sys2Proof/Safety.lean ====
section
/-! DEFINITION. What counts as a safe run, and the words in which the statements speak: a command completes, a write reaches its
register, nothing but some registers differs. -/

namespace Sys2Proof.Machine

/-- A step is safe when it answers a next state: no fault and no refusal. -/
def State.safe (s : State) : Prop := ∃ t, step s = .next t

/-- A command completes: `exec` answers a next state that differs from the present one in the device alone (the queue and the bytes of
stacked memory are as before), and the device is then as `P` says. -/
def Gives (i : Instr) (s : State) (P : Dev → Prop) : Prop := ∃ d, exec i s = .next { s with dev := d } ∧ P d

/-- A command that may change stacked memory completes: `exec` answers a next state with the same queue, and it is as `P` says. -/
def Yields (i : Instr) (s : State) (P : Dev → List Host.Cell → Prop) : Prop :=
  ∃ d m, exec i s = .next { s with dev := d, mem := m } ∧ P d m

/-- A 4-byte write of BAR0 at an address reaches its register with the value `w`, and `d0` is the device with the marks that the write
leaves beside it (R494 to R498; none where nothing is locked). -/
def Dev.Sees (d : Dev) (a : Nat) (v w : W32) (d0 : Dev) : Prop := d.barSees a v = some w ∧ d0 = d.barMarks a v

/-- A 4-byte write of BAR0 at an address reaches its register whole (R452, R490, R494 to R497): the device is out of reset and has not
stopped, the address is not closed before READY, no twin writes it, its block's lock is clear, and a register stands there. -/
def Dev.Open (d : Dev) (a : Nat) : Prop :=
  d.live = true ∧ d.early a = false ∧ (d.follower && mirroredReg a) = false ∧ d.lockedAt a = false ∧ (regRow a).isSome = true

/-- The commands that may move bytes of stacked memory: beats and strike deadlines (an update or launch that fails), launches and their
instructions, faults of benches, copies, the partition, the last stage of boot, the twin pair, and the rings' aborts. -/
def movesBytes : Instr → Bool
  | .beatInEdge _ | .beatMarker _ | .strikeDeadline _ | .twinCommitStrike _ | .assayLaunchStart _ | .assayLaunchComplete _
  | .assayRunLimit _ | .benchFault _ | .benchDomainPowerLoss _ | .memCopyDone _ _ | .memPartWrite _ _ | .memWsWrite _ | .memoryStageDone
  | .twStage | .ringEnable _ _ | .ringDrain _ _ | .ringAbort _ _ | .hostReadError _ _ | .functionLevelReset | .registerWrite _ _ => true
  | .asEnd _ | .asNop _ | .asBr _ _ | .asJmp _ _ | .asCall _ _ | .asJr _ _ | .asFork _ | .asJoin _ | .asBar _ | .asGsync _ | .asMov _ _
  | .asIadd _ _ | .asIsub _ _ | .asImul _ _ | .asImin _ _ | .asImax _ _ | .asAnd _ _ | .asOr _ _ | .asXor _ _ | .asShl _ _ | .asShr _ _
  | .asSra _ _ | .asAddi _ _ | .asLi _ _ _ | .asShfl _ _ | .asSel _ _ | .asFadd _ _ | .asFsub _ _ | .asFmul _ _ | .asFma _ _ | .asFnma _ _
  | .asFmin _ _ | .asFmax _ _ | .asFabs _ _ | .asFneg _ _ | .asDot2 _ _ | .asDot4 _ _ | .asDiv _ _ | .asRcp _ _ | .asSqrt _ _
  | .asRsqrt _ _ | .asExp _ _ | .asExp2 _ _ | .asLog _ _ | .asLog2 _ _ | .asTanh _ _ | .asSigmoid _ _ | .asSin _ _ | .asCos _ _
  | .asCvt _ _ _ | .asCmp _ _ | .asTail _ _ | .asMovrm _ _ | .asMovmr _ _ | .asMand _ _ | .asMor _ _ | .asMxor _ _ | .asMandn _ _
  | .asMnot _ _ | .asRed _ _ | .asReds _ _ | .asSoftmax _ _ _ | .asRng _ _ | .asLd8 _ _ | .asLd16 _ _ | .asLd32 _ _ | .asLd64 _ _
  | .asSt8 _ _ | .asSt16 _ _ | .asSt32 _ _ | .asSt64 _ _ | .asAtomAdd _ _ | .asAtomMin _ _ | .asAtomMax _ _ | .asAtomAnd _ _
  | .asAtomOr _ _ | .asAtomXor _ _ => true
  | _ => false

/-- Two devices differ at most in the registers listed. -/
def Dev.SameBut (d d0 : Dev) (as : List Nat) : Prop := d = { d0 with regs := d.regs } ∧ ∀ a, a ∉ as → d.rg a = d0.rg a

/-- An instruction of a core goes on with the result `r` where the program has it at the core's word address: it neither stops its launch nor leads astray, and no trap halts the launch. Then
flags and events reach the launch, the bench holds what the result says with its word address, and a phase ends where this was the last
bench to arrive; stacked memory is as before. `d1` is the device on which the instruction acts. -/
def GoesOn (i : Instr) (s : State) (d1 : Dev) (core : Core) (c : AsCtx) (lane0 : Bool) (r : AsRes) : Prop :=
  c.runs i = true → r.stop = .go → ((d1.asNote c core.bench lane0 r).2.fired && c.num.halt) = false →
  (r.b.done || asNextOk ((d1.asNote c core.bench lane0 r).1.prog (runSlot c.l.body)) r) = true →
  Yields i s fun d m => m = s.mem ∧
    d = ((d1.asNote c core.bench lane0 r).1.putBench core.bench (r.b.setPc c.b.free c.thread r.next.toNat)).phaseCheck s.mem c.l.id

end Sys2Proof.Machine
end

