-- ==== Sys2Proof/WellFormed.lean ====
section
/-! DEFINITION. The operands that the manual admits for each command: numbers of ports, lanes, rings, units and entries below the counts that
exist, and fields of instruction words within their widths. A meaning needs no such premise: outside these ranges a command finds nothing
to act on, or an instruction word that no store can hold. -/

namespace Sys2Proof

/-- A number below a count. -/
def below (n x : Nat) : Bool := decide (x < n)

/-- The widths of a sorter word's fields (R90). -/
def SrFields.ok (f : SrFields) : Bool := below 8 f.d && below 8 f.a && below 8 f.b && below 65536 f.imm

/-- The widths of a recipe word's fields (R233). -/
def RcFields.ok (f : RcFields) : Bool := below 8 f.d && below 8 f.a && below 8 f.b && below 65536 f.imm

/-- The widths of the fields of format R (R307). -/
def FmtR.ok (f : FmtR) : Bool := below 64 f.d && below 64 f.a && below 64 f.b && below 8 f.m && below 8 f.t

/-- The widths of the fields of format I (R307). -/
def FmtI.ok (f : FmtI) : Bool := below 64 f.d && below 64 f.a && below 4096 f.imm

/-- The widths of the fields of format M (R307). -/
def FmtM.ok (f : FmtM) : Bool := below 64 f.d && below 64 f.a && below 8 f.w && below 8 f.m && below 64 f.ofs

/-- The widths of the fields of format B (R307). -/
def FmtB.ok (f : FmtB) : Bool := below 8 f.cond && below 8 f.m && below 64 f.a && below 4096 f.rel

/-- The widths of the fields of format K (R307). -/
def FmtK.ok (f : FmtK) : Bool := below 8 f.md && below 8 f.ma && below 8 f.mb && below 64 f.x

/-- The bench and the core that exist (R275). -/
def Core.ok (c : Core) : Bool := below 128 c.bench && below 32 c.thread

/-- Blocks of 8 bytes under a sync header of two bits (R52, R60). -/
def Flit.ok (f : Flit) : Bool := f.blocks.all (fun b => below 4 b.sync && b.data.length == 8)

/-- The operands of a command lie in their ranges. -/
def Instr.wf : Instr → Bool
  | .ptStep _ => true
  | .ptRateLoWrite _ => true
  | .ptRateHiWrite _ => true
  | .ptCtrlWrite _ => true
  | .ptNowLoRead => true
  | .ptCmpResWrite _ => true
  | .beatStatClr _ => true
  | .beatStampLoRead => true
  | .ppsEdge => true
  | .timeMarker p => below 257 p
  | .sourceLost => true
  | .timeMarkerSend p => below 257 p
  | .beatInEdge _ => true
  | .beatMarker p => below 257 p
  | .strikeDeadline c => below 64 c
  | .launchStrike c => below 64 c
  | .commitStrike c => below 64 c
  | .tableDrainStrike c => below 64 c
  | .tableSwapStrike c => below 64 c
  | .twinCommitStrike c => below 64 c
  | .twinPromoteStrike c => below 64 c
  | .gateCycleStart g => below 16 g
  | .gateEntryBoundary g => below 16 g
  | .geCtrlWrite g _ => below 16 g
  | .geSwapHiWrite g _ => below 16 g
  | .ppsOutPulse => true
  | .canaryToggle => true
  | .canaryGapToggle => true
  | .blockLockGained l => below 528 l
  | .blockLockLost l => below 528 l
  | .alignSend p _ => below 257 p
  | .align p rows => below 257 p && rows.all (fun x => below 528 x.lane && x.block.length == 8)
  | .elasticIdleAdjust p _ => below 257 p
  | .flitReceive p f => below 257 p && f.ok
  | .flitSend p => below 257 p
  | .retryReq p blocks => below 257 p && blocks.all (fun x => x.length == 8)
  | .retryStart p blocks => below 257 p && blocks.all (fun x => x.length == 8)
  | .retryReqTimeout p => below 257 p
  | .ackTimeout p => below 257 p
  | .train p stage fences acked => below 257 p && stage.length == fences.length && stage.length == acked.length
  | .lossOfSignal l => below 528 l
  | .lossOfLock l => below 528 l
  | .laneLossFence l => below 528 l
  | .laneLockTimeout l => below 528 l
  | .bringupTimeout p => below 257 p
  | .qualifyDone p => below 257 p
  | .lnGroupCfgWrite g _ => below 64 g
  | .lnUnfence _ => true
  | .lnCntClr _ => true
  | .packetArrive p => below 257 p
  | .sorterClassify g => below 64 g
  | .rsqGapTimeout flow => below 262144 flow
  | .fenceRelease p => below 257 p
  | .heldPacketTimeout p => below 257 p
  | .fencedNak p => below 257 p
  | .pruned p => below 257 p
  | .tableSwap r => below 8192 r
  | .oldBankRetire => true
  | .dtShadowWrite e w _ => below 32768 e && below 4 w
  | .spShadowWrite g w _ => below 64 g && below 512 w
  | .rtCntClr _ => true
  | .srEnd g f => below 64 g && f.ok
  | .srDrop g f => below 64 g && f.ok
  | .srLdh g f => below 64 g && f.ok
  | .srLdi g f => below 64 g && f.ok
  | .srLui g f => below 64 g && f.ok
  | .srAdd g f => below 64 g && f.ok
  | .srSub g f => below 64 g && f.ok
  | .srAnd g f => below 64 g && f.ok
  | .srOr g f => below 64 g && f.ok
  | .srXor g f => below 64 g && f.ok
  | .srShl g f => below 64 g && f.ok
  | .srShr g f => below 64 g && f.ok
  | .srHash g f => below 64 g && f.ok
  | .srLut g f => below 64 g && f.ok
  | .srJeq g f => below 64 g && f.ok
  | .srJne g f => below 64 g && f.ok
  | .srJlt g f => below 64 g && f.ok
  | .srJge g f => below 64 g && f.ok
  | .srJmp g f => below 64 g && f.ok
  | .srOut g f => below 64 g && f.ok
  | .unitCellTake u => below 67 u
  | .bufferEccError p q cell => below 257 p && below 32 q && below 1048576 cell.site
  | .flowCtxFetch flow => below 262144 flow
  | .flowCtxWrite r _ => below 8192 r
  | .flowCtxRead r => below 8192 r
  | .flowCtxZero r => below 8192 r
  | .qtPortQfWrite p _ => below 256 p
  | .qtPortPcWrite p _ => below 256 p
  | .qtPortRsqWrite p _ => below 256 p
  | .qtUnitWrite u _ => below 67 u
  | .fdMapWrite i _ => below 1024 i
  | .lrCntClr _ => true
  | .packetDepart p => below 257 p
  | .policerCommit i _ => below 16384 i
  | .polLastLoRead i => below 16384 i
  | .svQuantWrite p q _ => below 256 p && below 28 q
  | .svClassLenWrite t _ => below 8 t
  | .svGateBindWrite p _ => below 256 p
  | .svCntClr _ => true
  | .ntClr _ => true
  | .smPart p => below 257 p
  | .smGrant p => below 257 p
  | .tallyGrant _ => true
  | .tallyTimeout group opseq => below 65536 group && below 4294967296 opseq
  | .smAbort p => below 257 p
  | .smelterFault phys _ => below 68 phys
  | .redMemEccError slot owner => below 32768 slot.site && (match owner with
    | .op g _ => below 65536 g
    | .pool _ => true)
  | .rcNop sm f => below 64 sm && f.ok
  | .rcLdin sm f => below 64 sm && f.ok
  | .rcLdacc sm f => below 64 sm && f.ok
  | .rcStacc sm f => below 64 sm && f.ok
  | .rcRed sm f => below 64 sm && f.ok
  | .rcAdd sm f => below 64 sm && f.ok
  | .rcMul sm f => below 64 sm && f.ok
  | .rcMax sm f => below 64 sm && f.ok
  | .rcMin sm f => below 64 sm && f.ok
  | .rcAbs sm f => below 64 sm && f.ok
  | .rcNeg sm f => below 64 sm && f.ok
  | .rcLdk sm f => below 64 sm && f.ok
  | .rcEmit sm f => below 64 sm && f.ok
  | .rcpWrite r w _ => below 64 r && below 32 w
  | .smCfgWrite _ => true
  | .smQheadLoRead => true
  | .smCntClr _ => true
  | .allreduce r => below 8192 r
  | .reduce r => below 8192 r
  | .reduceScatter r => below 8192 r
  | .allgather r => below 8192 r
  | .broadcast r => below 8192 r
  | .alltoall r => below 8192 r
  | .alltoallv r => below 8192 r
  | .barrier r => below 8192 r
  | .reduceUpdateGather r => below 8192 r
  | .clData p => below 257 p
  | .clCount p => below 257 p
  | .clDone p => below 257 p
  | .orderTimeout group opseq => below 65536 group && below 4294967296 opseq
  | .groupSet r _ => below 8192 r
  | .groupDelete r => below 8192 r
  | .clCntClr _ => true
  | .assayLoad r _ => below 8192 r
  | .assayUnload r => below 8192 r
  | .assayRun r => below 8192 r
  | .assayLaunchStart _ => true
  | .assayLaunchComplete _ => true
  | .assayRunLimit _ => true
  | .benchFault phys => below 136 phys.site
  | .asProfileWrite _ => true
  | .asResvWrite _ => true
  | .asCntClr _ => true
  | .asEnd c => c.ok
  | .asNop c => c.ok
  | .asBr c f => c.ok && f.ok
  | .asJmp c rel => c.ok && below 16777216 rel
  | .asCall c rel => c.ok && below 16777216 rel
  | .asJr c a => c.ok && below 64 a
  | .asFork c => c.ok
  | .asJoin c => c.ok
  | .asBar c => c.ok
  | .asGsync c => c.ok
  | .asMov c f => c.ok && f.ok
  | .asIadd c f => c.ok && f.ok
  | .asIsub c f => c.ok && f.ok
  | .asImul c f => c.ok && f.ok
  | .asImin c f => c.ok && f.ok
  | .asImax c f => c.ok && f.ok
  | .asAnd c f => c.ok && f.ok
  | .asOr c f => c.ok && f.ok
  | .asXor c f => c.ok && f.ok
  | .asShl c f => c.ok && f.ok
  | .asShr c f => c.ok && f.ok
  | .asSra c f => c.ok && f.ok
  | .asAddi c f => c.ok && f.ok
  | .asLi c f _ => c.ok && f.ok
  | .asShfl c f => c.ok && f.ok
  | .asSel c f => c.ok && f.ok
  | .asFadd c f => c.ok && f.ok
  | .asFsub c f => c.ok && f.ok
  | .asFmul c f => c.ok && f.ok
  | .asFma c f => c.ok && f.ok
  | .asFnma c f => c.ok && f.ok
  | .asFmin c f => c.ok && f.ok
  | .asFmax c f => c.ok && f.ok
  | .asFabs c f => c.ok && f.ok
  | .asFneg c f => c.ok && f.ok
  | .asDot2 c f => c.ok && f.ok
  | .asDot4 c f => c.ok && f.ok
  | .asDiv c f => c.ok && f.ok
  | .asRcp c f => c.ok && f.ok
  | .asSqrt c f => c.ok && f.ok
  | .asRsqrt c f => c.ok && f.ok
  | .asExp c f => c.ok && f.ok
  | .asExp2 c f => c.ok && f.ok
  | .asLog c f => c.ok && f.ok
  | .asLog2 c f => c.ok && f.ok
  | .asTanh c f => c.ok && f.ok
  | .asSigmoid c f => c.ok && f.ok
  | .asSin c f => c.ok && f.ok
  | .asCos c f => c.ok && f.ok
  | .asCvt c f _ => c.ok && f.ok
  | .asCmp c f => c.ok && f.ok
  | .asTail c f => c.ok && f.ok
  | .asMovrm c f => c.ok && f.ok
  | .asMovmr c f => c.ok && f.ok
  | .asMand c f => c.ok && f.ok
  | .asMor c f => c.ok && f.ok
  | .asMxor c f => c.ok && f.ok
  | .asMandn c f => c.ok && f.ok
  | .asMnot c f => c.ok && f.ok
  | .asRed c f => c.ok && f.ok
  | .asReds c f => c.ok && f.ok
  | .asSoftmax c f _ => c.ok && f.ok
  | .asRng c f => c.ok && f.ok
  | .asLd8 c f => c.ok && f.ok
  | .asLd16 c f => c.ok && f.ok
  | .asLd32 c f => c.ok && f.ok
  | .asLd64 c f => c.ok && f.ok
  | .asSt8 c f => c.ok && f.ok
  | .asSt16 c f => c.ok && f.ok
  | .asSt32 c f => c.ok && f.ok
  | .asSt64 c f => c.ok && f.ok
  | .asAtomAdd c f => c.ok && f.ok
  | .asAtomMin c f => c.ok && f.ok
  | .asAtomMax c f => c.ok && f.ok
  | .asAtomAnd c f => c.ok && f.ok
  | .asAtomOr c f => c.ok && f.ok
  | .asAtomXor c f => c.ok && f.ok
  | .shardDefine r _ => below 8192 r
  | .shardDelete r => below 8192 r
  | .shardFlagsOnly r _ => below 8192 r
  | .shardSched r _ => below 8192 r
  | .shardIoWrite r => below 8192 r
  | .shardIoRead r => below 8192 r
  | .shardIoSeal r => below 8192 r
  | .shardResolve r => below 8192 r
  | .updatePiece group opseq piece => below 65536 group && below 4294967296 opseq && below 1099511627776 piece
  | .upPoolWrite d _ => below 4 d
  | .upCntClr _ => true
  | .scrubLine stack line wrong => below 8 stack && below 4294967296 line && below 4098 wrong
  | .stackEccError stack line frame => below 8 stack && below 4294967296 line && below 4096 frame
  | .refreshWindowOpen s => below 8 s
  | .refreshWindowClose s => below 8 s
  | .autoRefresh s => below 8 s
  | .memCopy r => below 8192 r
  | .wsModel r => below 8192 r
  | .wsModelUndefine r => below 8192 r
  | .wsSend r _ => below 8192 r
  | .wsSendStart _ => true
  | .wsDataEmit _ => true
  | .wsSendComplete _ => true
  | .memPartWrite d _ => below 4 d
  | .memWsWrite _ => true
  | .memRefWrite s _ => below 8 s
  | .memCntClr _ => true
  | .doorbellPoll _ _ _ doorbells => doorbells.all (fun x => below 8192 x.1)
  | .atomicSwapError _ _ read => read.doorbells.all (fun x => below 8192 x.1)
  | .hostReadError r slot => below 8192 r && slot.all (below 65536)
  | .descriptorFetch r _ => below 8192 r
  | .functionLevelReset => true
  | .ringEnable r _ => below 8192 r
  | .ringDrain r _ => below 8192 r
  | .ringAbort r _ => below 8192 r
  | .pollEnable _ => true
  | .msixModTimer vec => below 2048 vec
  | .nop r => below 8192 r
  | .hiCntClr _ => true
  | .repCompatWrite _ => true
  | .twCfgWrite _ => true
  | .twHello => true
  | .twStage => true
  | .twPrep => true
  | .twReady => true
  | .twGo => true
  | .twinGoDeadline => true
  | .twOp => true
  | .twPiece => true
  | .twHall => true
  | .twinHallTimeout group opseq => below 65536 group && below 4294967296 opseq
  | .twDecide => true
  | .twinCommit r => below 8192 r
  | .twinSync r => below 8192 r
  | .twinPromote r => below 8192 r
  | .twCntClr _ => true
  | .dpAck _ => true
  | .dpFenceClr _ => true
  | .dpCntClr _ => true
  | .deputyWatchdogExpiry => true
  | .thermalThrottleStep decks _ => decks.length == 4
  | .loadSample decks ports => decks.length == 4 && ports.all (fun x => below 256 x.1 && below 4 x.2)
  | .surveyorMeasurement d vreq cap => below 4 d && below 256 vreq && below 256 cap
  | .maintWindowOpen w => below 2 w
  | .maintWindowClose w => below 2 w
  | .vddStep d => below 4 d
  | .slackAlarm d => below 4 d
  | .railCheck _ => true
  | .clockLockLoss site => below 96 site
  | .benchDomainPowerLoss dom => below 96 dom
  | .sorterFault phys => below 68 phys.site
  | .switchTableError deck source flow => below 4 deck && below 4 source && flow.all (below 262144)
  | .codeDigestCheck _ => true
  | .resetAssert => true
  | .resetRelease => true
  | .pwrGoodRise => true
  | .pwrGoodFall => true
  | .powerDomainUp dom => below 96 dom
  | .romStageDone => true
  | .firmwareStageDone => true
  | .boardStageDone _ => true
  | .unitsStageDone => true
  | .memoryStageDone => true
  | .fwUpdate r _ => below 8192 r
  | .fwUpdateRaise r => below 8192 r
  | .attest r => below 8192 r
  | .attestSign _ => true
  | .ctlLockSet _ => true
  | .registerWrite addr _ => below 268500992 addr
  | .bar0BadAccess _ addr _ => below 268435456 addr
  | .jtagBypass => true
  | .jtagIdcode => true
  | .jtagSamplePreload _ => true
  | .jtagExtest _ => true
  | .jtagExtestPulse _ => true
  | .signalAndLockRegained l => below 528 l
  | .pt10mInPresence _ => true
  | .msixVectorUnmask vec => below 2048 vec
  | .powerLoss _ => true
  | .memCopyDone _ _ => true
  | .shardIoDone _ _ => true
  | .fwUpdateDone => true
  | .wsModelReadDone model => below 4096 model

end Sys2Proof
end

