-- ==== Sys2Proof/Certificates/Slice0/Obligations.lean ====
section
/-! DEFINITION. The statements for the provers, chapter by chapter of the spec, and the block as a whole at the end. -/

open Sys2Proof Sys2Proof.Machine


/-! ## Plant time, beats and strikes (chapter 2) -/

/-- Writes of plant-time registers that act (R22, R25, R42, R49): PT_STEP steps the count by a signed 64-bit number of ticks unless a comparator
is armed; a reserved SRC_SEL is ignored whole; PT_RATE is taken whole from the held low word, or from the one in force, and under HOST kept
within the servo's bound.

Readings of the model: A step or a choice of source moves PT_STAT.STATE as log 5 reads it (notes/assumptions). -/
def Obligations.PlantTimeWritesAct : Prop := ∀ (s : State) (v w : W32) (d0 : Dev),
  (s.dev.Sees aPT_STEP_HI v w d0 → d0.tm.cmps = [] → Gives (.ptStep v) s fun d =>
    d = { d0 with regs := d.regs, tm := { d0.tm with acc := d0.tm.acc + ((w ++ d0.tm.stepLo).signExtend 96 <<< 32), leftUnset := true, lockRun := 0 } } ∧
    d.now = d0.now + (w ++ d0.tm.stepLo) ∧
    d.gf aPT_STAT 0 3 = (if d0.gf aPT_CTRL 0 3 = 0 ∨ d0.gf aPT_CTRL 0 3 = 4 then 1 else if d0.tm.lost then 4 else 2) ∧ ∀ a, a ≠ aPT_STAT → d.rg a = d0.rg a) ∧
  (s.dev.Sees aPT_STEP_HI v w d0 → d0.tm.cmps ≠ [] → Gives (.ptStep v) s fun d => d = (d0.sb aPT_STAT 9 true).report 0 1 0 0) ∧
  (s.dev.Sees aPT_RATE_LO v w d0 → Gives (.ptRateLoWrite v) s fun d =>
    d = if d0.gf aPT_CTRL 0 3 ∈ [1, 2, 3] then d0 else { d0 with tm := { d0.tm with loHeld := some w } }) ∧
  (s.dev.Sees aPT_RATE_HI v w d0 → d0.gf aPT_CTRL 0 3 = 0 → Gives (.ptRateHiWrite v) s fun d =>
    d = { d0 with tm := { d0.tm with loHeld := none, slew := 0,
                                     rate := w.setWidth 8 ++ d0.tm.loHeld.getD (d0.tm.rate.setWidth 32) } }) ∧
  (let want := (w.setWidth 8 ++ d0.tm.loHeld.getD (d0.tm.rate.setWidth 32) : BitVec 40).toNat
   s.dev.Sees aPT_RATE_HI v w d0 → d0.gf aPT_CTRL 0 3 = 4 →
    (nominalRate - d0.slewDelta ≤ want → want ≤ nominalRate + d0.slewDelta → Gives (.ptRateHiWrite v) s fun d =>
      d = { d0 with tm := d0.tm.setRate want 0 }) ∧
    (want < nominalRate - d0.slewDelta → Gives (.ptRateHiWrite v) s fun d =>
      d = ({ d0 with tm := d0.tm.setRate (nominalRate - d0.slewDelta) 0 }.sb aPT_STAT 10 true).report 0 1 0 0) ∧
    (nominalRate + d0.slewDelta < want → Gives (.ptRateHiWrite v) s fun d =>
      d = ({ d0 with tm := d0.tm.setRate (nominalRate + d0.slewDelta) 0 }.sb aPT_STAT 10 true).report 0 1 0 0)) ∧
  (s.dev.Sees aPT_RATE_HI v w d0 → d0.gf aPT_CTRL 0 3 ∈ [1, 2, 3] → Gives (.ptRateHiWrite v) s fun d => d = d0) ∧
  (s.dev.Sees aPT_CTRL v w d0 → 5 ≤ fld w 0 3 → Gives (.ptCtrlWrite v) s fun d => d = d0.sb aPT_STAT 11 true) ∧
  (s.dev.Sees aPT_CTRL v w d0 → fld w 0 3 ≤ 4 → Gives (.ptCtrlWrite v) s fun d =>
    d.SameBut { d0 with tm := d.tm } [aPT_CTRL, aPT_STAT] ∧ d.gf aPT_CTRL 0 3 = fld w 0 3 ∧ d.gf aPT_CTRL 8 8 = fld w 8 8 ∧
    d.tm.acc = d0.tm.acc ∧ d.tm.cmps = d0.tm.cmps ∧ d.tm.rate = d0.tm.rate) ∧
  (s.dev.Sees aPT_CMP_RES v w d0 →
    Gives (.ptCmpResWrite v) s fun d =>
      let n := fun u => fld w (8 * u) 7
      let left := 64 - (n 0 + n 1 + n 2 + n 3)
      let beyond := (d0.cmpHeld 0 - n 0) + (d0.cmpHeld 1 - n 1) + (d0.cmpHeld 2 - n 2) + (d0.cmpHeld 3 - n 3)
      d = if 64 < n 0 + n 1 + n 2 + n 3 ∨ left < beyond then d0
        else d0.wr aPT_CMP_RES ((d0.rg aPT_CMP_RES &&& ~~~0x7F7F7F7F) ||| (w &&& 0x7F7F7F7F))) ∧
  (s.dev.Sees aBEAT_STAT v w d0 → Gives (.beatStatClr v) s fun d =>
    d = if bitAt w 31 then d0.sf aBEAT_STAT 0 16 0 else d0)

/-- What comes at the pins of the plant-time unit and what its dividers do (R18, R23, R26, R49, R455).

A read of the low half of a 64-bit pair returns it and latches the high half at the same moment, also before boot is complete; a stopped
device returns it and latches nothing (R452, R493).

Readings of the model: The state after a loss and its timing by the local clock are logs 4 and 5; the measured error of an edge is the
count's low half (notes/assumptions). -/
def Obligations.TimePinsAndReads : Prop :=
  (∀ (s : State),
  (s.dev.live = true → s.dev.gf aPT_CTRL 0 3 = 1 → Gives .ppsEdge s fun d =>
    d = s.dev.measure ((s.dev.now.setWidth 32).toInt) 0 false ∧ d.tm.quiet = 0) ∧
  (s.dev.live = true → s.dev.tm.lost = false → s.dev.gf aPT_CTRL 0 3 = 1 → 3 * 2 ^ 31 ≤ s.dev.tm.quiet / 2 ^ 32 →
    Gives .sourceLost s fun d => d.tm.lost = true ∧ d.tm.rate = s.dev.tm.rate ∧ d.tm.acc = s.dev.tm.acc ∧ d.tm.cmps = s.dev.tm.cmps ∧
      (s.dev.tm.leftUnset = true → d.gf aPT_STAT 0 3 = 4)) ∧
  (s.dev.live = true → s.dev.gb aPT_PPS_OUT 0 = true → s.dev.tm.acc.toNat % 2 ^ 64 < s.dev.tm.rate.toNat → s.dev.tm.ppsSec ≠ some (s.dev.now.toNat / 2 ^ 32) →
    Gives .ppsOutPulse s fun d => d.SameBut { s.dev with tm := d.tm } [] ∧ d.tm.ppsHigh = true ∧ d.tm.ppsSec = some (s.dev.now.toNat / 2 ^ 32) ∧
      d.tm.ppsEnd = BitVec.ofNat 64 (s.dev.now.toNat / 2 ^ 32 * 2 ^ 32 + orOne (s.dev.gf aPT_PPS_OUT 16 16) * 4096)) ∧
  (∀ b, Gives (.pt10mInPresence b) s fun d => d = { s.dev with tm := { s.dev.tm with tenMHz := b } }) ∧
  (s.dev.live = true → s.dev.dp.canaryOn = true → msIndex s.dev.now ≠ s.dev.dp.canaryMs → Gives .canaryToggle s fun d =>
    d = { s.dev with dp := { s.dev.dp with canary := !s.dev.dp.canary, canaryAt := s.dev.tm.cycle, canaryMs := msIndex s.dev.now } }) ∧
  (s.dev.live = true → s.dev.dp.canaryOn = true → 1048576 ≤ s.dev.tm.cycle - s.dev.dp.canaryAt → Gives .canaryGapToggle s fun d =>
    d = { s.dev with dp := { s.dev.dp with canary := !s.dev.dp.canary, canaryAt := s.dev.tm.cycle } })) ∧
  (∀ (s : State), s.dev.perst = true →
  (Gives .ptNowLoRead s fun d =>
    d = { s.dev with out := s.dev.out ++ [.readValue 0x20000 (BitVec.ofNat 32 s.dev.now.toNat)],
                     tm := { s.dev.tm with nowHi := if s.dev.stopped then s.dev.tm.nowHi else BitVec.ofNat 32 (s.dev.now.toNat / 2 ^ 32) } }) ∧
  (Gives .beatStampLoRead s fun d =>
    d = { s.dev with out := s.dev.out ++ [.readValue 0x20038 (BitVec.ofNat 32 s.dev.tm.beatStamp.toNat)],
                     tm := { s.dev.tm with stampHi := if s.dev.stopped then s.dev.tm.stampHi else BitVec.ofNat 32 (s.dev.tm.beatStamp.toNat / 2 ^ 32) } }))

/-- Time markers (R23, R24, R66, R67): the oldest marker received leaves the port; it is a measurement only on the selected source and only when
no replay brought it; a port in UP has a time marker to send each 2^INTERVAL ticks.

Beats (R31, R32): an accepted edge adds one to BEAT_COUNT, is stamped with plant time, enters the log of the last 16, and every port in
service has a marker to send; one within MIN_GAP is only counted; a device that takes beats by relay enters the number and the stamp the
marker carries. -/
def Obligations.MarkersAndBeats : Prop :=
  (∀ (s : State) (p : Nat), s.dev.live = true →
  (∀ m rest, (s.dev.port p).markerIn = m :: rest → m.word % 16 = 1 →
    m.clean = false ∨ ¬(s.dev.gf aPT_CTRL 0 3 = 2 ∧ p = s.dev.gf aPT_CTRL 8 8 ∨ s.dev.gf aPT_CTRL 0 3 = 3 ∧ p = 256) →
    Gives (.timeMarker p) s fun d => d = { s.dev with ports := d.ports } ∧ (d.port p).markerIn = rest ∧ d.tm = s.dev.tm) ∧
  (∀ m rest e, (s.dev.port p).markerIn = m :: rest → m.word % 16 = 1 → m.clean = true →
    (s.dev.gf aPT_CTRL 0 3 = 2 ∧ p = s.dev.gf aPT_CTRL 8 8 ∨ s.dev.gf aPT_CTRL 0 3 = 3 ∧ p = 256) → s.dev.markerError p m = some e →
    Gives (.timeMarker p) s fun d => (d.port p).markerIn = rest ∧ (d.port p).echo = some (nfld m.word 12 8, m.stamp) ∧
      d.tm.quiet = 0 ∧ d.tm.srcDepth = nfld m.word 6 4 ∧ (nfld m.word 6 4 ≠ 15 → d.tm.lost = false)) ∧
  (s.dev.portState p = 6 → Int.ofNat (2 ^ s.dev.gf aPT_MARK 0 5) ≤ s.dev.since (s.dev.port p).lastMark →
    Gives (.timeMarkerSend p) s fun d => d = { s.dev with ports := d.ports } ∧ (d.port p).markDue = true ∧ (d.port p).lastMark = s.dev.now ∧
      ∀ q, q ≠ p → d.port q = s.dev.port q)) ∧
  (∀ (s : State) (rising : Bool) (p : Nat), s.dev.live = true →
  (s.dev.beatSrc = 0 → s.dev.gb aBEAT_CFG 2 = !rising → (∀ t, s.dev.tm.lastEdge = some t → 0 ≤ s.dev.since t →
      Int.ofNat (s.dev.gf aBEAT_CFG 16 16 * 4096) ≤ s.dev.since t) → s.dev.tm.cmps = [] →
    Yields (.beatInEdge rising) s fun d m => m = s.mem ∧ d.tm.beatCount = s.dev.tm.beatCount + 1 ∧ d.tm.beatStamp = s.dev.now ∧
      d.tm.lastEdge = some s.dev.now ∧ d.tm.beats = lastN 16 (s.dev.tm.beats ++ [(s.dev.tm.beatCount + 1, s.dev.now)]) ∧ d.regs = s.dev.regs ∧
      d.out = s.dev.out) ∧
  (∀ t, s.dev.beatSrc = 0 → s.dev.gb aBEAT_CFG 2 = !rising → s.dev.tm.lastEdge = some t → 0 ≤ s.dev.since t →
      s.dev.since t < Int.ofNat (s.dev.gf aBEAT_CFG 16 16 * 4096) →
    Yields (.beatInEdge rising) s fun d m => m = s.mem ∧ d = s.dev.sf aBEAT_STAT 0 16 (min 0xFFFF (s.dev.gf aBEAT_STAT 0 16 + 1))) ∧
  (∀ x rest, (s.dev.port p).markerIn = x :: rest → x.word % 16 = 2 → s.dev.beatSrc = 1 → p = s.dev.beatLink → s.dev.tm.cmps = [] →
    Yields (.beatMarker p) s fun d m => m = s.mem ∧ d.tm.beatCount = BitVec.ofNat 32 (nfld x.word 12 32) ∧
      d.tm.beatStamp = BitVec.ofNat 64 (nfld x.word 62 64) ∧ d.regs = s.dev.regs ∧ d.out = s.dev.out) ∧
  (∀ x rest, (s.dev.port p).markerIn = x :: rest → x.word % 16 = 2 → ¬(s.dev.beatSrc = 1 ∧ p = s.dev.beatLink) →
    Yields (.beatMarker p) s fun d m => m = s.mem ∧ d = { s.dev with ports := d.ports } ∧ (d.port p).markerIn = rest))

/-- Strikes fire (R38, R40, R44): the comparator that fires is released; a LAUNCH strike readies what waits for it; DRAIN holds the table; at
its deadline a comparator whose beat has not come ends the launch with STRIKE_LATE. Of the comparators that one count reaches, none fires before
those of a user that comes earlier in the order COMMIT, TABLE, MAINT, LAUNCH. -/
def Obligations.StrikesFire : Prop := ∀ (s : State) (c : Nat) (x : Cmp), s.dev.live = true →
  (s.dev.fires c = some x → ∀ id, x.act = .launchAs id → Gives (.launchStrike c) s fun d =>
    d = (s.dev.freeCmp x.id).modLaunch id (fun l => { l with ready := true, time := x.time })) ∧
  (s.dev.fires c = some x → ∀ g id, x.act = .launchWs g id → Gives (.launchStrike c) s fun d =>
    d = (s.dev.freeCmp x.id).modSend id (fun w => { w with ready := true, time := x.time })) ∧
  (s.dev.fires c = some x → ∀ g q, x.act = .launchCl g q → Gives (.launchStrike c) s fun d =>
    d = ((s.dev.freeCmp x.id).modOp g q (fun o => { o with fired := true })).tryLaunch g q) ∧
  (s.dev.fires c = some x → ∀ g q, x.act = .commit g q → Gives (.commitStrike c) s fun d => d = (s.dev.freeCmp x.id).updCommit g q) ∧
  (s.dev.fires c = some x → x.act = .drain → Gives (.tableDrainStrike c) s fun d =>
    d = { s.dev.freeCmp c with fb := { s.dev.fb with swap := s.dev.fb.swap.map (fun w => { w with drained := true }) } }) ∧
  (s.dev.fires c = some x → ∀ sw, s.dev.fb.swap = some sw → x.act = .swap → Gives (.tableSwapStrike c) s fun d =>
    d = (s.dev.swapNow sw c x.time).afterFence) ∧
  (∀ y ∈ s.dev.tm.cmps, s.dev.fires c = some x → y.id ≠ x.id → s.dev.cmpDue y = true → y.due = x.due → userRank x.user ≤ userRank y.user) ∧
  (s.dev.fires c = some x → ∀ num b, x.act = .twinCommit num → s.dev.tw.batch = some b → b.num = num →
    Yields (.twinCommitStrike c) s fun d m => m = s.mem ∧ d = (s.dev.freeCmp x.id).leadStrike b) ∧
  (s.dev.fires c = some x → ∀ num b, x.act = .twinCommit num → s.dev.tw.batch = none → s.dev.tw.prep = some b → b.num = num →
    Yields (.twinCommitStrike c) s fun d m => (d, m) = (s.dev.freeCmp x.id).followerStrike s.mem b) ∧
  (s.dev.fires c = some x → ∀ ref, x.act = .promote → s.dev.tw.promote = some ref → Gives (.twinPromoteStrike c) s fun d =>
    d.tw.promote = none ∧ (s.dev.twRole = 2 → d.gf aTW_CFG 0 2 = 1)) ∧
  (s.dev.tm.cmps.find? (fun y => y.id == c) = some x → x.wait ≠ none → s.dev.ahead x.time ≤ 0 → ∀ g q, x.act = .launchCl g q →
    Yields (.strikeDeadline c) s fun d m => m = s.mem ∧ d = (s.dev.freeCmp c).opFail g q stSTRIKE_LATE false none)

/-- The gate engines (R46 to R48, R158): a cycle begins at GE_BASE + k × GE_CYCLE with the first entry; each boundary brings the next entry; an
engine whose list does not sum to GE_CYCLE is not enabled; a write of GE_SWAP_HI arms the swap. -/
def Obligations.GateEnginesRun : Prop := ∀ (s : State) (g : Nat) (v w : W32) (d0 : Dev), g < 16 →
  (s.dev.live = true → s.dev.gb (aGE g) 0 = true → s.dev.rg (aGE g + 0xC) ≠ 0 →
    ∀ base, base = BitVec.ofNat 64 (s.dev.rg64 (aGE g + 4)) → 0 ≤ s.dev.since base → (s.dev.gate g).begun = false →
    (s.dev.gate g).armed = false → Gives (.gateCycleStart g) s fun d =>
      d.SameBut { s.dev with tm := { s.dev.tm with gates := d.tm.gates } } [] ∧ (d.gate g).begun = true ∧ (d.gate g).entry = 0 ∧
      0 ≤ s.dev.since (d.gate g).start ∧ s.dev.since (d.gate g).start < (s.dev.rg (aGE g + 0xC)).toNat ∧
      (∃ k : Nat, (d.gate g).start = base + BitVec.ofNat 64 (k * (s.dev.rg (aGE g + 0xC)).toNat)) ∧
      (d.gate g).ends = (d.gate g).start + BitVec.ofNat 64 (s.dev.rg (aGL g + 0x200)).toNat ∧ ∀ h, h ≠ g → d.gate h = s.dev.gate h) ∧
  (s.dev.live = true → s.dev.gb (aGE g) 0 = true → (s.dev.gate g).begun = true → s.dev.ahead (s.dev.gate g).ends ≤ 0 →
    (s.dev.gate g).entry < s.dev.gf (aGE g) 1 6 → Gives (.gateEntryBoundary g) s fun d =>
      d.gate g = { s.dev.gate g with entry := (s.dev.gate g).entry + 1,
                                       ends := (s.dev.gate g).ends + BitVec.ofNat 64 (s.dev.rg (aGL g + 0x200 + 8 * ((s.dev.gate g).entry + 1))).toNat } ∧
      d = { s.dev with tm := { s.dev.tm with gates := d.tm.gates } } ∧ ∀ h, h ≠ g → d.gate h = s.dev.gate h) ∧
  (s.dev.Sees (aGE g) v w d0 → bitAt w 0 = true →
    ((d0.glList g false (fld w 1 6 + 1)).map (fun e => e.1)).sum ≠ (d0.rg (aGE g + 0xC)).toNat ∨ d0.rg (aGE g + 0xC) = 0 →
    Gives (.geCtrlWrite g v) s fun d => d = d0.sb (aGE g + 0x18) 1 true) ∧
  (s.dev.Sees (aGE g) v w d0 → bitAt w 0 = true → d0.gb (aGE g) 0 = false →
    ((d0.glList g false (fld w 1 6 + 1)).map (fun e => e.1)).sum = (d0.rg (aGE g + 0xC)).toNat → d0.rg (aGE g + 0xC) ≠ 0 →
    d0.gateOk (d0.glList g false (fld w 1 6 + 1)) = true → Gives (.geCtrlWrite g v) s fun d =>
      d.gb (aGE g) 0 = true ∧ d.gf (aGE g) 1 6 = fld w 1 6 ∧ (d.gate g).begun = false ∧ d.SameBut { d0 with tm := { d0.tm with gates := d.tm.gates } } [aGE g]) ∧
  (s.dev.Sees (aGE g) v w d0 → bitAt w 0 = false → d0.gb (aGE g) 0 = false ∨ d0.gateBound g = false → Gives (.geCtrlWrite g v) s fun d =>
      d.gb (aGE g) 0 = false ∧ d.SameBut { d0 with tm := { d0.tm with gates := d.tm.gates } } [aGE g]) ∧
  (s.dev.Sees (aGE g + 0x14) v w d0 → Gives (.geSwapHiWrite g v) s fun d =>
      d.rg (aGE g + 0x14) = w ∧ (d.gate g).armed = true ∧ d.SameBut { d0 with tm := { d0.tm with gates := d.tm.gates } } [aGE g + 0x14])

/-! ## Lanes and links (chapter 3) -/

/-- Detectors of a lane (R53, R73, R80): a loss sets LOS or LOL with its sticky bit and begins the loss-hold period unless one runs; the lane's
other bits, every other register and every other lane stay. Block lock gained sets LOCK and clears LOL.

Lanes leave service and come back (R75, R82, R83, R84): a loss that lasts 2^LOSS_HOLD µs fences the lane; no block lock 1 ms after LOCK takes
the next alternative; TRAIN_TMO ms without UP takes the port DOWN with CAUSE 1; QUALIFY ends in UP when its flits are counted; a write of
LN_GROUP_CFG brings the group up at the new width.

Readings of the model: Time-outs in local cycles are log 4 (notes/assumptions). -/
def Obligations.LanesAndPorts : Prop :=
  (∀ (s : State) (l : Nat), s.dev.live = true → l < 528 →
  (Gives (.lossOfSignal l) s fun d => d = { s.dev with regs := d.regs, lanes := d.lanes } ∧ (∀ a, a ≠ aLN_LANE_STAT l → d.rg a = s.dev.rg a) ∧
    d.gb (aLN_LANE_STAT l) 0 = true ∧ d.gb (aLN_LANE_STAT l) 6 = true ∧
    (∀ i, i ≠ 0 → i ≠ 6 → d.gb (aLN_LANE_STAT l) i = s.dev.gb (aLN_LANE_STAT l) i) ∧
    (d.lane l).lossSince = some ((s.dev.lane l).lossSince.getD s.dev.tm.cycle) ∧ ∀ k, k ≠ l → d.lane k = s.dev.lane k) ∧
  (Gives (.lossOfLock l) s fun d => d = { s.dev with regs := d.regs, lanes := d.lanes } ∧ (∀ a, a ≠ aLN_LANE_STAT l → d.rg a = s.dev.rg a) ∧
    d.gb (aLN_LANE_STAT l) 1 = true ∧ d.gb (aLN_LANE_STAT l) 7 = true ∧
    (∀ i, i ≠ 1 → i ≠ 7 → d.gb (aLN_LANE_STAT l) i = s.dev.gb (aLN_LANE_STAT l) i) ∧
    (d.lane l).lossSince = some ((s.dev.lane l).lossSince.getD s.dev.tm.cycle) ∧ ∀ k, k ≠ l → d.lane k = s.dev.lane k) ∧
  (Gives (.blockLockLost l) s fun d => d = { s.dev with regs := d.regs, lanes := d.lanes } ∧ (∀ a, a ≠ aLN_LANE_STAT l → d.rg a = s.dev.rg a) ∧
    d.gb (aLN_LANE_STAT l) 2 = false ∧ d.gb (aLN_LANE_STAT l) 1 = true ∧ d.gb (aLN_LANE_STAT l) 7 = true) ∧
  (s.dev.portOfLane l = none → s.dev.gb (aLN_LANE_STAT l) 0 = false → Gives (.blockLockGained l) s fun d =>
    d.gb (aLN_LANE_STAT l) 2 = true ∧ d.gb (aLN_LANE_STAT l) 1 = false ∧ (d.lane l).lossSince = none) ∧
  (∀ p, s.dev.portOfLane l = some p → s.dev.gb (aLN_LANE_STAT l) 0 = true → Gives (.blockLockGained l) s fun d =>
    d = ((s.dev.sb (aLN_LANE_STAT l) 2 true).sb (aLN_LANE_STAT l) 1 false).advance p) ∧
  (s.dev.portOfLane l = none → Gives (.signalAndLockRegained l) s fun d =>
    d.gb (aLN_LANE_STAT l) 0 = false ∧ d.gb (aLN_LANE_STAT l) 1 = false ∧ (d.lane l).lossSince = none)) ∧
  (∀ (s : State) (l p g : Nat) (v w : W32) (d0 : Dev), s.dev.live = true →
  (l < 528 → s.dev.portOfLane l = some p → s.dev.lossHeld l = true → Gives (.laneLossFence l) s fun d => d = (s.dev.fenceLane p l).afterFence) ∧
  (l < 528 → s.dev.portOfLane l = some p → s.dev.portState p = 2 → l ∈ s.dev.wireLanes p → s.dev.gb (aLN_LANE_STAT l) 2 = false →
    1000000 ≤ s.dev.tm.cycle - (s.dev.lane l).lockAt → Gives (.laneLockTimeout l) s fun d => d = (s.dev.nextAlternative p l).afterFence) ∧
  (1 ≤ s.dev.portState p → s.dev.portState p ≤ 5 → orOne (s.dev.gf aLN_TRAIN_CFG 8 8) * 1000000 ≤ s.dev.tm.cycle - (s.dev.port p).bringAt →
    Gives (.bringupTimeout p) s fun d => d = (s.dev.portDown p 1).afterFence) ∧
  (s.dev.portState p = 5 → (s.dev.port p).qualLeft = 0 → Gives (.qualifyDone p) s fun d => d.portState p = 6 ∧
    d = { s.dev with regs := d.regs, ports := d.ports } ∧ ∀ a, a ≠ aLN_PORT_STAT p → d.rg a = s.dev.rg a) ∧
  (g < 64 → s.dev.Sees (aLN_GROUP_CFG g) v w d0 → Gives (.lnGroupCfgWrite g v) s fun d => d = (lnGroupCfgEffect g w d0).afterFence) ∧
  (s.dev.Sees aLN_UNFENCE v w d0 → bitAt w 31 = true → fld w 0 10 = l → l < 528 → d0.portOfLane l = some p → d0.portState p = 6 →
    d0.sorterLost p = false → Gives (.lnUnfence v) s fun d =>
      d = ((((d0.sb (aLN_LANE_STAT l) 3 false).setLane l { d0.lane l with failed := [] }).setCharges l 0 []).bringUp p).afterFence))

/-- A lane is fenced (R75): FENCED is set, its charges are forgotten, a LANE event names it, and its port falls back. A fence stands until
software lifts it: a second cause changes nothing.

ALIGN and TRAIN rows (R55, R57, R59, R74, R81): an ALIGN row is sent each 16,384 blocks with the computed BIP-8s; in DESKEW a width that differs
takes the port DOWN with CAUSE 3, and a skew of more than 128 blocks with CAUSE 2; in UP the retries of the period are charged to the lanes
whose BIP-8 disagreed; a TRAIN row of stage 0 on a port in UP makes it retrain on the subset that both ends' fences leave; a row of no known
type counts in BAD_CTRL.

Readings of the model: Cycle counts are log 4; the width an ALIGN row is held to is log 30 (notes/assumptions). -/
def Obligations.FencingAndTraining : Prop :=
  (∀ (d : Dev) (p l : Nat),
  (d.laneFenced l = true → d.fenceLane p l = d) ∧
  (d.laneFenced l = false → d.fenceLane p l =
    (((d.sb (aLN_LANE_STAT l) 3 true).setCharges l 0 []).laneEvent p 0 l).fallBack p)) ∧
  (∀ (s : State) (p : Nat), s.dev.live = true →
  let intact := fun (rows : List LaneAlign) => rows.filter (fun r => blockIntact r.block && r.block.headD 0 == 0xC3)
  (∀ bips, s.dev.portExists p = true → s.dev.portState p ≠ 0 → s.dev.portState p ≠ 7 → 8192 ≤ s.dev.tm.cycle - (s.dev.port p).alignSent →
    Gives (.alignSend p bips) s fun d =>
      d.out = s.dev.out ++ [.align p ((s.dev.lanesUsed p).map (fun i =>
        (s.dev.physLane p i, ctlBlock 0xC3 i (bips.getD i 0).toNat (s.dev.lanesOf p).length)))] ∧
      (d.port p).flits = 0 ∧ d.regs = s.dev.regs ∧ (d.port p).alignSent = s.dev.tm.cycle) ∧
  (∀ rows, s.dev.portState p = 3 → (intact rows).any (fun r => alignWidth r != (s.dev.lanesOf p).length) = true →
    Gives (.align p rows) s fun d => d = (s.dev.portDown p 3).afterFence) ∧
  (∀ rows, s.dev.portState p = 3 → (intact rows).any (fun r => alignWidth r != (s.dev.lanesOf p).length) = false →
    (intact rows).any (fun r => decide (128 < r.skew)) = true →
    Gives (.align p rows) s fun d => d = ((s.dev.sb (aLN_PORT_STAT p) 17 true).portDown p 2).afterFence) ∧
  (∀ rows, s.dev.portState p = 6 → (s.dev.port p).periodRetries = 0 → Gives (.align p rows) s fun d =>
    d = ((s.dev.lanesOf p).foldl (fun d l => d.setCharges l (s.dev.port p).period (d.lane l).charges)
      (s.dev.setPort p { s.dev.port p with periodRetries := 0, period := (s.dev.port p).period + 1 })).afterFence) ∧
  (∀ st fe ac b sub, s.dev.portState p = 6 → rowOf (trainBlocks st fe ac) = some b → bfld b 1 0 3 = 0 →
    let fences := rdLE b 2 1
    let d1 := (s.dev.retrain p).modPort p (fun x => { x with peerFence := fences })
    d1.pickSubset p (d1.fenceMask p ||| fences) = some sub → Gives (.train p st fe ac) s fun d => d = (d1.setSubset p sub).afterFence) ∧
  (∀ st fe ac b, s.dev.portState p = 6 → rowOf (trainBlocks st fe ac) = some b → bfld b 1 0 3 ≠ 0 →
    Gives (.train p st fe ac) s fun d => d = s.dev.afterFence) ∧
  (∀ blocks b, 3 ≤ s.dev.portState p → s.dev.portState p ≤ 6 → rowOf blocks = some b → rdLE b 0 1 ∉ [0x1E, 0xC3, 0x55, 0x66, 0x78] →
    Gives (.retryReq p blocks) s fun d => d = (s.dev.portCount p 24 8 1).afterFence) ∧
  (∀ up, s.dev.portExists p = true → s.dev.portState p ≠ 0 → Gives (.elasticIdleAdjust p up) s fun d =>
    d = { s.dev with ports := d.ports } ∧ (d.port p).elastic = (s.dev.port p).elastic + (if up then 1 else -1) ∧ ∀ q, q ≠ p → d.port q = s.dev.port q))

/-- Link-level retry (R68 to R70): RETRY_START ends the discarding when it names the flit expected; a RETRY_REQ outside the replay buffer counts
in BAD_CTRL, and one inside it replays from that flit; timers repeat the request and replay what is not acknowledged.

Flits (R55, R60, R61, R64, R68, R69): one that comes while the receiver discards changes nothing; one whose CRC or sync headers fail
makes it discard and ask for the flit expected; a duplicate is dropped; a due replay goes out before any new flit, under its own SEQ, its blocks
in turn on the lanes in use; a port of w lanes sends no more than 1,023 w flits from one ALIGN row to the next.

Readings of the model: Cycle counts are log 4 (notes/assumptions). -/
def Obligations.FlitsAndRetry : Prop :=
  (∀ (s : State) (p n : Nat) (blocks : List Bytes) (b : Bytes), s.dev.live = true → s.dev.carries p = true →
  let names := fun (kind : Nat) => rowOf blocks = some b ∧ rdLE b 0 1 = kind ∧ rdLE b 1 2 % 4096 = n
  (names 0x55 → (s.dev.port p).replayIndex n = none → Gives (.retryReq p blocks) s fun d => d = (s.dev.portCount p 24 8 1).afterFence) ∧
  (∀ i, names 0x55 → (s.dev.port p).replayIndex n = some i → Gives (.retryReq p blocks) s fun d => d = (s.dev.replayFrom p i).afterFence) ∧
  (names 0x66 → (s.dev.port p).discard = true → (s.dev.port p).rxNext = n → Gives (.retryStart p blocks) s fun d =>
    d = (s.dev.setPort p { s.dev.port p with discard := false, fragClean := false }).afterFence) ∧
  ((s.dev.port p).discard = true → orOne (s.dev.gf aLN_RETRY_CFG 12 8) * 64 ≤ s.dev.tm.cycle - (s.dev.port p).reqAt →
    Gives (.retryReqTimeout p) s fun d => d = { s.dev with ports := d.ports, out := d.out } ∧
      d.out = s.dev.out ++ [.row p (s.dev.wireLanes p) (ctlBlock 0x55 ((s.dev.port p).rxNext % 256) ((s.dev.port p).rxNext / 256 % 16) 0)] ∧
      d.port p = { s.dev.port p with reqAt := s.dev.tm.cycle }) ∧
  ((s.dev.port p).replay ≠ [] → orOne (s.dev.gf aLN_RETRY_CFG 0 8) * 64 ≤ s.dev.tm.cycle - (s.dev.port p).ackFrom →
    Gives (.ackTimeout p) s fun d => d = s.dev.replayFrom p 0)) ∧
  (∀ (s : State) (p : Nat) (f : Flit), s.dev.live = true → s.dev.carries p = true →
  ((s.dev.port p).discard = true → Gives (.flitReceive p f) s fun d =>
    d = s.dev.clPoll) ∧
  ((s.dev.port p).discard = false → flitGood (s.dev.flitOrder p f) = false → Gives (.flitReceive p f) s fun d => d = (s.dev.flitFails p).clPoll) ∧
  ((s.dev.port p).flits < 1023 * (s.dev.lanesUsed p).length → 0 < (s.dev.port p).resend → (s.dev.port p).resend ≤ (s.dev.port p).replay.length → ∀ x,
    (s.dev.port p).replay[(s.dev.port p).replay.length - (s.dev.port p).resend]? = some x → Gives (.flitSend p) s fun d =>
      d = { s.dev with ports := d.ports, out := d.out } ∧ (d.port p).resend = (s.dev.port p).resend - 1 ∧
      d.out = s.dev.out ++ [.flit p (s.dev.flitBlocks p x.data (flitTrailer x.data x.seq (((s.dev.port p).rxNext + 4095) % 4096) x.credit))]) ∧
  (1023 * (s.dev.lanesUsed p).length ≤ (s.dev.port p).flits → Gives (.flitSend p) s fun d => d = s.dev))

/-! ## Paths, buffer, policing and service (chapters 4 to 6) -/

/-- The sorter's instructions (R89 to R92), each on a sorter that has not ended, with `a` = s_A and `b` = s_B or IMM: a new value of s_D and
the next slot, or an output, a branch, an end; nothing else of the device changes but the count of drops. Execution ends after slot 255.

An illegal sorter instruction acts as DROP and sets RT_STAT.PROG_BAD (R93): a jump with I set, of offset zero or past slot 256, an LDH of
a reserved field, an OUT of a reserved output.

Readings of the model: That a row acts on the stored registers is log 27 (notes/assumptions). -/
def Obligations.SorterRuns : Prop :=
  (∀ (s : State) (g : Nat) (f : SrFields) (x : SorterRun), s.dev.live = true → g < 64 →
  s.dev.sorter g = x → x.ended = false →
  let a := x.s.getD (f.a % 8) 0
  let b := if f.i then BitVec.ofNat 32 (f.imm % 65536) else x.s.getD (f.b % 8) 0
  let slot := fun (y : SorterRun) (n : Nat) => { y with pc := n, ended := decide (256 ≤ n) }
  let puts := fun (i : Instr) (v : W32) => Gives i s fun d => d = s.dev.setSorter g (slot { x with s := lset (f.d % 8) v x.s } (x.pc + 1))
  let jumps := fun (i : Instr) (taken : Prop) => f.i = false → f.imm % 256 ≠ 0 → x.pc + f.imm % 256 ≤ 256 → Gives i s fun d =>
    (taken → d = s.dev.setSorter g (slot x (x.pc + f.imm % 256))) ∧ (¬taken → d = s.dev.setSorter g (slot x (x.pc + 1)))
  puts (.srLdi g f) (BitVec.ofNat 32 (f.imm % 65536)) ∧
  puts (.srLui g f) (BitVec.ofNat 32 (f.imm % 65536 * 65536 + (x.s.getD (f.d % 8) 0).toNat % 65536)) ∧
  puts (.srAdd g f) (a + b) ∧ puts (.srSub g f) (a - b) ∧ puts (.srAnd g f) (a &&& b) ∧ puts (.srOr g f) (a ||| b) ∧ puts (.srXor g f) (a ^^^ b) ∧
  puts (.srShl g f) (a <<< (b.toNat % 32)) ∧ puts (.srShr g f) (a >>> (b.toNat % 32)) ∧
  puts (.srHash g f) (BitVec.ofNat 32 (crc32c (toLE 4 a.toNat ++ toLE 4 b.toNat))) ∧
  puts (.srLut g f) (s.dev.rg (aSP_ACTIVE g + 0x400 + 4 * (a.toNat % 256))) ∧
  (∀ p, x.id.bind s.dev.pkt? = some p → f.imm % 32 = 8 → puts (.srLdh g f) (BitVec.ofNat 32 p.pkt.dst)) ∧
  jumps (.srJeq g f) (a = b) ∧ jumps (.srJne g f) (a ≠ b) ∧ jumps (.srJlt g f) (a.toNat < b.toNat) ∧ jumps (.srJge g f) (b.toNat ≤ a.toNat) ∧
  jumps (.srJmp g f) True ∧
  (f.imm % 8 = 3 → Gives (.srOut g f) s fun d => d = s.dev.setSorter g (slot { x with dte := a.toNat % 2 ^ 15 } (x.pc + 1))) ∧
  (Gives (.srEnd g f) s fun d => d = s.dev.setSorter g { x with ended := true }) ∧
  (Gives (.srDrop g f) s fun d => d = (s.dev.setSorter g { x with ended := true, dropped := true }).count aCNT_SORT_DROP)) ∧
  (∀ (s : State) (g : Nat) (f : SrFields) (x : SorterRun), s.dev.live = true → g < 64 →
  s.dev.sorter g = x → x.ended = false →
  let drops := fun (i : Instr) => Gives i s fun d =>
    d = ((s.dev.setSorter g { x with ended := true, dropped := true }).count aCNT_SORT_DROP).sb aRT_STAT 19 true
  (f.i = true ∨ f.imm % 256 = 0 ∨ 256 < x.pc + f.imm % 256 →
    drops (.srJeq g f) ∧ drops (.srJne g f) ∧ drops (.srJlt g f) ∧ drops (.srJge g f) ∧ drops (.srJmp g f)) ∧
  (24 ≤ f.imm % 32 → drops (.srLdh g f)) ∧ (5 ≤ f.imm % 8 → drops (.srOut g f)))

/-- A packet arrives (R87, R128, R428): on a port with no kind, with LEN above 4,096, or under another endpoint's SRC, it is counted in
CNT_BAD_HDR, reported and dropped, and its credits go back; a follower discards it; one with room in its partition takes its cells and waits for
the sorter.

Readings of the model: The rows that a packet passes through are log 26 (notes/assumptions). -/
def Obligations.PacketArrives : Prop := ∀ (s : State) (p : Nat) (x : RxPkt) (rest : List RxPkt), s.dev.live = true → p < 256 →
  (s.dev.port p).rxWhole = x :: rest →
  let taken := s.dev.modPort p (fun q => { q with rxWhole := rest, waits := false })
  (s.dev.follower = false → s.dev.kind p = 0 ∨ 4096 < x.pkt.len ∨ (s.dev.kind p = 1 ∧ x.pkt.src ≠ s.dev.epId p) →
    Gives (.packetArrive p) s fun d => d = ((taken.count aCNT_BAD_HDR).report 4 0 0 0).oweCredits p x.pkt.mclass x.pkt.cellCount) ∧
  (s.dev.follower = true → Gives (.packetArrive p) s fun d => d = (taken.count aCNT_TW_DISCARD).oweCredits p x.pkt.mclass x.pkt.cellCount) ∧
  (s.dev.follower = false → s.dev.kind p = 2 ∨ s.dev.kind p = 3 ∨ s.dev.kind p = 4 → x.pkt.len ≤ 4096 →
    s.dev.usedBy (8 * p + x.pkt.mclass) + x.pkt.cellCount ≤ s.dev.reserve (8 * p + x.pkt.mclass) → Gives (.packetArrive p) s fun d =>
      d = (taken.addPkt (if s.dev.kind p = 2 then x.pkt.setH 22 1 1 else x.pkt) (some p) x.hdrTime x.replayed (.part p x.pkt.mclass)
        .waiting).reHome s.dev.fb.nextId)

/-- A notice for this device is consumed where it rests (R138 to R140): a PRUNED one enters the endpoint among the fenced of its group.

The sorter classifies the first packet that waits in its group and the packet goes on as the outputs say (R88, R149); the rows that follow
find nothing else to act on: the device is then as `classify` leaves it. A class-0 copy, or else the round robin's choice, starts on a port that
can start one (R155, R156).

Readings of the model: That a notice for DST 0 rests here is log 12, the rows a packet passes through log 26 (notes/assumptions). -/
def Obligations.PacketsLeave : Prop :=
  (∀ (s : State) (p : Nat), s.dev.live = true →
  (∀ b, s.dev.inboxPkt p 0xF1 = some b → Gives (.pruned p) s fun d =>
    d = (s.dev.dropPkt b.id).noteFenced (nfld b.pkt.arg0 31 16) (nfld b.pkt.arg0 0 15)) ∧
  (∀ b, s.dev.inboxPkt p 0xF0 = some b → Gives (.fencedNak p) s fun d => d = s.dev.dropPkt b.id)) ∧
  (∀ (s : State) (g p u : Nat) (flow : Nat), s.dev.live = true →
  (∀ b, g < 64 → s.dev.firstWaiting g = some b → (s.dev.srRun g 257 (.start b)).1.dropped = true →
    (s.dev.srRun g 257 (.start b)).2 = false → s.dev.fb.swap = none → Gives (.sorterClassify g) s fun d =>
      d = ((s.dev.setSorter g (s.dev.srRun g 257 (.start b)).1).dropPkt b.id).count aCNT_SORT_DROP) ∧
  (∀ b x pk, g < 64 → s.dev.firstWaiting g = some b → s.dev.srRun g 257 (.start b) = (x, false) → x.dropped = false → s.dev.fb.swap = none →
    pk = ((b.pkt.setH 8 3 x.tc).setH 64 18 x.flow).setH 14 1 (b.pkt.ordered || x.ord).toNat → x.pol = 0xFFFF → pk.mclass = 0 →
    pk.size ≤ s.dev.gf (aSV_CLASS_LEN pk.tc) 0 13 → Gives (.sorterClassify g) s fun d =>
      d = ((s.dev.setSorter g x).modPkt b.id (fun _ => { b with pkt := pk, dte := x.dte })).routePkt b.id) ∧
  (∀ b, s.dev.canStart p = true → s.dev.classZero p = some b → Gives (.packetDepart p) s fun d => d = s.dev.startCopy p b) ∧
  (∀ b x, s.dev.canStart p = true → s.dev.classZero p = none → s.dev.drr p 4000 (s.dev.port p) = some (b, x) →
    Gives (.packetDepart p) s fun d => d = (s.dev.setPort p x).startCopy p b) ∧
  (∀ b, (s.dev.heldOf flow) = [b] → Int.ofNat (orOne (s.dev.gf aRT_CFG 16 8) * 4096) ≤ s.dev.since b.time → Gives (.rsqGapTimeout flow) s fun d =>
    d = s.dev.gap flow []) ∧
  (∀ b, s.dev.fb.pkts = [b] → b.fence ≠ [] → b.copies.any (fun c => c.port == p) = true → (∀ i ∈ b.fence, i ≠ b.id ∧ ∀ k ∈ s.dev.fb.unacked, k.id ≠ i) →
    Gives (.fenceRelease p) s fun d => d = s.dev.modPkt b.id (fun b => { b with fence := [] })) ∧
  (∀ x rest, takeFirst (fun (x : Nat × Pkt × List Nat) => x.1 == u) s.dev.fb.unitWait = some (x, rest) →
    s.dev.unitRoom u x.2.1.cellCount = true → Gives (.unitCellTake u) s fun d =>
      d = Dev.unitTake { s.dev with fb := { s.dev.fb with unitWait := rest } } u x.2.1 x.2.2) ∧
  (∀ ids, ids = (s.dev.fb.pkts.filter (fun b => b.place == .miss && b.pkt.flow == flow)).map (fun b => b.id) → ids ≠ [] →
    s.dev.stackShut 7 = false → (s.dev.flowCtx flow).valid = true → s.dev.fb.swap = none → Gives (.flowCtxFetch flow) s fun d =>
      d = ids.foldl (fun d id => d.resumeMiss id) (s.dev.cacheTouch flow)) ∧
  (∀ b, s.dev.fb.pkts = [b] → b.place = .early → b.src = some p → s.dev.grp? b.pkt.group = none → Gives (.heldPacketTimeout p) s fun d =>
    d = s.dev.ungranted b.id) ∧
  (∀ cell q b, s.dev.fb.pkts = [b] → b.copies.any (fun c => c.port == p && c.q == q) = true → b.cells.any (fun c => c.1 == cell) = true →
    b.src.isSome = true → Gives (.bufferEccError p q ⟨cell, false⟩) s fun d =>
      let bad := if s.dev.fb.badCells.contains cell then s.dev.fb.badCells else cell :: s.dev.fb.badCells
      d = (Dev.dropCopy { s.dev with fb := { s.dev.fb with badCells := bad } } b.id p).report 9 1 (cell / 262144) cell))

/-- TABLE_SWAP is judged when it is taken up (R114): a MODE other than absolute is BAD_OPCODE, a SWAP not after DRAIN is LENGTH_RANGE; one that
passes takes two TABLE comparators, for DRAIN and for SWAP, and stands pending; while one is pending another conflicts.

Shadow tables (R112, R116): a write of DT_SHADOW stores the word and sets the entry's DIRTY bit, one of SP_SHADOW marks its group; while a
swap is pending or the old bank lives both are ignored and RT_STAT.SHADOW_REJ is set; the old bank retires at its time. -/
def Obligations.TablesAndShadows : Prop :=
  (∀ (s : State) (r : Nat) (f : Fetched) (d1 : Dev),
  s.dev.takeFetched r (fun f => f.ref.op == 0x60) = some (f, d1) →
  let time := fun off => BitVec.ofNat 64 (rdLE (sl f.bytes off 16) 0 8)
  let flags := bfld f.bytes 48 0 2
  (bfld (sl f.bytes 16 16) 8 0 2 ≠ 1 ∨ bfld (sl f.bytes 32 16) 8 0 2 ≠ 1 →
    Gives (.tableSwap r) s fun d => d = d1.completeS f.ref stBAD_OPCODE) ∧
  (bfld (sl f.bytes 16 16) 8 0 2 = 1 → bfld (sl f.bytes 32 16) 8 0 2 = 1 → bfld (sl f.bytes 16 16) 8 8 56 = 0 →
    bfld (sl f.bytes 32 16) 8 8 56 = 0 →
    ((time 32 - time 16).toInt ≤ 0 → Gives (.tableSwap r) s fun d => d = d1.completeS f.ref stLENGTH_RANGE) ∧
    (0 < (time 32 - time 16).toInt → d1.judgeTime f.time (time 16) = none → d1.judgeTime f.time (time 32) = none →
      (d1.fb.swap.isSome = true ∨ d1.gb aRT_STAT 17 = true → Gives (.tableSwap r) s fun d => d = d1.completeS f.ref stCONFLICT) ∧
      (d1.fb.swap = none → d1.gb aRT_STAT 17 = false → flags = 1 → d1.cmpFree 2 2 = true → Gives (.tableSwap r) s fun d =>
        d.fb.swap = some ⟨f.ref, true, false, false⟩ ∧ d.tm.cmps.length = d1.tm.cmps.length + 2 ∧ d.gb aRT_STAT 16 = true ∧
        d.out = s.dev.out ∧ ∀ a, a ≠ aRT_STAT → d.rg a = s.dev.rg a)))) ∧
  (∀ (s : State) (e g w : Nat) (v u : W32) (d0 : Dev),
  (e < 32768 → w < 4 → s.dev.Sees (aDT_SHADOW e + 4 * w) v u d0 → d0.shadowClosed = true → Gives (.dtShadowWrite e w v) s fun d =>
    d = d0.sb aRT_STAT 18 true) ∧
  (e < 32768 → w < 4 → s.dev.Sees (aDT_SHADOW e + 4 * w) v u d0 → d0.shadowClosed = false → Gives (.dtShadowWrite e w v) s fun d =>
    d = ((Dev.plainWrite (aDT_SHADOW e + 4 * w) u d0).sb (aDT_SHADOW e) 3 true).mirror (.reg (aDT_SHADOW e + 4 * w) u)) ∧
  (g < 64 → w < 512 → s.dev.Sees (aSP_SHADOW g + 4 * w) v u d0 → d0.shadowClosed = true → Gives (.spShadowWrite g w v) s fun d =>
    d = d0.sb aRT_STAT 18 true) ∧
  (g < 64 → w < 512 → s.dev.Sees (aSP_SHADOW g + 4 * w) v u d0 → d0.shadowClosed = false → Gives (.spShadowWrite g w v) s fun d =>
    let dirty := if d0.fb.spDirty.contains g then d0.fb.spDirty else g :: d0.fb.spDirty
    d = Dev.mirror { Dev.plainWrite (aSP_SHADOW g + 4 * w) u d0 with fb := { d0.fb with spDirty := dirty } } (.reg (aSP_SHADOW g + 4 * w) u)) ∧
  (s.dev.live = true → s.dev.gb aRT_STAT 17 = true → s.dev.ahead s.dev.fb.retireAt ≤ 0 → Gives .oldBankRetire s fun d =>
    d.gb aRT_STAT 17 = false ∧ d.fb.changed = [] ∧ d.out = s.dev.out))

/-- FLOW_CTX (R146): READ writes the 64-byte image of each context to host memory in order, ZERO clears the counters, WRITE loads the images
unless a pin limit forbids it; the checks come before any context changes. -/
def Obligations.FlowContexts : Prop := ∀ (s : State) (r op : Nat) (f : Fetched) (d1 : Dev),
  s.dev.takeFlowCtx r op = some (f, d1) →
  let first := rdLE f.bytes 16 4
  let n := rdLE f.bytes 20 4
  (op = 1 → d1.flowJudge f = none → Gives (.flowCtxRead r) s fun d =>
    d = ((List.range n).foldl (fun d i => d.emit (.hostWrite (rdLE f.bytes 24 8 + 64 * i) (d.flowImage (first + i)))) d1).completeS f.ref stOK) ∧
  (op = 2 → d1.flowJudge f = none → Gives (.flowCtxZero r) s fun d =>
    d = ((d1.flowZero first n).mirror (.desc f.bytes [])).completeS f.ref stOK) ∧
  (op = 0 → d1.flowJudge f = none → ∀ images d2, d1.flowWrite first n (padTo (64 * n) images) = some d2 → Gives (.flowCtxWrite r images) s fun d =>
    d = (d2.mirror (.desc f.bytes (padTo (64 * n) images))).completeS f.ref stOK) ∧
  (op = 0 → d1.flowJudge f = none → ∀ images, d1.flowWrite first n (padTo (64 * n) images) = none → Gives (.flowCtxWrite r images) s fun d =>
    d = d1.completeS f.ref stCONFLICT)

/-- Writes that set up quotas, policers, service and gates (R124, R126, R130, R154, R157, R162, R163): a value the rules do not admit is
refused with CFG_REJ, SUM_REJ or CONFLICT in its block's status register and nothing else; an admitted one is stored.

A reservation is refused where the sum of all would leave less than SHARED_MIN of the cells not retired (R126): SUM_REJ is set and nothing
else happens. One that fits is stored.

Readings of the model: The last clause, a sum of all reservations, reads R126 with log 31 (notes/assumptions). -/
def Obligations.ServiceAndReservations : Prop :=
  (∀ (s : State) (i p u t : Nat) (v w : W32) (d0 : Dev),
  (i < 16384 → s.dev.Sees (aPOL i + 0xC) v w d0 → (d0.rg (aPOL i + 4)).toNat < (d0.rg (aPOL i)).toNat → Gives (.policerCommit i v) s fun d =>
    d = d0.sb aSV_STAT 0 true) ∧
  (i < 16384 → s.dev.Sees (aPOL i + 0xC) v w d0 → (d0.rg (aPOL i)).toNat ≤ (d0.rg (aPOL i + 4)).toNat → d0.gf (aPOL i + 8) 0 24 ≠ 0xFFFFFF →
    fld w 0 24 ≠ 0xFFFFFF → fld w 27 5 = 0 → Gives (.policerCommit i v) s fun d =>
      let x : Policer := ⟨(d0.rg (aPOL i)).toNat, (d0.rg (aPOL i + 4)).toNat, d0.gf (aPOL i + 8) 0 24, fld w 0 24, bitAt w 24, bitAt w 25,
        bitAt w 26, d0.gf (aPOL i + 8) 0 24 * 65536, fld w 0 24 * 65536, d0.now⟩
      d = Dev.mirror { d0.wr (aPOL i + 0xC) w with fb := { d0.fb with policers := mput Policer.init i x d0.fb.policers } }
        (.reg (aPOL i + 0xC) w)) ∧
  (s.dev.perst = true → i < 16384 → Gives (.polLastLoRead i) s fun d =>
    d.out = s.dev.out ++ [.readValue (aPOL i + 0x18) (BitVec.ofNat 32 (s.dev.policer i).last.toNat)] ∧ d.regs = s.dev.regs ∧
    mget 0 i d.fb.polHi = if s.dev.stopped then mget 0 i s.dev.fb.polHi else BitVec.ofNat 32 ((s.dev.policer i).last.toNat / 2 ^ 32)) ∧
  (p < 256 → s.dev.Sees (aQT_PORT_QF p) v w d0 → fld w 0 16 < 17 ∨ fld w 16 16 < 17 ∨ d0.portState p ≠ 0 → Gives (.qtPortQfWrite p v) s fun d =>
    d = d0.sb aLR_STAT 0 true) ∧
  (p < 256 → s.dev.Sees (aQT_PORT_QF p) v w d0 → 17 ≤ fld w 0 16 → 17 ≤ fld w 16 16 → fld w 0 16 ≠ 0xFFFF → fld w 16 16 ≠ 0xFFFF → d0.portState p = 0 →
    Gives (.qtPortQfWrite p v) s fun d => d = d0.tryQuota (aQT_PORT_QF p) w [8 * p, 8 * p + 1]) ∧
  (p < 256 → s.dev.Sees (aQT_PORT_PC p) v w d0 → 17 ≤ fld w 0 16 → fld w 0 16 ≠ 0xFFFF → fld w 16 16 ≠ 0xFFFF → d0.portState p = 0 →
    Gives (.qtPortPcWrite p v) s fun d => d = d0.tryQuota (aQT_PORT_PC p) w [8 * p + 2, 8 * p + 3]) ∧
  (p < 256 → s.dev.Sees (aQT_PORT_RSQ p) v w d0 → fld w 0 16 ≠ 0xFFFF → d0.portState p = 0 → Gives (.qtPortRsqWrite p v) s fun d =>
    d = d0.tryQuota (aQT_PORT_RSQ p) w [8 * p + 4]) ∧
  (u < 67 → s.dev.Sees (aQT_UNIT u) v w d0 → fld w 0 16 ≤ fld w 16 16 → fld w 0 16 ≠ 0xFFFF → fld w 16 16 ≠ 0xFFFF → Gives (.qtUnitWrite u v) s fun d =>
    d = d0.tryQuota (aQT_UNIT u) w [4096 + u]) ∧
  (p < 256 → t < 28 → s.dev.Sees (aSV_QUANT p t) v w d0 → Gives (.svQuantWrite p t v) s fun d =>
    d = if fld w 0 16 = 0 ∨ fld w 0 16 = 0xFFFF then d0.sb aSV_STAT 0 true
      else (Dev.plainWrite (aSV_QUANT p t) w d0).mirror (.reg (aSV_QUANT p t) w)) ∧
  (t < 8 → s.dev.Sees (aSV_CLASS_LEN t) v w d0 → Gives (.svClassLenWrite t v) s fun d =>
    d = if fld w 0 13 % 8 ≠ 0 ∨ fld w 0 13 < 32 ∨ 4136 < fld w 0 13 then d0.sb aSV_STAT 0 true
      else (Dev.plainWrite (aSV_CLASS_LEN t) w d0).mirror (.reg (aSV_CLASS_LEN t) w)) ∧
  (p < 256 → s.dev.Sees (aSV_GATE_BIND p) v w d0 → Gives (.svGateBindWrite p v) s fun d =>
    d = if bitAt w 4 = true ∧ (d0.gb (aGE (fld w 0 4)) 0 = false ∨ d0.gb (aSV_GATE_BIND p) 4 = true)
      then d0.sb aSV_STAT 1 true else Dev.plainWrite (aSV_GATE_BIND p) w d0)) ∧
  (∀ (d : Dev) (a : Nat) (v : W32) (keys : List Nat),
  let d' := Dev.plainWrite a v d
  d.tryQuota a v keys = if 1048576 - 256 * d.gf aLR_CFG 8 12 - (d.rg aLR_RETIRED).toNat <
      d.sumReserved + (keys.map d'.reserve).sum - (keys.map d.reserve).sum
    then d.sb aLR_STAT 1 true else d.setQuota a v keys)

/-- FD_MAP fences endpoints (R136), and what a fence reaches is done with it: queued copies, operations, the twin pair. -/
def Obligations.EndpointsFenced : Prop := ∀ (s : State) (i : Nat) (v w : W32) (d0 : Dev), i < 1024 →
  s.dev.Sees (aFD_MAP i) v w d0 → Gives (.fdMapWrite i v) s fun d => d = (d0.wr (aFD_MAP i) w).afterFence

/-! ## Smelters (chapters 7 and 8) -/

/-- The recipe's operations (R234) on the registers of a sequencer, lane by lane in the accumulation format. LDIN and STACC act in ARRIVE alone
and EMIT in FINAL alone; each goes on to the next word; no other run and nothing else of the device changes.

Readings of the model: That a row acts on the stored registers is log 27 (notes/assumptions). -/
def Obligations.RecipeOperations : Prop := ∀ (s : State) (sm : Nat) (f : RcFields) (x : RcRun), s.dev.live = true → sm < 64 →
  (s.dev.smPhys sm).isSome = true → mget RcRun.init sm s.dev.sm.runs = x →
  let runs := fun (i : Instr) (P : RcRun → Prop) => Gives i s fun d => ∃ y,
    d = { s.dev with sm := { s.dev.sm with runs := mput RcRun.init sm y s.dev.sm.runs } } ∧ y.pc = x.pc + 1 ∧ P y
  let lanes := fun (opr : Nat) (y : RcRun) => y.acc = x.acc ∧ y.out = x.out ∧
    y.v = lset f.d (List.zipWith (fun a b => (combine x.accFmt opr x.strict a b).code) (x.reg f.a) (x.reg f.b)) x.v
  runs (.rcNop sm f) (fun y => y = { x with pc := x.pc + 1 }) ∧
  (x.final = false → runs (.rcLdin sm f) fun y => y.acc = x.acc ∧
    y.v = lset f.d (x.inp.map (fun c => (expandRaw x.inFmt x.accFmt x.strict c).code)) x.v) ∧
  (x.final = true → runs (.rcLdin sm f) fun y => y = { x with pc := x.pc + 1 }) ∧
  runs (.rcLdacc sm f) (fun y => y = { x with pc := x.pc + 1, v := lset f.d (if x.fresh then x.acc.map (fun _ => 0) else x.acc) x.v }) ∧
  (x.final = false → runs (.rcStacc sm f) fun y => y = { x with pc := x.pc + 1, acc := x.reg f.a }) ∧
  (x.fresh = true → runs (.rcRed sm f) fun y => y = { x with pc := x.pc + 1, v := lset f.d (x.reg f.b) x.v }) ∧
  (x.fresh = false → runs (.rcRed sm f) (lanes x.opr)) ∧
  runs (.rcAdd sm f) (lanes 0) ∧ runs (.rcMul sm f) (lanes 1) ∧ runs (.rcMax sm f) (lanes 2) ∧ runs (.rcMin sm f) (lanes 3) ∧
  runs (.rcAbs sm f) (fun y => y.v = lset f.d ((x.reg f.a).map (fun c => (accAbs x.accFmt x.strict c).code)) x.v ∧ y.acc = x.acc) ∧
  runs (.rcNeg sm f) (fun y => y.v = lset f.d ((x.reg f.a).map (fun c => (accNeg x.accFmt x.strict c).code)) x.v ∧ y.acc = x.acc) ∧
  runs (.rcLdk sm f) (fun y => y.v = lset f.d ((x.reg f.d).map (fun _ => (accConst x.accFmt x.strict f.imm).code)) x.v ∧ y.acc = x.acc ∧ y.out = x.out) ∧
  (x.final = true → runs (.rcEmit sm f) fun y => y = { x with pc := x.pc + 1, out := x.reg f.a, emitted := true }) ∧
  (x.final = false → runs (.rcEmit sm f) fun y => y = { x with pc := x.pc + 1 })

/-- INT64 arithmetic of a reduction (R185, R214): an accumulator holds 64-bit two's complement codes; sums and products saturate and say so
(OVERFLOW); MAX and MIN compare as signed numbers; AND, OR and XOR work on the codes. -/
def Obligations.Int64Combine : Prop := ∀ (a b : BitVec 64) (strict : Bool),
  let r := fun opr => combine 15 opr strict a.toNat b.toNat
  (∀ z, z = a.toInt + b.toInt → ((-2 ^ 63 ≤ z ∧ z < 2 ^ 63) → (r 0).code = (a + b).toNat ∧ (r 0).ovf = false) ∧
    (2 ^ 63 ≤ z → (r 0).code = 2 ^ 63 - 1 ∧ (r 0).ovf = true) ∧ (z < -2 ^ 63 → (r 0).code = 2 ^ 63 ∧ (r 0).ovf = true)) ∧
  (r 2).code = (if a.toInt < b.toInt then b else a).toNat ∧ (r 3).code = (if a.toInt < b.toInt then a else b).toNat ∧
  (r 4).code = (a &&& b).toNat ∧ (r 5).code = (a ||| b).toNat ∧ (r 6).code = (a ^^^ b).toNat

/-- Registers of the Smelter block (R220, R236, R246, R493): a recipe that a context names, and recipes 0 to 15, keep their words, and RCP_REJ says so of one
that a context names; SM_CFG is refused while a context is held and in compatibility mode; SM_QHEAD_LO is the key of the first pending request.

Packets of a reduction (R210, R212, R219, R229): a partial input is taken by the launched operation that it names; one for an operation that
has not launched here is discarded and counted; a grant raises the neighbour's LIMIT; an abort fails the operation with the status it
carries, or is kept for one not yet created.

Readings of the model: How an abort travels is log 37 (notes/assumptions). -/
def Obligations.SmelterRegistersAndPackets : Prop :=
  (∀ (s : State) (r w : Nat) (v u : W32) (d0 : Dev),
  (r < 16 → w < 32 → s.dev.Sees (aRCP r + 4 * w) v u d0 → Gives (.rcpWrite r w v) s fun d =>
    d = if d0.cl.ops.any (fun o => o.ctxHeld != 0 && bfld o.body 48 15 6 == r) then d0.sb aSM_STAT 0 true else d0) ∧
  (16 ≤ r → r < 64 → w < 32 → s.dev.Sees (aRCP r + 4 * w) v u d0 → Gives (.rcpWrite r w v) s fun d =>
    d = if d0.cl.ops.any (fun o => o.ctxHeld != 0 && bfld o.body 48 15 6 == r) then d0.sb aSM_STAT 0 true
      else (Dev.plainWrite (aRCP r + 4 * w) u d0).mirror (.reg (aRCP r + 4 * w) u)) ∧
  (s.dev.Sees aSM_CFG v u d0 → Gives (.smCfgWrite v) s fun d =>
    d = if d0.gb aREP_COMPAT 0 = true ∨ d0.ctxInUse = true then d0.sb aSM_STAT 1 true else (Dev.plainWrite aSM_CFG u d0).reshape) ∧
  (s.dev.perst = true → s.dev.stopped = false → ∀ o, s.dev.headRequest false = some o → Gives .smQheadLoRead s fun d =>
    d.out = s.dev.out ++ [.readValue 0x60018 (BitVec.ofNat 32 o.key.toNat)] ∧ d.sm.qhi = BitVec.ofNat 32 (o.key.toNat / 2 ^ 32) ∧ d.regs = s.dev.regs)) ∧
  (∀ (s : State) (p : Nat) (b : BPkt) (x : Grp), s.dev.live = true →
  s.dev.grp? b.pkt.group = some x →
  (∀ o, s.dev.inboxPkt p 0xE0 = some b → s.dev.op? b.pkt.group b.pkt.arg1 = some o → o.launched = true → b.replayed = false →
    Gives (.smPart p) s fun d => d = (s.dev.takePart b x o p).clPoll) ∧
  (∀ o, s.dev.inboxPkt p 0xE0 = some b → s.dev.op? b.pkt.group b.pkt.arg1 = some o → o.launched = false →
    Gives (.smPart p) s fun d => d = ((s.dev.dropPkt b.id).count aCNT_SM_UNGRANTED).report 4 8 0 0) ∧
  (∀ o, s.dev.inboxPkt p 0xE1 = some b → s.dev.op? b.pkt.group b.pkt.arg1 = some o → o.launched = true → b.replayed = false →
    Gives (.smGrant p) s fun d => d = (s.dev.takeGrant b x o p).clPoll) ∧
  (∀ o, s.dev.inboxPkt p 0xE2 = some b → (s.dev.dropPkt b.id).grp? b.pkt.group = some x → (s.dev.dropPkt b.id).op? b.pkt.group b.pkt.arg1 = some o →
    Gives (.smAbort p) s fun d => d = (s.dev.dropPkt b.id).opFail b.pkt.group b.pkt.arg1 (abortStatus (nfld b.pkt.arg0 0 8)) true
      ((s.dev.dropPkt b.id).nbOfPort x p)))

/-- Tallies (R225, R226, R228): the request with the lowest key of a pool is granted when its slots, a context and its frames are free; one that
waits longer than TALLY_TMO fails with TALLY_TIMEOUT.

Faults of Smelters and of reduction memory (R206, R231, R443): a corrected error is reported and nothing else. At an uncorrectable one the
Smelter is reported and fenced, and the operations with a piece on it fail with DATA_LOST; the slot is counted as retired for good and its
pool, or the operation that held it, loses it; a slot retired before has no further error. -/
def Obligations.TalliesAndFaults : Prop :=
  (∀ (s : State) (o : ClOp) (floor : Bool) (g q : Nat), s.dev.live = true →
  (s.dev.headRequest floor = some o → s.dev.grantable floor o = true → Gives (.tallyGrant floor) s fun d => d = s.dev.grantTally floor o) ∧
  (s.dev.op? g q = some o → o.granted = false → Int.ofNat (orOne (s.dev.gf aSM_TALLY_CFG 16 16) * 4096) ≤ s.dev.since o.key →
    Gives (.tallyTimeout g q) s fun d => d = (s.dev.opFail g q stTALLY_TIMEOUT true none).count aCNT_TALLY_TIMEOUT)) ∧
  (∀ (s : State) (phys slot : Nat), s.dev.live = true →
  (phys < 68 → s.dev.smFenced phys = false → Gives (.smelterFault phys true) s (fun d => d = s.dev.report 13 0 phys 0) ∧
    Gives (.smelterFault phys false) s fun d =>
      d = (((List.range 64).filter (fun l => s.dev.smPhys l == some phys)).flatMap s.dev.opsOn).foldl
        (fun d h => d.opFail h.1 h.2 stDATA_LOST true none) ((s.dev.report 13 1 phys 0).fenceSmelter phys)) ∧
  (slot < 32768 → slot ∉ s.dev.sm.retired →
    let d1 : Dev := { (s.dev.report 10 1 (slot / 8192) slot).count aSM_RETIRED with sm := { s.dev.sm with retired := s.dev.sm.retired ++ [slot] } }
    (∀ w, Gives (.redMemEccError ⟨slot, true⟩ w) s fun d => d = s.dev.report 10 0 (slot / 8192) slot) ∧
    (s.dev.gf 0x6000C 0 16 ≠ 0 → Gives (.redMemEccError ⟨slot, false⟩ (.pool false)) s fun d => d = d1.sf 0x6000C 0 16 (d1.gf 0x6000C 0 16 - 1)) ∧
    (s.dev.gf 0x60010 0 16 ≠ 0 → Gives (.redMemEccError ⟨slot, false⟩ (.pool true)) s fun d =>
      d = (d1.sf 0x60010 0 16 (d1.gf 0x60010 0 16 - 1)).refloor) ∧
    (∀ g q o, s.dev.op? g q = some o → o.held ≠ 0 → Gives (.redMemEccError ⟨slot, false⟩ (.op g q)) s fun d => d = d1.slotLost o)) ∧
  (∀ w b, slot < 32768 → slot ∈ s.dev.sm.retired → Gives (.redMemEccError ⟨slot, b⟩ w) s fun d => d = s.dev))

/-! ## Collectives and groups (chapter 9) -/

/-- A collective descriptor (R256 to R259, R267, R268) that passes its checks and is the first of its operation creates it with its comparators,
marks the group's record, and asks for a tally; a stale OPSEQ is answered ABORTED; one that fails a check completes with that status and
changes nothing else, except that one whose SLOTS give no tally (R224) tells the other devices of the group. Said for each of the nine opcodes.

Readings of the model: The order of the checks is log 38 (notes/assumptions). -/
def Obligations.CollectivesPosted : Prop := ∀ (s : State) (r : Nat) (f : Fetched) (d1 : Dev) (i : Instr) (op : Nat),
  (i, op) ∈ [(.allreduce r, 0x20), (.reduce r, 0x21), (.reduceScatter r, 0x22), (.allgather r, 0x23), (.broadcast r, 0x24), (.alltoall r, 0x25),
    (.alltoallv r, 0x26), (.barrier r, 0x27), (.reduceUpdateGather r, 0x28)] →
  s.dev.takeFetched r (fun f => f.ref.op == op) = some (f, d1) →
  (∀ st, d1.clJudge f (ClOp.of f) = .inl st → d1.tallyFails f (ClOp.of f) = none → Gives i s fun d => d = d1.completeS f.ref st) ∧
  (∀ st x, d1.clJudge f (ClOp.of f) = .inl st → d1.tallyFails f (ClOp.of f) = some x → d1.op? (rdLE f.bytes 32 2) (rdLE f.bytes 36 4) = none →
    (rdLE f.bytes 32 2, rdLE f.bytes 36 4) ∉ d1.cl.gone → Gives i s fun d =>
      d = ((d1.sendAbort x (rdLE f.bytes 36 4) stLENGTH_RANGE none).noteGone (rdLE f.bytes 32 2) (rdLE f.bytes 36 4)).completeS f.ref st) ∧
  (∀ x k c, d1.clJudge f (ClOp.of f) = .inr (x, k, c) → d1.op? (rdLE f.bytes 32 2) (rdLE f.bytes 36 4) = none →
    d1.clComparators (ClOp.of f) = true → staleSeq x (rdLE f.bytes 36 4) = true → (rdLE f.bytes 32 2, rdLE f.bytes 36 4) ∈ d1.cl.gone →
    Gives i s fun d => d = (d1.sb aCL_STAT 2 true).completeS f.ref stABORTED) ∧
  (∀ x k c, d1.clJudge f (ClOp.of f) = .inr (x, k, c) → d1.op? (rdLE f.bytes 32 2) (rdLE f.bytes 36 4) = none →
    d1.clComparators (ClOp.of f) = true → staleSeq x (rdLE f.bytes 36 4) = false → Gives i s fun d => d = d1.clCreate x (ClOp.of f) f k c) ∧
  (∀ x k c o, d1.clJudge f (ClOp.of f) = .inr (x, k, c) → d1.op? (rdLE f.bytes 32 2) (rdLE f.bytes 36 4) = some o →
    Gives i s fun d => d = d1.clJoin x o f) ∧
  (∀ x k c, d1.clJudge f (ClOp.of f) = .inr (x, k, c) → d1.op? (rdLE f.bytes 32 2) (rdLE f.bytes 36 4) = none →
    d1.clComparators (ClOp.of f) = false → Gives i s fun d => d = d1.completeS f.ref stSTRIKE_BUSY)

/-- A second descriptor of an operation (R258): one with other bytes than the first, or of a rank that has joined, aborts the operation; another one
joins it and, once it has launched, gets its grant. -/
def Obligations.JoinRule : Prop := ∀ (d : Dev) (x : Grp) (o : ClOp) (f : Fetched),
  (sameBody o.body f.bytes = true → o.joins.any (fun j => j.1 == clRank f) = true →
    d.clJoin x o f = ((d.opFail o.group o.opseq stABORTED true none).count aCNT_CL_ABORTED).completeS f.ref stABORTED) ∧
  (sameBody o.body f.bytes = false →
    d.clJoin x o f = (((d.sb aCL_STAT 1 true).opFail o.group o.opseq stABORTED true none).count aCNT_CL_ABORTED).completeS f.ref stABORTED) ∧
  (sameBody o.body f.bytes = true → o.joins.any (fun j => j.1 == clRank f) = false → o.launched = false →
    d.clJoin x o f = (d.modOp o.group o.opseq (fun o => { o with joins := o.joins ++ [(clRank f, f.ref)], timer := d.now })).opPoll o.group o.opseq)

/-- ORDER_TIMEOUT (R270): an operation that lacks something of another member or device for longer than the group's limit fails with it, and is counted.

Packets of a collective (R109, R261 to R265): CL_DATA, CL_COUNT and CL_DONE that name a launched operation are taken by it; those that come
before the launch are held; those of a stale OPSEQ are dropped. CL_DATA of a group without a record finds no route.

Readings of the model: That CL_DATA of an unknown group finds no route is log 39 (notes/assumptions). -/
def Obligations.CollectiveTraffic : Prop :=
  (∀ (s : State) (g q : Nat) (o : ClOp) (x : Grp), s.dev.live = true → s.dev.op? g q = some o →
  s.dev.grp? g = some x → o.waits = true → s.dev.opLacks x o = true → Int.ofNat x.tmoTicks ≤ s.dev.since o.timer → o.upSent = false →
  Gives (.orderTimeout g q) s fun d => d = (s.dev.opFail g q stORDER_TIMEOUT true none).count aCNT_ORDER_TIMEOUT) ∧
  (∀ (s : State) (p : Nat) (b : BPkt) (i : Instr) (op : Nat) (take : Dev → BPkt → Grp → ClOp → Nat → Dev),
  s.dev.live = true → (i, op) ∈ [(.clData p, 0xE3), (.clCount p, 0xE5), (.clDone p, 0xE4)] →
  take = (if op = 0xE3 then Dev.takeData else if op = 0xE5 then Dev.takeCount else Dev.takeDone) → s.dev.inboxPkt p op = some b →
  (∀ x o, s.dev.grp? b.pkt.group = some x → s.dev.op? b.pkt.group b.pkt.arg1 = some o → o.launched = true → b.replayed = false →
    Gives i s fun d => d = (take s.dev b x o p).clPoll) ∧
  (∀ x o, s.dev.grp? b.pkt.group = some x → s.dev.op? b.pkt.group b.pkt.arg1 = some o → o.launched = false →
    Gives i s fun d => d = (s.dev.modPkt b.id (fun b => { b with place := .early })).clPoll) ∧
  (∀ x, s.dev.grp? b.pkt.group = some x → s.dev.op? b.pkt.group b.pkt.arg1 = none → staleSeq x b.pkt.arg1 = true →
    Gives i s fun d => d = (s.dev.dropPkt b.id).clPoll) ∧
  (s.dev.grp? b.pkt.group = none → op = 0xE3 → Gives i s fun d => d = s.dev.noRoute b.id))

/-- GROUP_SET and its DELETE form (R252): the checks come in order, and what they leave is completed with the status: group 0 is BAD_OPCODE, a group
with operations conflicts, deleting a group that has no record is OK.

Readings of the model: That the record memories stay compact is log 14 (notes/assumptions). -/
def Obligations.GroupSet : Prop := ∀ (s : State) (r : Nat) (f : Fetched) (d1 : Dev) (image : Bytes) (del : Bool),
  s.dev.takeFetched r (fun f => f.ref.op == 0x61 && (bfld f.bytes 18 0 1 == 1) == del) = some (f, d1) → bfld f.bytes 18 0 1 = del.toNat →
  let g := rdLE f.bytes 16 2
  let i : Instr := if del then .groupDelete r else .groupSet r image
  (g = 0 → Gives i s fun d => d = d1.completeS f.ref stBAD_OPCODE) ∧
  (∀ x, del = true → g ≠ 0 → d1.grp? g = some x → x.active ≠ 0 → Gives i s fun d => d = (d1.sb aCL_STAT 0 true).completeS f.ref stCONFLICT) ∧
  (∀ x, del = true → g ≠ 0 → d1.grp? g = some x → x.active = 0 → Gives i s fun d =>
    let d2 : Dev := { d1 with cl := { d1.cl with aborts := d1.cl.aborts.filter (fun b => b.1 != g), gone := d1.cl.gone.filter (fun b => b.1 != g) } }
    d = ((d2.groupRemove x).mirror (.desc f.bytes [])).completeS f.ref stOK) ∧
  (del = true → g ≠ 0 → d1.grp? g = none → Gives i s fun d => d = (d1.mirror (.desc f.bytes [])).completeS f.ref stOK) ∧
  (∀ im, del = false → g ≠ 0 → im = padTo (64 + 16 * imgNnbr image + 4 * imgNmemb image) image →
    d1.inWindow r (rdLE f.bytes 24 8) 64 = true → rdLE im 0 2 = g → imgNmemb im ≠ 0 → imgNmemb im ≤ 32768 → imgNnbr im ≤ 16 →
    d1.inWindow r (rdLE f.bytes 24 8) (64 + 16 * imgNnbr im + 4 * imgNmemb im) = true → d1.imageOk im = true → d1.grp? g = none →
    d1.groupRoom none im = true →
    Gives i s fun d => d = ((d1.groupWrite g 0 im).mirror (.desc f.bytes image)).completeS f.ref stOK)

/-! ## Assay (chapters 10, 11 and 15) -/

/-- Control instructions (R278, R281, R286, R312, R313): the result with which each goes on for a core that may execute. BR on a mask and GSYNC do
so in LOCKSTEP alone; FORK, JOIN and BAR have an effect in one of the two modes only.

Readings of the model: CALL in LOCKSTEP is log 57; FORK, JOIN, BAR and END are log 58 (notes/assumptions). -/
def Obligations.AssayControl : Prop := ∀ (s : State) (core : Core) (c c1 : AsCtx) (f : FmtB) (rel a : Nat),
  s.dev.asCtx? s.mem core = some c → s.dev.freeNext.asCtx? s.mem core = some c1 →
  let goes := fun i r => GoesOn i s s.dev core c false r
  let joins := fun r => GoesOn (.asJoin core) s s.dev.freeNext core c1 false r
  let br := if c.cond f then c.jumpTo c.b (sext 12 f.rel) else c.goOn 1 c.b
  goes (.asNop core) (c.goOn 1 c.b) ∧ goes (.asJmp core rel) (c.jumpTo c.b (sext 24 rel)) ∧
  goes (.asJr core a) { b := c.b, next := Int.ofNat (c.own a), jump := true } ∧ (f.cond % 8 < 5 → goes (.asBr core f) br) ∧
  (c.b.free = false → goes (.asEnd core) { b := { c.b with done := true }, next := c.pc } ∧ goes (.asBr core f) br ∧
    goes (.asCall core rel) (c.jumpTo ((List.range 32).foldl (fun b i => b.setReg i 63 (c.pc + 1) false) c.b) (sext 24 rel)) ∧
    goes (.asFork core) (c.goOn 1 { c.b with free := true, ended := [], bar := [], joining := [] }) ∧
    joins (c1.goOn 1 c1.b) ∧ goes (.asBar core) (c.goOn 1 c.b) ∧ goes (.asGsync core) (c.goOn 1 { c.b with gsync := true })) ∧
  (c.b.free = true → (c.b.ended.length < 31 → goes (.asEnd core)
      { b := ({ c.b with ended := c.thread :: c.b.ended, done := false } : Bench).barCheck, next := c.pc }) ∧
    goes (.asCall core rel) (c.jumpTo (c.b.setReg c.thread 63 (c.pc + 1) false) (sext 24 rel)) ∧ goes (.asFork core) (c.goOn 1 c.b) ∧
    (c1.b.ended = [] → c1.b.joining.length < 31 → joins (c1.goOn 1 { c1.b with joining := c1.thread :: c1.b.joining })) ∧
    goes (.asBar core) (c.goOn 1 ({ c.b with bar := c.thread :: c.b.bar } : Bench).barCheck))

/-- Integer, bit, lane and mask instructions (R280, R309, R314, R320, R323): the result with which each goes on. Sums and products wrap, MIN, MAX and
SRA take signed numbers, shifts count modulo 32; SHFL and the mask instructions do so in LOCKSTEP alone. -/
def Obligations.AssayInteger : Prop := ∀ (s : State) (core : Core) (c : AsCtx) (f : FmtR) (fi : FmtI) (k : FmtK) (w1 : W32),
  s.dev.asCtx? s.mem core = some c →
  let goes := fun i r => GoesOn i s s.dev core c false r
  let int := fun (i : Instr) (op : W32 → W32 → W32) => goes i (c.perLane 1 f.m fun l =>
    { ws := [(f.d, (op (BitVec.ofNat 32 (c.b.reg l f.a)) (BitVec.ofNat 32 (c.b.reg l f.b))).toNat, false)] })
  let mask := fun (i : Instr) (op : W32 → W32 → W32) => goes i
    (c.goOn 1 (c.b.setMask k.md (op (BitVec.ofNat 32 (c.b.mreg k.ma)) (BitVec.ofNat 32 (c.b.mreg k.mb))).toNat))
  goes (.asMov core f) (c.perLane 1 f.m fun l => { ws := [(f.d, c.b.reg l f.a, c.b.der l f.a)] }) ∧
  int (.asIadd core f) (fun a b => a + b) ∧ int (.asIsub core f) (fun a b => a - b) ∧ int (.asImul core f) (fun a b => a * b) ∧
  int (.asImin core f) (fun a b => if b.slt a then b else a) ∧ int (.asImax core f) (fun a b => if a.slt b then b else a) ∧
  int (.asAnd core f) (fun a b => a &&& b) ∧ int (.asOr core f) (fun a b => a ||| b) ∧ int (.asXor core f) (fun a b => a ^^^ b) ∧
  int (.asShl core f) (fun a b => a <<< (b.toNat % 32)) ∧ int (.asShr core f) (fun a b => a >>> (b.toNat % 32)) ∧
  int (.asSra core f) (fun a b => a.sshiftRight (b.toNat % 32)) ∧
  goes (.asAddi core fi) (c.perLane 1 0 fun l => { ws := [(fi.d, c.b.reg l fi.a + ofInt 32 (sext 12 fi.imm), false)] }) ∧
  goes (.asLi core fi w1) (c.perLane 2 0 fun _ => { ws := [(fi.d, w1.toNat, false)] }) ∧
  goes (.asSel core f) (c.perLane 1 0 fun l =>
    let r := if c.b.free || (c.b.mreg f.m).testBit l then f.a else f.b
    { ws := [(f.d, c.b.reg l r, c.b.der l r)] }) ∧
  goes (.asRng core f) (c.perLane 1 f.m fun l => { ws := ((c.genAt l f.a).zip (List.range 4)).map (fun w => (f.d + w.2, w.1.toNat, false)) }) ∧
  (c.b.free = false →
    goes (.asShfl core f) (c.perLane 1 f.m fun l =>
      { ws := [(f.d, c.b.reg (c.b.reg l f.b % 32) f.a, c.b.der (c.b.reg l f.b % 32) f.a)] }) ∧
    goes (.asTail core k) (c.goOn 1 (c.b.setMask k.md (2 ^ (min 32 (sext 32 (c.b.reg 0 k.x)).toNat) - 1))) ∧
    goes (.asMovrm core k) (c.goOn 1 (c.b.setMask k.md (c.b.reg 0 k.x))) ∧
    goes (.asMovmr core k) (c.perLane 1 0 fun _ => { ws := [(k.x, c.b.mreg k.ma, false)] }) ∧
    mask (.asMand core k) (fun a b => a &&& b) ∧ mask (.asMor core k) (fun a b => a ||| b) ∧ mask (.asMxor core k) (fun a b => a ^^^ b) ∧
    mask (.asMandn core k) (fun a b => a &&& ~~~ b) ∧ mask (.asMnot core k) (fun a _ => ~~~ a))

/-- Floating-point instructions (R289, R315 to R319, R321): the result with which each goes on. CMP, RED, REDS and a CVT into an MX format do so in
LOCKSTEP alone.

Readings of the model: Details of numeric flags are log 21 (notes/assumptions). -/
def Obligations.AssayFloat : Prop := ∀ (s : State) (core : Core) (c : AsCtx) (f : FmtR) (w1 : W32), s.dev.asCtx? s.mem core = some c →
  let goes := fun i r => GoesOn i s s.dev core c false r
  let elem := fun i use op => goes i (c.perLane 1 f.m (c.elemLane f use op))
  let func := fun i op => goes i (c.perLane 1 f.m (c.funcLane f op))
  elem (.asFadd core f) ⟨true, false⟩ (fun ff st a b _ => fAdd ff st a b) ∧ elem (.asFsub core f) ⟨true, false⟩ (fun ff st a b _ => fSub ff st a b) ∧
  elem (.asFmul core f) ⟨true, false⟩ (fun ff st a b _ => fMul ff st a b) ∧ elem (.asFma core f) ⟨true, true⟩ (fun ff st a b d => fFma ff st a b d) ∧
  elem (.asFnma core f) ⟨true, true⟩ (fun ff st a b d => fFnma ff st a b d) ∧
  elem (.asFmin core f) ⟨true, false⟩ (fun ff st a b _ => fMin ff st a b) ∧ elem (.asFmax core f) ⟨true, false⟩ (fun ff st a b _ => fMax ff st a b) ∧
  elem (.asFabs core f) ⟨false, false⟩ (fun ff st a _ _ => fSign ff st false a) ∧
  elem (.asFneg core f) ⟨false, false⟩ (fun ff st a _ _ => fSign ff st true a) ∧
  goes (.asDot2 core f) (c.perLane 1 f.m (c.dotLane f 2)) ∧ (f.t = 5 → goes (.asDot4 core f) (c.perLane 1 f.m (c.dotInt f))) ∧
  (f.t ≠ 5 → goes (.asDot4 core f) (c.perLane 1 f.m (c.dotLane f 4))) ∧
  func (.asDiv core f) 0x30 ∧ func (.asRcp core f) 0x31 ∧ func (.asSqrt core f) 0x32 ∧ func (.asRsqrt core f) 0x33 ∧ func (.asExp core f) 0x34 ∧
  func (.asExp2 core f) 0x35 ∧ func (.asLog core f) 0x36 ∧ func (.asLog2 core f) 0x37 ∧ func (.asTanh core f) 0x38 ∧ func (.asSigmoid core f) 0x39 ∧
  func (.asSin core f) 0x3A ∧ func (.asCos core f) 0x3B ∧
  (isMx (fld w1 0 5) = false → goes (.asCvt core f w1) (c.cvt f w1.toNat)) ∧
  (c.b.free = false → goes (.asCvt core f w1) (c.cvt f w1.toNat) ∧ goes (.asCmp core f) (c.cmp f) ∧
    GoesOn (.asRed core f) s s.dev core c true (c.red f 0) ∧ GoesOn (.asReds core f) s s.dev core c true (c.red f (c.b.mreg f.b)))

/-- Memory instructions and the row soft maximum (R282 to R287, R322, R324): the result with which each goes on; a load may use a free value.

Readings of the model: Window and scratch addresses are log 55, SOFTMAX log 59; no statement rests on the free value of a racing load (logs
10, 54) (notes/assumptions). -/
def Obligations.AssayMemory : Prop := ∀ (s : State) (core : Core) (c c1 : AsCtx) (f : FmtM) (fr : FmtR) (w1 : W32),
  s.dev.asCtx? s.mem core = some c → s.dev.freeNext.asCtx? s.mem core = some c1 →
  let ld := fun i n => GoesOn i s s.dev.freeNext core c1 false (c1.load f n)
  let st := fun (i : Instr) n => c.firstBad f n true (c.lanes f.m) = none →
    GoesOn i s s.dev core c false (c.goOn 1 ((c.lanes f.m).foldl (c.storeOne f n) c.b))
  let atom := fun i op => GoesOn i s s.dev core c false (c.atom f op)
  ld (.asLd8 core f) 1 ∧ ld (.asLd16 core f) 2 ∧ ld (.asLd32 core f) 4 ∧ ld (.asLd64 core f) 8 ∧
  st (.asSt8 core f) 1 ∧ st (.asSt16 core f) 2 ∧ st (.asSt32 core f) 4 ∧ st (.asSt64 core f) 8 ∧
  atom (.asAtomAdd core f) (fun a b => a + b) ∧ atom (.asAtomMin core f) (fun a b => if b.slt a then b else a) ∧
  atom (.asAtomMax core f) (fun a b => if a.slt b then b else a) ∧ atom (.asAtomAnd core f) (fun a b => a &&& b) ∧
  atom (.asAtomOr core f) (fun a b => a ||| b) ∧ atom (.asAtomXor core f) (fun a b => a ^^^ b) ∧
  (c.b.free = false → GoesOn (.asSoftmax core fr w1) s s.dev core c true (c.softmax fr w1.toNat))

/-- What an instruction on lanes leaves in the registers of its bench (R275, R280, R309, R310, R314): an active lane's register D holds the result,
computed from the sources as they stood before; every other register of every lane, every mask, the scratch and the rest of the bench are
unchanged; x0 reads as zero and takes no write. For any operation on two registers, whose lanes are those of the mask, or the thread. -/
def Obligations.AssayLaneResults : Prop := ∀ (c : AsCtx) (f : FmtR) (op : W32 → W32 → W32),
  let r := c.int2 f op
  r.stop = .go ∧ r.ieee = 0 ∧ r.flags = 0 ∧ r.evs = [] ∧ r.jump = false ∧ r.next = c.pc + 1 ∧
  r.b = { c.b with x := r.b.x, xd := r.b.xd } ∧
  ∀ lane q, r.b.reg lane q = (if f.d % 64 ≠ 0 ∧ q % 64 = f.d % 64 ∧ lane ∈ c.lanes f.m
      then (op (BitVec.ofNat 32 (c.b.reg lane f.a)) (BitVec.ofNat 32 (c.b.reg lane f.b))).toNat else c.b.reg lane q) ∧
    r.b.der lane q = (if f.d % 64 ≠ 0 ∧ q % 64 = f.d % 64 ∧ lane ∈ c.lanes f.m then false else c.b.der lane q)

/-- How an instruction stops its launch (R278, R284, R299, R305, R306, R365): lockstep only in FREE is a JOIN fault; a fault of its own is recorded;
a lost line ends the launch with DATA_LOST; a trap that halts ends it with NAN_TRAPPED; an address at which no instruction starts is a JUMP
fault. An instruction that the program does not have at the core's word address does nothing. For NOP, JMP, GSYNC and a 32-bit store and load, which between them show every kind.

Readings of the model: Where a jump may land is log 56 (notes/assumptions). -/
def Obligations.AssayStops : Prop := ∀ (s : State) (core : Core) (c c1 : AsCtx) (f : FmtM) (rel : Nat),
  s.dev.asCtx? s.mem core = some c → s.dev.freeNext.asCtx? s.mem core = some c1 →
  let fault := fun (d : Dev) (x : AsCtx) cause win store lane ofs => d.launchFault s.mem x.l cause win store core.bench lane x.pc ofs
  (c.runs (.asGsync core) = true → c.b.free = true → Yields (.asGsync core) s fun d m => (d, m) = fault s.dev c 4 0 false c.thread 0) ∧
  (∀ lane cause, c.runs (.asSt32 core f) = true → c.firstBad f 4 true (c.lanes f.m) = some (lane, cause) → Yields (.asSt32 core f) s fun d m =>
    (d, m) = fault s.dev c cause (if cause = 1 then f.w % 8 else 0) true lane (c.offset f 4 lane % 2 ^ 32)) ∧
  (c1.runs (.asLd32 core f) = true → (c1.load f 4).stop = .lost → Yields (.asLd32 core f) s fun d m => (d, m) = s.dev.freeNext.launchFail s.mem c1.l.id stDATA_LOST) ∧
  (∀ r, c.runs (.asJmp core rel) = true → r = c.jumpTo c.b (sext 24 rel) → c.b.done = false → ((s.dev.asNote c core.bench false r).2.fired && c.num.halt) = false →
    asNextOk ((s.dev.asNote c core.bench false r).1.prog (runSlot c.l.body)) r = false →
    Yields (.asJmp core rel) s fun d m => (d, m) = fault (s.dev.asNote c core.bench false r).1 c 3 0 false c.thread 0) ∧
  (∀ g, c.runs (.asFadd core g) = true →
    let r := c.elem g ⟨true, false⟩ (fun ff st a b _ => fAdd ff st a b)
    (s.dev.asNote c core.bench false r).2.fired = true → c.num.halt = true → Yields (.asFadd core g) s fun d m => (d, m) =
      ((s.dev.asNote c core.bench false r).1.putBench core.bench r.b).launchFail s.mem c.l.id stNAN_TRAPPED) ∧
  (c.runs (.asNop core) = false → Yields (.asNop core) s fun d m => d = s.dev ∧ m = s.mem)

/-- Programs (R294, R328, R329): a descriptor of ASSAY_LOAD or its UNLOAD form that passes every check puts the image into its slot, or empties the
slot, mirrors the change where a twin follows, and completes with OK; one that names a slot in use completes with CONFLICT.

Registers of the engine (R300, R304, R413): AS_PROFILE and AS_RESV are refused while launches or updates are at work and leave a mark; REP_COMPAT is
refused while launches or contexts are held, or with a bench count of 0 or above 96; otherwise the field is stored and the machine takes
its new shape. -/
def Obligations.AssayProgramsAndRegisters : Prop :=
  (∀ (s : State) (r slot len : Nat) (image : Bytes) (f : Fetched) (d0 : Dev),
  slot = rdLE f.bytes 16 2 → len = rdLE f.bytes 20 4 → slot ≤ 63 →
  (s.dev.takeFetched r (fun f => f.ref.op == 0x41 && (bfld f.bytes 18 0 1 == 1) == false) = some (f, d0) →
    0 < len → len ≤ 65536 → rdLE f.bytes 18 2 = 0 → d0.inWindow r (rdLE f.bytes 24 8) len = true →
    (d0.slotUsed slot = false → asImageOk (padTo len image) len = true → Gives (.assayLoad r image) s fun d =>
      d = ((d0.setProg slot (padTo len image)).mirror (.desc f.bytes (padTo len image))).completeS f.ref stOK) ∧
    (d0.slotUsed slot = true → Gives (.assayLoad r image) s fun d => d = d0.completeS f.ref stCONFLICT) ∧
    (d0.slotUsed slot = false → asImageOk (padTo len image) len = false → Gives (.assayLoad r image) s fun d => d = d0.completeS f.ref stBAD_OPCODE)) ∧
  (s.dev.takeFetched r (fun f => f.ref.op == 0x41 && (bfld f.bytes 18 0 1 == 1) == true) = some (f, d0) →
    len ≤ 65536 → rdLE f.bytes 18 2 = 1 → d0.slotUsed slot = false → Gives (.assayUnload r) s fun d =>
      d = ((d0.setProg slot []).mirror (.desc f.bytes (padTo len []))).completeS f.ref stOK)) ∧
  (∀ (s : State) (v w : W32) (d0 : Dev),
  (s.dev.Sees aAS_PROFILE v w d0 →
    (d0.as_.launches ≠ [] → Gives (.asProfileWrite v) s fun d => d = d0.sb aAS_STAT 0 true) ∧
    (d0.as_.launches = [] → d0.updateBusy = false → d0.ctxInUse = false → w.getLsbD 0 = false →
      Gives (.asProfileWrite v) s fun d => d = (Dev.plainWrite aAS_PROFILE w d0).assignBenches.powerBenches)) ∧
  (s.dev.Sees aAS_RESV v w d0 →
    (d0.updateBusy = true → Gives (.asResvWrite v) s fun d => d = d0.sb aAS_STAT 1 true) ∧
    (d0.as_.launches = [] → d0.updateBusy = false → (∀ k, k < 4 → 0 < fld w (8 * k) 6 ∧ fld w (8 * k) 6 ≤ d0.perDeck) →
      Gives (.asResvWrite v) s fun d => d = (Dev.plainWrite aAS_RESV w d0).reshapeFrom d0.shapeRecord)) ∧
  (s.dev.Sees aREP_COMPAT v w d0 →
    (fld w 8 8 = 0 ∨ 96 < fld w 8 8 → Gives (.repCompatWrite v) s fun d => d = d0.sb aREP_STAT 0 true) ∧
    (d0.as_.launches = [] → d0.ctxInUse = false → 0 < fld w 8 8 → fld w 8 8 ≤ 96 →
      Gives (.repCompatWrite v) s fun d => d = (Dev.plainWrite aREP_COMPAT w d0).reshapeFrom d0.shapeRecord)))

/-- Launches (R295 to R299, R304, R365, R443): a judged ASSAY_RUN completes with the status it earned or is entered with its strike; a ready launch
whose benches are free takes them and the shard versions as committed; one whose benches have all finished writes its stores and completes
with flags and hallmark, or fails with the status that unreadable data under a HALL window gives; one that runs too long stops with a LIMIT fault; a faulting bench is reported and its launch fails.

Readings of the model: The ends of a launch are log 53 (notes/assumptions). -/
def Obligations.AssayLaunches : Prop := ∀ (s : State) (r id phys : Nat) (f : Fetched) (d0 : Dev) (l l1 : Launch) (st hall : Nat) (k : Strike), s.dev.live = true →
  (s.dev.takeFetched r (fun f => f.ref.op == 0x40) = some (f, d0) → d0.runJudge f = .inl st →
    Gives (.assayRun r) s fun d => d = d0.completeS f.ref st) ∧
  (s.dev.takeFetched r (fun f => f.ref.op == 0x40) = some (f, d0) → d0.runJudge f = .inr k →
    Gives (.assayRun r) s fun d => d = d0.runQueue f k) ∧
  (s.dev.launch? id = some l → l.running = false → l.ready = true → s.dev.runLost l.body = false →
    s.dev.startable l (s.dev.runBenches l.body) = true → (codeStarts (s.dev.prog (runSlot l.body))).contains (rdLE l.body 40 4) = true →
    Yields (.assayLaunchStart id) s fun d m => d = s.dev.launchPlace l (s.dev.runBenches l.body) ∧ m = s.mem) ∧
  (s.dev.launch? id = some l → l.running = true → (s.dev.benchesOf l).all (fun b => b.done) = true →
    (s.dev.endPhase s.mem id).launch? id = some l1 → (s.dev.endPhase s.mem id).launchHall s.mem l1 = .inr hall →
    Yields (.assayLaunchComplete id) s fun d m => m = l1.written.foldl (fun m e => mput 0 e.1 e.2 m) s.mem ∧
      d = (((((s.dev.endPhase s.mem id).launchRelease l1).linesStored l1.written).hmNote 0x40 stOK 0 l1.ref.hmId 0 hall).complete l1.ref
        { flags := l1.flags, ieee := l1.ieee, hall := hall })) ∧
  (s.dev.launch? id = some l → l.running = true → (s.dev.benchesOf l).all (fun b => b.done) = true →
    (s.dev.endPhase s.mem id).launch? id = some l1 → (s.dev.endPhase s.mem id).launchHall s.mem l1 = .inl st →
    Yields (.assayLaunchComplete id) s fun d m => (d, m) = (s.dev.endPhase s.mem id).launchFail s.mem id st) ∧
  (s.dev.launch? id = some l → l.running = true → Int.ofNat (orOne (s.dev.gf aAS_CFG 0 16) * 2 ^ 20) < s.dev.since l.start →
    let b := (l.benches.find? (fun b => (s.dev.bench? b).any (fun x => !x.done))).getD (l.benches.headD 0)
    Yields (.assayRunLimit id) s fun d m =>
      (d, m) = s.dev.launchFault s.mem l 5 0 false b 0 (((s.dev.bench? b).map (fun x => mget 0 0 x.pcs)).getD 0) 0) ∧
  (phys < 136 → s.dev.benchFenced phys = false →
    Yields (.benchFault ⟨phys, false⟩) s (fun d m => (d, m) = (s.dev.report 12 1 phys 0).benchOut s.mem phys) ∧
    Yields (.benchFault ⟨phys, true⟩) s fun d m => d = s.dev.report 12 0 phys 0 ∧ m = s.mem)

/-! ## Training sets (chapter 12) -/

/-- Descriptors of training sets (R337, R338, R349, R357): each is taken by the row that its flags name, does what its checks allow, mirrors what it
changed when it succeeds, and completes with the status. A delete of a set that stands removes it; a define that passes enters the set
LOADING; a schedule that passes enters its entries. -/
def Obligations.ShardDescriptors : Prop := ∀ (s : State) (r : Nat) (data : Bytes) (f : Fetched) (d0 : Dev) (x : ShardSet),
  let kind := fun (v : Nat) => if 4 ≤ v then 0 else if v % 2 = 1 then 1 else v
  let takes := fun (k : Nat) => s.dev.takeFetched r (fun f => f.ref.op == 0x30 && kind (rdLE f.bytes 18 2) == k) = some (f, d0)
  let ends := fun (i : Instr) (data : Bytes) (e : Dev × Nat) => Gives i s fun d =>
    d = (if e.2 = stOK then e.1.mirror (.desc f.bytes data) else e.1).completeS f.ref e.2
  let id := rdLE f.bytes 16 2
  let im := padTo (rdLE f.bytes 20 4) data
  (takes 0 → ends (.shardDefine r data) data (d0.shardDefine true r f.bytes data)) ∧
  (takes 1 → 0 < id → id ≤ 4095 → d0.shBusy id = false → d0.shard? id = some x → rdLE f.bytes 18 2 % 2 = 1 → rdLE f.bytes 18 2 < 4 →
    ends (.shardDelete r) [] (d0.shardRemove id x, stOK)) ∧
  (takes 2 → ends (.shardFlagsOnly r data) data (d0.shardDefine true r f.bytes data)) ∧
  (0 < id → id ≤ 4095 → rdLE f.bytes 18 2 = 0 → d0.inWindow r (rdLE f.bytes 24 8) (rdLE f.bytes 20 4) = true →
    rdLE im 0 2 = id → 0 < rdLE im 8 2 → rdLE im 8 2 ≤ 256 → 0 < rdLE im 4 4 → rdLE im 4 4 < 0xFFFFFFFF → rdLE im 12 4 ≤ 262144 →
    rdLE f.bytes 20 4 = 64 + 16 * (rdLE im 8 2 + rdLE im 12 4) → d0.shardImageOk im = true → d0.shBusy id = false →
    d0.shardRoom id (shardOfImage im) = true → d0.shardDefine true r f.bytes data = (d0.shardEnter id im, stOK)) ∧
  (s.dev.takeFetched r (fun f => f.ref.op == 0x31) = some (f, d0) →
    ends (.shardSched r data) data (d0.shardSched true r f.bytes data) ∧
    (d0.shard? id = none → Gives (.shardSched r data) s fun d => d = d0.completeS f.ref stBAD_OPCODE)) ∧
  (s.dev.takeFetched r (fun f => f.ref.op == 0x33) = some (f, d0) →
    ends (.shardResolve r) [] (d0.shardResolve f.bytes) ∧
    (d0.shard? id = some x → rdLE f.bytes 18 1 < 2 → d0.shState id ≠ 3 →
      Gives (.shardResolve r) s fun d => d = (d0.mirror (.desc f.bytes [])).completeS f.ref stOK))

/-- Transfers of a set and the benches' part of an update (R350 to R352, R360, R361): a SHARD_IO that passes its checks moves values until it is
done; one that does not completes with the status; a SEAL takes a LOADING set to READY; a piece that was handed off is taken, its slot
freed and the window raised; UP_POOL is refused below a set's need or beyond the partition. -/
def Obligations.ShardTransfers : Prop := ∀ (s : State) (r id g q k : Nat) (f : Fetched) (d0 : Dev) (st : Nat) (data : Bytes) (v w : W32)
  (o o1 : ClOp) (x : Grp) (gs : List Nat),
  let set := rdLE f.bytes 16 2
  let io := fun (i : Instr) (p : Nat → Bool) => s.dev.takeShardIo r p = some (f, d0) →
    (d0.shardIoJudge f.ref.ring f.bytes = some st → Gives i s fun d => d = d0.completeS f.ref st) ∧
    (d0.shardIoJudge f.ref.ring f.bytes = none → Gives i s fun d => d = d0.shardIoStart f)
  io (.shardIoWrite r) (fun op => op == 0 || op == 3) ∧ io (.shardIoRead r) (fun op => op == 1) ∧
  (s.dev.takeShardIo r (fun op => op == 2) = some (f, d0) →
    (d0.shardIoJudge r f.bytes = some st → Gives (.shardIoSeal r) s fun d => d = d0.completeS f.ref st) ∧
    (d0.shardIoJudge r f.bytes = none → Gives (.shardIoSeal r) s fun d =>
      d = ((d0.setShState set 2).mirror (.desc f.bytes [])).completeS f.ref stOK)) ∧
  (s.dev.live = true → Gives (.shardIoDone id data) s fun d =>
    d = (s.dev.shardIoEnd id (if s.dev.sh.xfers.any (fun x => x.id == id && x.lost) then stDATA_LOST else stOK) data).clPoll) ∧
  (s.dev.live = true → s.dev.op? g q = some o → s.dev.grp? g = some x → mget? k o.handoff = some gs →
    let sm := ((mget? k o.pieces).map (fun p => p.sm)).getD 0
    let d1 := (s.dev.putOp { (o.completePiece k) with handoff := merase k o.handoff }).updPiece g q k sm gs
    d1.op? g q = some o1 → Gives (.updatePiece g q k) s fun d => d = ((d1.trimSlots x o1).raiseLimit x o1).clPoll) ∧
  (∀ d1, k < 4 → s.dev.Sees (aUP_POOL k) v w d1 →
    (d1.sh.sets.any (fun e => e.2.any (fun x => decide (fld w 0 16 * 256 < x.needAt k))) = true ∨ d1.poolLimit k < fld w 0 16 * 256 →
      Gives (.upPoolWrite k v) s fun d => d = d1.sb aUP_STAT 0 true) ∧
    (d1.cl.ops = [] → d1.sh.sets = [] → fld w 0 16 * 256 ≤ d1.poolLimit k → Gives (.upPoolWrite k v) s fun d => d.gf (aUP_POOL k) 0 16 = fld w 0 16 ∧
      d.rg (aUP_POOL_FREE k) = d1.rg (aUP_POOL_FREE k) + BitVec.ofNat 32 (fld w 0 16 * 256) - BitVec.ofNat 32 (d1.gf (aUP_POOL k) 0 16 * 256) ∧
      d.rg (aUP_FRAMES_FREE k) = d1.rg (aUP_FRAMES_FREE k) + BitVec.ofNat 32 (d1.gf (aUP_POOL k) 0 16 * 256) - BitVec.ofNat 32 (fld w 0 16 * 256) ∧
      d.SameBut d1 [aUP_POOL k, aUP_POOL_FREE k, aUP_FRAMES_FREE k]))

/-! ## Stacked memory (chapter 13) -/

/-- Errors and refresh (R364 to R367): a line is scrubbed once in a period; one wrong symbol is corrected, counted and reported; two lose the line; an enabled series opens a window at
its strike, which re-arms itself one period on, and closes it 1,536 ticks later; without a series, and before the first window of one, the stack
refreshes each 3,800 cycles. While a window is open no line of the stack is read.

Readings of the model: Sources of the reports are log 47 (notes/assumptions). -/
def Obligations.MemoryErrorsAndRefresh : Prop := ∀ (s : State) (stack line frame s0 : Nat) (c : Cmp) (n : Nat) (t : W64), s.dev.live = true →
  (s.dev.holdsLine stack line = true → s.dev.stackShut stack = false →
    Gives (.stackEccError stack line frame) s (fun d => d = s.dev.lineLost stack line frame) ∧
    (line ∈ s.dev.scrubTurn.me.scrubbed → Gives (.scrubLine stack line frame) s (fun d => d = s.dev)) ∧
    (line ∉ s.dev.scrubTurn.me.scrubbed →
      let d1 : Dev := { s.dev with me := { s.dev.scrubTurn.me with scrubbed := line :: s.dev.scrubTurn.me.scrubbed } }
      Gives (.scrubLine stack line 0) s (fun d => d = d1) ∧
      Gives (.scrubLine stack line 1) s (fun d => d = (d1.count aCNT_MEM_CE).report 11 0 stack (64 * line)) ∧
      Gives (.scrubLine stack line (frame + 2)) s (fun d => d = d1.lineLost stack line frame))) ∧
  (s.dev.stackShut stack = true → Gives (.stackEccError stack line frame) s (fun d => d = s.dev) ∧
    Gives (.scrubLine stack line frame) s (fun d => d = s.dev)) ∧
  (s.dev.tm.cmps.find? (fun c => c.act == .refresh s0) = some c → s.dev.fires c.id = some c → Gives (.refreshWindowOpen s0) s fun d =>
    let d1 := s.dev.rearm (.refresh s0) (c.time + BitVec.ofNat 64 (refPeriod (s.dev.rg (aMEM_REF s0))))
    c.act = .refresh s0 → d = { d1 with me := { d1.me with open_ := mput none s0 (some c.time) d1.me.open_, series := mput false s0 true d1.me.series } }) ∧
  (mget none s0 s.dev.me.open_ = some t → 1536 ≤ s.dev.since t ∨ s.dev.since t < 0 → Gives (.refreshWindowClose s0) s fun d =>
    d = { s.dev with me := { s.dev.me with open_ := mput none s0 none s.dev.me.open_ } }) ∧
  (s0 < 8 → s.dev.gb (aMEM_REF s0) 0 = false ∨ mget false s0 s.dev.me.series = false → s.dev.stackShut s0 = false → n = mget 0 s0 s.dev.me.autoAt →
    n + 3800 ≤ s.dev.tm.cycle → Gives (.autoRefresh s0) s fun d =>
    d = { s.dev with me := { s.dev.me with autoAt := mput 0 s0 s.dev.tm.cycle s.dev.me.autoAt,
                                            open_ := mput none s0 (some s.dev.now) s.dev.me.open_ } })

/-- MEM_REF (R366, R367): a write that would move an enabled series, or enable one while plant time is unset or with a period or phase out of range,
is refused with its mark; one that enables a series arms a comparator at its first window; one that ends it frees the comparator.

The partition (R362, R363): a write of MEM_PART or MEM_WS that fits 255 GiB, leaves each pool its frames and finds nothing defined or at work is
stored, and every byte of the weight-store and general ranges then reads as zero and is sound; any other leaves memory and its mark.

Readings of the model: The first window of a series is log 50, the cleared ranges are log 48 (notes/assumptions). -/
def Obligations.RefreshAndPartition : Prop :=
  (∀ (s : State) (s0 : Nat) (v w : W32) (d0 : Dev), s0 < 8 → s.dev.Sees (aMEM_REF s0) v w d0 →
  let stored := Dev.plainWrite (aMEM_REF s0) w d0
  (d0.gb (aMEM_REF s0) 0 = true → refPeriod w ≠ refPeriod (d0.rg (aMEM_REF s0)) ∨ refPhase w ≠ refPhase (d0.rg (aMEM_REF s0)) →
    Gives (.memRefWrite s0 v) s fun d => d = d0.sb aMEM_STAT 1 true) ∧
  (bitAt w 0 = true → d0.gf aPT_STAT 0 3 = 0 ∨ refPeriod w < 8192 ∨ 16384 < refPeriod w ∨ refPeriod w ≤ refPhase w →
    Gives (.memRefWrite s0 v) s fun d => d = d0.sb aMEM_STAT 1 true) ∧
  (d0.gb (aMEM_REF s0) 0 = false → bitAt w 0 = true → d0.gf aPT_STAT 0 3 ≠ 0 → 8192 ≤ refPeriod w → refPeriod w ≤ 16384 → refPhase w < refPeriod w →
    d0.maintRoom = true → Gives (.memRefWrite s0 v) s fun d => d = stored.takeCmp 3 (stored.refFirst s0) none (.refresh s0)) ∧
  (d0.gb (aMEM_REF s0) 0 = true → bitAt w 0 = false → refPeriod w = refPeriod (d0.rg (aMEM_REF s0)) → refPhase w = refPhase (d0.rg (aMEM_REF s0)) →
    Gives (.memRefWrite s0 v) s fun d =>
      d = { stored.dropCmp (.refresh s0) with me := { d0.me with series := mput false s0 false d0.me.series } })) ∧
  (∀ (s : State) (a k : Nat) (i : Instr) (v w : W32) (d0 : Dev), s.dev.Sees a v w d0 →
  (i = .memPartWrite k v ∧ a = aMEM_PART k ∧ k < 4) ∨ (i = .memWsWrite v ∧ a = aMEM_WS) →
  (d0.partOk a w = true → Yields i s fun d m => (∀ x, mget 0 x m = 0) ∧ d.me.loss = [] ∧ d.rg a = (Dev.plainWrite a w d0).rg a ∧
    ∀ b, b ≠ a → (∀ j, j < 4 → b ≠ aUP_FRAMES_FREE j) → d.rg b = d0.rg b) ∧
  (d0.partOk a w = false → Yields i s fun d m => m = s.mem ∧ d = d0.sb aMEM_STAT 0 true))

/-- Copies and models (R369, R371, R372): a MEM_COPY that passes its checks moves its bytes when it is done: from the host into memory, byte by byte at
its addresses and nowhere else, with OK; a model whose bytes have been read without loss keeps their hallmark; an UNDEFINE frees it.

Sends of a model (R373 to R376): a judged WS_SEND completes or is entered with its strike; a ready one starts in order while fewer than 64 run; a
running one emits its next packet, which its group's branches carry, once what was begun before is read at RATE; once nothing of it is left to go or to be acknowledged it ends.

Readings of the model: That a copy moves its bytes at its end is log 51, the end of a send log 49 (notes/assumptions). -/
def Obligations.CopiesAndSends : Prop :=
  (∀ (s : State) (r id model : Nat) (f : Fetched) (d0 : Dev) (st : Nat) (x : MemXfer) (rest : List MemXfer) (data : Bytes)
    (y : Nat × DescRef × Bytes) (ys : List (Nat × DescRef × Bytes)),
  (s.dev.takeFetched r (fun f => f.ref.op == 0x50) = some (f, d0) →
    (d0.memCopyJudge f = some st → Gives (.memCopy r) s fun d => d = d0.completeS f.ref st) ∧
    (d0.memCopyJudge f = none → Gives (.memCopy r) s fun d =>
      d = { d0 with me := { d0.me with copies := d0.me.copies ++ [⟨d0.me.nextId, f.ref, f.bytes⟩], nextId := d0.me.nextId + 1 } })) ∧
  (s.dev.live = true → takeFirst (fun x : MemXfer => x.id == id) s.dev.me.copies = some (x, rest) → bfld x.body 16 0 1 = 0 →
    let a := rdLE x.body 24 8
    let n := rdLE x.body 40 8
    Yields (.memCopyDone id data) s fun d m =>
      d = (({ s.dev with me := { s.dev.me with copies := rest } }.linesWritten a n).mirrorWs a (padTo n data)).completeS x.ref stOK ∧
      (∀ k, k < n → mget 0 (a + k) m = (padTo n data).getD k 0) ∧ (∀ k, k < a ∨ a + n ≤ k → mget 0 k m = mget 0 k s.mem)) ∧
  (s.dev.takeModel r false = some (f, d0) →
    (d0.wsModelJudge f.bytes = some st → Gives (.wsModel r) s fun d => d = d0.completeS f.ref st) ∧
    (d0.wsModelJudge f.bytes = none → Gives (.wsModel r) s fun d =>
      d = { d0 with me := { d0.me with defs := d0.me.defs ++ [(rdLE f.bytes 16 2, f.ref, f.bytes)] } })) ∧
  (s.dev.takeModel r true = some (f, d0) → d0.wsModelJudge f.bytes = some stOK → d0.modelState (rdLE f.bytes 16 2) ≠ 0 →
    Gives (.wsModelUndefine r) s fun d => d = ((d0.dropModel (rdLE f.bytes 16 2)).mirror (.desc f.bytes [])).completeS f.ref stOK) ∧
  (s.dev.live = true → takeFirst (fun x : Nat × DescRef × Bytes => x.1 == model) s.dev.me.defs = some (y, ys) →
    let d1 := { s.dev with me := { s.dev.me with defs := ys } }
    let hall := mixBytes (memRead s.mem (d1.defRange y.2.2).1 (d1.defRange y.2.2).2) 0
    d1.lostIn (d1.defRange y.2.2).1 (d1.defRange y.2.2).2 = false → Gives (.wsModelReadDone model) s fun d =>
      d = (((d1.setModel y.2.2 hall).mirror (.desc y.2.2 [])).hmNote 0x51 stOK 0 y.2.1.hmId model hall).complete y.2.1 { hall := hall })) ∧
  (∀ (s : State) (r id : Nat) (split : Bytes) (f : Fetched) (d0 : Dev) (st : Nat) (k : Strike) (w : WsSend) (x : Grp)
    (rank : Option Nat) (off n : Nat) (rest : List (Option Nat × Nat × Nat)),
  (s.dev.takeFetched r (fun f => f.ref.op == 0x52) = some (f, d0) →
    (d0.wsSendJudge f split = .inl st → Gives (.wsSend r split) s fun d => d = d0.completeS f.ref st) ∧
    (d0.wsSendJudge f split = .inr k → Gives (.wsSend r split) s fun d => d = d0.wsQueue f split k)) ∧
  (s.dev.live = true → s.dev.me.sends.find? (fun w => w.id == id) = some w →
    (w.ready = true → w.running = false → (s.dev.me.sends.filter (fun x => x.running)).length < 64 →
      (∀ y ∈ s.dev.me.sends, y.running = true ∨ y.ready = false ∨ y.id = id ∨ sendBefore y w = false) →
      Gives (.wsSendStart id) s fun d => d = s.dev.modSend id (fun w => { w with running := true })) ∧
    (let m := rdLE w.body 34 2
     let bs := memRead s.mem ((s.dev.modelRange m).1 + off) n
     let p := fun (dst : Nat) => wsPkt x.tc x.num m off dst bs id
     w.running = true → w.todo = (rank, off, n) :: rest → s.dev.grp? (rdLE w.body 32 2) = some x →
     s.dev.wsBacklog < s.dev.wsRate → s.dev.lostIn ((s.dev.modelRange m).1 + off) n = false → Gives (.wsDataEmit id) s fun d => ∃ bl hall,
       let d1 := (s.dev.wsRead n).modSend id (fun w => { w with todo := rest, blocks := bl ++ w.blocks, hall := hall })
       d = match rank with
         | none => d1.sendBranches 65 (p 0) (d1.multicastBranches x (p 0) none)
         | some j => d1.sendBranches 65 (p (d1.memEp x j)) [d1.towardRank x (p (d1.memEp x j)) none j]) ∧
    (w.running = true → w.todo = [] → w.lost = false → s.dev.sendAt w = false → Gives (.wsSendComplete id) s fun d => d = s.dev.sendEnd w stOK) ∧
    (w.running = true → w.todo = [] → w.lost = true → Gives (.wsSendComplete id) s fun d => d = s.dev.sendEnd w stDATA_LOST)))

/-! ## The host interface (chapter 14) -/

/-- Polling (R380, R387 to R390, R408): a doorbell word gives a ring its tail and head, and a tail at or beyond the ring's size stops it with cause 2;
a poll that finds no ring waits longer the next time; a failed Swap counts, stops polling and is reported, what the poll has learned
is acted on and what it has not is kept; HI_CFG.EN is refused without a
doorbell base or before start-up has ended, and cleared by a write of 0. -/
def Obligations.Polling : Prop := ∀ (s : State) (d d0 : Dev) (r : Nat) (w v u : W32) (seconds : List (Nat × BitVec 64)) (dbs : List (Nat × BitVec 32)) (top0 top1 : W64),
  (d.ringState r = 1 → d.sqSize r ≤ fld w 0 16 → let d1 := { d with hi := { d.hi with heads := mput none r (some (fld w 16 16)) d.hi.heads } }
    d.takeDoorbell r w = (d1.stopRing r 2).report 8 2 0 0) ∧
  (fld w 0 16 < d.sqSize r →
    d.takeDoorbell r w = { d with hi := { d.hi with heads := mput none r (some (fld w 16 16)) d.hi.heads,
                                                                                      tails := mput none r (some (fld w 0 16)) d.hi.tails } }) ∧
  (s.dev.polling = true → s.dev.pollDue = true →
    (s.dev.hi.keptTop = 0 → s.dev.hi.keptSecond = [] →
      (∀ x ∈ s.dev.hi.tails, s.dev.ringState x.1 = 1 → s.dev.posted x.1 ≠ 0 → s.dev.roomCq x.1 = true) →
      Gives (.doorbellPoll 0 0 seconds dbs) s fun d =>
        let d1 := { s.dev with hi := { s.dev.hi with lastPoll := some s.dev.now } }
        let d2 := (d1.count aCNT_POLL).count aCNT_POLL_EMPTY
        d = d2.sf aDB_POLL 8 4 (min d2.pollMax (d2.gf aDB_POLL 8 4 + 1))) ∧
    Gives (.atomicSwapError top0 top1 ⟨seconds, dbs⟩) s fun d =>
      let gs := topGroups ((top0.toNat + 2 ^ 64 * top1.toNat) ||| s.dev.hi.keptTop)
      let rings := secondRings s.dev.hi.keptSecond ++ secondRings (secondWords gs seconds)
      let left := ((gs.filter (fun g => seconds.all (fun x => x.1 != g))).map (fun g => 2 ^ g)).sum
      let d0 := s.dev.takeRings rings dbs
      let d1 := { d0 with hi := { d0.hi with keptTop := left, keptSecond := secondLeft rings dbs, pollStopped := true, lastPoll := some d0.now } }
      d = ((d1.count aCNT_POLL).sb aHI_STAT 1 true).report 8 0 0 0) ∧
  (s.dev.Sees aHI_CFG v u d0 →
    (bitAt u 0 = false → Gives (.pollEnable v) s fun d => d = d0.sb aHI_CFG 0 false) ∧
    (bitAt u 0 = true → (d0.rg aDB_BASE_LO = 0 ∧ d0.rg aDB_BASE_HI = 0) ∨ (d0.stage ≠ 5 ∧ d0.stage ≠ 6) →
      Gives (.pollEnable v) s fun d => d = d0.sb aHI_STAT 0 true) ∧
    (bitAt u 0 = true → (d0.rg aDB_BASE_LO ≠ 0 ∨ d0.rg aDB_BASE_HI ≠ 0) → d0.stage = 5 → d0.gb aHI_STAT 1 = false → d0.gb aHI_CFG 0 = false →
      Gives (.pollEnable v) s fun d => d.gb aHI_CFG 0 = true ∧ d.hi.pollStopped = false ∧ d.hi.lastPoll = none))

/-- Fetching (R391 to R399, R403): a ring that may be served has its next descriptor fetched: the head moves past its slots, SEQ and the counts of
fetches and of descriptors in flight rise; one with the wrong SEQ stops the ring with cause 1 and nothing else moves; a known opcode waits
to be judged, an unknown one completes with BAD_OPCODE; NOP completes with OK.

Readings of the model: That a row judges the oldest descriptor that fits it is log 24 (notes/assumptions). -/
def Obligations.Fetching : Prop := ∀ (s : State) (r : Nat) (bytes bs : Bytes) (f : Fetched) (d0 : Dev),
  (s.dev.takeFetched r (fun f => f.ref.op == 1) = some (f, d0) → Gives (.nop r) s fun d => d = d0.completeS f.ref stOK) ∧
  (let op := rdLE bytes 0 1
   let n := opSlots op
   let rb := aRING r
   r < 8192 → s.dev.live = true → s.dev.stage = 5 → s.dev.ringState r = 1 → s.dev.posted r ≠ 0 → s.dev.roomCq r = true →
   s.dev.gf rb 8 4 ≤ 12 → s.dev.servedNow r n = true → bs = padTo (64 * n) bytes →
   (s.dev.holdOf r bs ≠ 0 → Gives (.descriptorFetch r bytes) s fun d =>
     d = { s.dev with hi := { s.dev.hi with blocked := mput 0 r (s.dev.holdOf r bs) s.dev.hi.blocked } }) ∧
   (s.dev.holdOf r bs = 0 →
   (rdLE bs 4 4 ≠ (s.dev.rg (rb + 0x30)).toNat → Gives (.descriptorFetch r bytes) s fun d => d = (s.dev.stopRing r 1).report 8 2 0 0) ∧
   (rdLE bs 4 4 = (s.dev.rg (rb + 0x30)).toNat → opKnown op = true → bfld bs 1 2 6 = 0 → s.dev.gf aTW_CFG 0 2 = 0 →
     Gives (.descriptorFetch r bytes) s fun d =>
       d.hi.fetched = s.dev.hi.fetched ++ [⟨⟨r, s.dev.gf (rb + 0x28) 0 16, op, bfld bs 1 1 1 == 1, s.dev.hi.gen, s.dev.hi.fetchNum + 1⟩, bs, s.dev.now⟩] ∧
       d.gf (rb + 0x28) 0 16 = (s.dev.gf (rb + 0x28) 0 16 + n) % s.dev.sqSize r ∧ d.rg (rb + 0x30) = s.dev.rg (rb + 0x30) + BitVec.ofNat 32 n ∧
       (s.dev.gf (rb + 0x34) 0 17 < 2 ^ 17 - 1 → d.gf (rb + 0x34) 0 17 = s.dev.gf (rb + 0x34) 0 17 + 1) ∧
       ∀ a, a ≠ rb + 0x28 → a ≠ rb + 0x30 → a ≠ rb + 0x34 → a ≠ aCNT_FETCH → d.rg a = s.dev.rg a)))

/-- Rings (R383, R386, R408): EN on an OFF ring whose context is good starts it with what its doorbell word has posted; a ring in RUN whose EN is cleared drains, or is
OFF at once with nothing in flight; ABORT in DRAINING aborts what has not launched; a write that the ring's state forbids is refused whole.

Readings of the model: Corner cases of ring writes are log 31 (notes/assumptions). -/
def Obligations.RingControl : Prop := ∀ (s : State) (r : Nat) (v w : W32) (d0 : Dev) (i : Instr), r < 8192 → s.dev.Sees (aRING r) v w d0 →
  i = .ringEnable r v ∨ i = .ringDrain r v ∨ i = .ringAbort r v →
  let stored := Dev.plainWrite (aRING r) w d0
  (d0.ringRefuses r w = true → Yields i s fun d m => d = d0.sb aHI_STAT 0 true ∧ m = s.mem) ∧
  (d0.ringState r = 0 → d0.ringRefuses r w = false → stored.ringState r = 0 →
    Yields i s fun d m => d = (if bitAt w 0 then stored.ringStart r else stored) ∧ m = s.mem) ∧
  (d0.ringState r = 1 → d0.ringRefuses r w = false → bitAt w 0 = false → Yields i s fun d m => m = s.mem ∧
    d = stored.sf (aRING r + 4) 0 2 (if stored.gf (aRING r + 0x34) 0 17 = 0 then 0 else 2)) ∧
  (d0.ringState r = 2 → d0.ringRefuses r w = false → Yields i s fun d m =>
    (d, m) = if bitAt w 3 then (stored.sb (aRING r) 0 false).abortDesc s.mem (fun x => x.ring == r && x.gen == stored.hi.gen)
      else (stored.sb (aRING r) 0 false, s.mem))

/-- Failed reads, the Function Level Reset and interrupts (R381, R382, R406): a failed read of a descriptor stops the ring with cause 3 and is counted and
reported; the reset aborts what has not launched, leaves HI_STAT.FLR_SEEN and cause 4 in every ring's status, clears lock bit 9, and nothing
fetched or counted remains; a vector that is unmasked sends the message that waits, and only then.

Readings of the model: What the reset aborts and clears beside R381 is logs 71 and 85 (notes/assumptions). -/
def Obligations.ResetsAndVectors : Prop := ∀ (s : State) (r slot vec : Nat) (t : W64), s.dev.live = true →
  (r < 8192 → s.dev.ringState r = 1 → Yields (.hostReadError r none) s fun d m => m = s.mem ∧
    d = ((s.dev.stopRing r 3).count aCNT_HOST_ERR).report 8 1 0 0) ∧
  (r < 8192 → Yields (.hostReadError r (some slot)) s fun d m => (d, m) = s.dev.hostDataLost s.mem r slot) ∧
  (Yields .functionLevelReset s fun d m => ∃ d1, (d1, m) = s.dev.abortDesc s.mem (fun x => x.gen == s.dev.hi.gen) ∧
    d.hi = { HostSt.init with gen := d1.hi.gen + 1, fetchNum := d1.hi.fetchNum } ∧ d.gb aCTL_LOCK 9 = false ∧ d.rg aHI_STAT = 4 ∧
    (∀ k, k < 8192 → d.rg (aRING k + 4) = 0x40) ∧ (∀ a, a < 0x400000 ∨ 0x600000 ≤ a → a ≠ aCTL_LOCK → d.rg a = d1.rg a)) ∧
  (vec < 2048 → (mget false vec s.dev.hi.pend = false → Gives (.msixVectorUnmask vec) s fun d =>
      d.out = s.dev.out ∧ mget true vec d.hi.masked = false ∧ d.regs = s.dev.regs) ∧
    (mget false vec s.dev.hi.pend = true → Gives (.msixVectorUnmask vec) s fun d =>
      d.out = s.dev.out ++ [s.dev.message vec] ∧ mget true vec d.hi.masked = false ∧ mget false vec d.hi.pend = false)) ∧
  (vec < 2048 → (mget Vec.init vec s.dev.hi.vecs).started = some t → 0 < s.dev.gf (aMX_MOD vec) 8 16 →
    Int.ofNat (s.dev.gf (aMX_MOD vec) 8 16 * 1024) ≤ s.dev.since t → Gives (.msixModTimer vec) s fun d =>
      d = ({ s.dev with hi := { s.dev.hi with vecs := mput Vec.init vec Vec.init s.dev.hi.vecs } }).sendVec vec)

/-! ## Twins (chapter 16) -/

/-- Joining and committing a batch (R424, R426, R429 to R432, R438): ROLE changes in OFF, JOINING and YIELDED alone; a TW_HELLO that fits joins a JOINING
member to the pair, another says why not; a follower holds what it is sent, checks count and chain of a batch it is asked about, and answers;
the lead sends TW_GO by the answer; TWIN_COMMIT closes the batch that is open, TWIN_SYNC one of the whole mirrored state, TWIN_PROMOTE arms its
strike; each completes with CONFLICT where its state forbids it.

Readings of the model: Contents of the packets are log 15, the chain log 62, the further reading logs 64 to 69 (notes/assumptions). -/
def Obligations.TwinBatches : Prop := ∀ (s : State) (r : Nat) (v w : W32) (p : Pkt) (d0 : Dev) (f : Fetched) (b : TwBatch) (y : TwPrep) (t : W64), s.dev.live = true →
  let takes := fun (op : Nat) => s.dev.takeTw op = some (p, d0)
  let fetches := fun (op : Nat) => s.dev.takeFetched r (fun f => f.ref.op == op) = some (f, d0) ∧ bfld f.bytes 24 0 2 = 1
  (s.dev.Sees aTW_CFG v w d0 → fld w 0 2 ≠ 3 → fld w 0 2 ≠ d0.twRole → d0.twState = 2 ∨ d0.twState = 3 ∨ d0.twState = 4 ∨ d0.twState = 5 →
    Gives (.twCfgWrite v) s fun d => d = d0.sb aTW_STAT 9 true) ∧
  (let d1 := d0.wrs aTW_PEER_SHAPE ((List.range 4).map (fun i => BitVec.ofNat 32 (rdLE p.body (4 * i) 4)))
   takes 0xE7 → d1.twRole ≠ 0 → d1.twState = 1 → Gives .twHello s fun d => d =
     if d1.helloCause p.body = 0 then (d1.setTw 2).sf aTW_STAT 3 3 0 else d1.sf aTW_STAT 3 3 (d1.helloCause p.body)) ∧
  (takes 0xE8 → d0.follower = true → d0.twJoined = true → p.arg0 = 0 → Change.ofBytes (d0.tw.partIn ++ p.body) ≠ .start → Yields .twStage s fun d m =>
    d = ({ d0 with tw := { d0.tw with staged := d0.tw.staged ++ [Change.ofBytes (d0.tw.partIn ++ p.body)], partIn := [] } }).noteStale ∧ m = s.mem) ∧
  (takes 0xE9 → d0.follower = true → d0.twJoined = true → d0.cmpFree 1 1 = true → p.arg0 / 2 ^ 32 = d0.tw.staged.length →
    p.arg1 = crcChain d0.tw.staged → Gives .twPrep s fun d =>
      let d1 := { d0 with tw := { d0.tw with prep := some ⟨p.arg0 % 2 ^ 32, p.arg0 / 2 ^ 32, false, none⟩ } }
      d = (d1.takeCmp 1 (BitVec.ofNat 64 (rdLE p.body 0 8)) none (.twinCommit (p.arg0 % 2 ^ 32))).twPkt 2 0xEA 0 (p.arg0 % 2 ^ 32) 0 []) ∧
  (takes 0xEA → d0.tw.batch = some b → d0.lead = true → p.arg0 % 2 ^ 32 = b.num → b.ready = none → b.go = none → Gives .twReady s fun d =>
    let refuse := p.arg0.testBit 32
    let b1 := { b with ready := some refuse }
    let d1 := { d0 with tw := { d0.tw with batch := some b1 } }
    d = d1.sendGo b1 (!refuse && decide (0 < d1.ahead (d1.goBy b1)))) ∧
  (takes 0xEB → d0.tw.prep = some y → d0.follower = true → p.arg0 % 2 ^ 32 = y.num → Gives .twGo s fun d =>
    d = { d0 with tw := { d0.tw with prep := some { y with go := some (p.arg0.testBit 32) } } }) ∧
  (s.dev.tw.batch = some b → b.go = none → s.dev.ahead (s.dev.goBy b) ≤ 0 → Gives .twinGoDeadline s fun d => d = s.dev.sendGo b false) ∧
  (fetches 0x70 →
    (d0.lead = false ∨ d0.twState ≠ 4 ∨ d0.tw.batch.isSome = true → Gives (.twinCommit r) s fun d => d = d0.completeS f.ref stCONFLICT) ∧
    (d0.lead = true → d0.twState = 4 → d0.tw.batch = none →
      (d0.tw.staged = [] → Gives (.twinCommit r) s fun d => d = d0.twComplete f.ref stOK (d0.rg aTW_BATCH).toNat) ∧
      (d0.tw.staged ≠ [] → d0.twStrike f = .inr t → Gives (.twinCommit r) s fun d => d = d0.closeBatch f t d0.tw.staged false))) ∧
  (fetches 0x71 → d0.lead = true → d0.twState = 2 → d0.tw.batch = none → d0.twBusy = false → d0.twStrike f = .inr t → Gives (.twinSync r) s fun d =>
    let cs := d0.mirrorState s.mem
    let d1 := ({ d0 with tw := { d0.tw with staged := [] } }).setTw 3
    d = ((cs.zip (List.range cs.length)).foldl (fun d c => d.twSend c.2 c.1) d1).closeBatch f t cs true) ∧
  (fetches 0x72 → d0.follower = true → d0.twState = 5 → d0.gb aTW_STAT 7 = false → d0.gb aTW_STAT 8 = false → d0.tw.promote = none → d0.twStrike f = .inr t →
    Gives (.twinPromote r) s fun d => d = ({ d0 with tw := { d0.tw with promote := some f.ref } }).takeCmp 1 t none .promote)

/-- Recomputation (R433 to R436): a paired follower that can run an update launches it, and answers with its hallmark once its step is whole; one that
cannot says so and is STALE; a piece is applied and the answer sent, one in another format discarded with its event; the lead keeps the answer, or goes on alone without one; a decision of the
lead is carried out by its outcome.

Readings of the model: Contents of the packets are log 15, refusals and time-outs log 67 (notes/assumptions). -/
def Obligations.TwinRecomputes : Prop := ∀ (s : State) (p : Pkt) (d0 : Dev) (o : ClOp) (x : Grp) (k : Strike) (g q : Nat) (t : W64), s.dev.live = true →
  let takes := fun (op : Nat) => s.dev.takeTw op = some (p, d0)
  (takes 0xEC → d0.follower = true → d0.twState = 4 → d0.op? p.group p.arg1 = none →
    (d0.grp? p.group = none → Gives .twOp s fun d => d = (d0.setTw 2).twPkt 2 0xEE p.group 2 p.arg1 (toLE 16 0)) ∧
    (let f := d0.twFetched p
     let o1 := { d0.sizeOp x { ClOp.of f with group := p.group, opseq := p.arg1 } d0.now with granted := true, launched := true, need := 0, ctx := 0 }
     d0.grp? p.group = some x → d0.twCan o1 = true → d0.twCommit o1 = some k → Gives .twOp s fun d =>
       let d1 := { d0 with cl := { d0.cl with ops := d0.cl.ops ++ [o1] } }
       let d2 := (d1.subFree aUP_POOL_FREE (fun k => o1.claims.getD k 0)).noteClaim o1.set
       d = (((d2.armStrike 1 k (.commit p.group p.arg1) f.ref.num).sb (aUP_SET o1.set) 3 true).updLaunch p.group p.arg1).twAnswer p.group p.arg1)) ∧
  (takes 0xED → d0.follower = true → d0.op? p.group p.arg1 = some o → d0.grp? p.group = some x → p.format ≠ accOf o.inFmt → Gives .twPiece s fun d => d = d0.report 4 7 0 0) ∧
  (let n := p.arg0 % 2 ^ 32
   takes 0xED → d0.follower = true → d0.op? p.group p.arg1 = some o → d0.grp? p.group = some x → p.format = accOf o.inFmt → n < o.pieces_ x.nmemb →
     n ∉ o.updated → o.benched.any (fun b => b.1 == n) = false → Gives .twPiece s fun d =>
       let gr := d0.gradOf o n (unpackTensor (accOf o.inFmt) (o.len x.nmemb n) p.body)
       let d1 := d0.modOp o.group o.opseq (fun o => { o with ieee := o.ieee ||| gr.2.1.ieee, flags := if gr.2.1.ovf then o.flags ||| 8 else o.flags })
       d = (d1.updPiece o.group o.opseq n 0 gr.1).twAnswer o.group o.opseq) ∧
  (takes 0xEE → d0.lead = true → d0.op? p.group p.arg1 = some o → o.twin.compare = true → o.twin.settled = false → o.twin.answer = none →
    (p.arg0.testBit 1 = true → Gives .twHall s fun d => d = (d0.twAlone o.group o.opseq false).opPoll o.group o.opseq) ∧
    (p.arg0.testBit 1 = false → Gives .twHall s fun d =>
      let a := (rdLE p.body 0 16, p.arg0.testBit 0, false)
      d = (d0.modOp o.group o.opseq (fun o => { o with twin := { o.twin with answer := some a } })).opPoll o.group o.opseq)) ∧
  (s.dev.lead = true → s.dev.op? g q = some o → o.twin.waitFrom = some t → o.twin.settled = false → o.twin.answer = none →
    Int.ofNat (orOne (s.dev.gf aTW_CFG 16 16) * 4096) ≤ s.dev.since t → Gives (.twinHallTimeout g q) s fun d =>
      d = (((s.dev.twPkt 1 0xEF g 12 q [1]).twAlone g q true).opPoll g q)) ∧
  (takes 0xEF → d0.follower = true → d0.op? p.group p.arg1 = some o →
    (p.arg0 = 0 → Gives .twDecide s fun d => d = d0.modOp o.group o.opseq (fun o => { o with twin := { o.twin with settled := true } })) ∧
    (p.arg0 = 4 → Gives .twDecide s fun d => d = (d0.twDrop o.group o.opseq).yield_) ∧
    (p.arg0 = 8 → Gives .twDecide s fun d => d = (d0.twDrop o.group o.opseq).solo 5) ∧
    (p.arg0 = 12 → p.body = [] → Gives .twDecide s fun d => d = d0.twDrop o.group o.opseq) ∧
    (p.arg0 = 1 → Gives .twDecide s fun d => d = d0.updHear o { Wave.zero with vote := 0 }))

/-! ## Deputy, Canary and Surveyor (chapters 17 and 19) -/

/-- The Deputy's commands (R443, R454, R458, R487, R509): a fence of a fenced unit that software releases is remembered until the next reset; watchdog, clock, power and digest faults raise their events.

Faults of sorters, of the switch, of benches' power and of supplies (R16, R443, R470): the unit is reported and fenced (a corrected error is only reported), a flow context that is lost
is cleared, both benches of a domain go and the domain is no longer up, and a supply that falls outside reset raises a POWER event.

Readings of the model: The events of a lost sorter are log 75, the site of a supply's event log 80 (notes/assumptions). -/
def Obligations.DeputyAndUnits : Prop :=
  (∀ (s : State) (v w : W32) (d0 : Dev) (site : Nat) (mv : List Nat), s.dev.live = true →
  (s.dev.Sees 0xA0020 v w d0 → Gives (.dpFenceClr v) s fun d =>
    d = if bitAt w 31 = true ∧ d0.unitFenced (fld w 8 2) (fld w 0 8) = true then { d0 with dp := { d0.dp with unkeep := (fld w 8 2, fld w 0 8) :: d0.dp.unkeep } } else d0) ∧
  Gives .deputyWatchdogExpiry s (fun d => d = s.dev.report 22 0 0 0) ∧
  Gives (.clockLockLoss site) s (fun d => d = s.dev.report 19 0 0 0) ∧
  Gives (.codeDigestCheck true) s (fun d => d = s.dev.event 21 5 3 0 0) ∧
  Gives (.codeDigestCheck false) s (fun d => d = s.dev) ∧
  (s.dev.tm.cycle < s.dev.bt.railAt + 1000 → Gives (.railCheck mv) s fun d => d = s.dev) ∧
  (s.dev.bt.railAt + 1000 ≤ s.dev.tm.cycle → (∀ i, i < 9 → ∀ m, mv[i]? = some m → s.dev.railOk i m = true) → Gives (.railCheck mv) s fun d =>
    d = { s.dev with bt := { s.dev.bt with railAt := s.dev.tm.cycle, railOut := [] } })) ∧
  (∀ (s : State) (phys deck dom flow : Nat), s.dev.live = true →
  (phys < 68 → s.dev.sorterFenced phys = false →
    Gives (.sorterFault ⟨phys, false⟩) s (fun d => d = ((s.dev.report 14 1 phys 0).fenceSorter phys).afterFence) ∧
    Gives (.sorterFault ⟨phys, true⟩) s (fun d => d = s.dev.report 14 0 phys 0)) ∧
  (deck < 4 → Gives (.switchTableError deck 0 (some flow)) s (fun d => d = s.dev.report 15 0 deck 0) ∧
    Gives (.switchTableError deck 1 (some flow)) s (fun d => d = (s.dev.report 15 1 deck 0).clearFlow flow) ∧
    Gives (.switchTableError deck 2 (some flow)) s (fun d => d = s.dev.report 15 2 deck 0)) ∧
  (let b0 := 34 * ((dom - 16) / 20) + 2 * ((dom - 16) % 20)
   let x := { s.dev with bt := { s.dev.bt with domains := s.dev.bt.domains.filter (fun k => k != dom) } }.report 18 0 dom 0
   16 ≤ dom → dom < 96 → (dom - 16) % 20 < 17 → s.dev.bt.domains.contains dom = true → (s.dev.benchLogical (b0 + 1)).isSome = true →
   x.benchFenced b0 = false → Yields (.benchDomainPowerLoss dom) s fun d m =>
     (d, m) = if ((x.benchOut s.mem b0).1).benchFenced (b0 + 1) then x.benchOut s.mem b0
       else ((x.benchOut s.mem b0).1).benchOut (x.benchOut s.mem b0).2 (b0 + 1)) ∧
  (s.dev.bt.pwrGood = true → Gives .pwrGoodFall s fun d =>
    d = ({ s.dev with bt := { s.dev.bt with pwrGood := false } }).supplyEvent))

/-- Heat, load and voltage (R459 to R464): temperatures are shown and each step below or above THROTTLE moves a deck's clock by one; a load sample gives
each deck its band; a measurement at the end of an unspoilt interval is kept, one of a spoilt interval is not, and the plan is formed; in a window the voltage goes one code
toward the plan each 4,096 ticks; a slack alarm lowers the clock one step and is reported.

Readings of the model: A clock cap that acts at once is log 29 (notes/assumptions). -/
def Obligations.HeatAndVoltage : Prop := ∀ (s : State) (k w vreq cap t0 t1 t2 t3 f0 f1 : Nat) (c : Cmp) (t : W64), s.dev.live = true →
  (t0 < 256 → t1 < 256 → t2 < 256 → t3 < 256 → Gives (.thermalThrottleStep [t0, t1, t2, t3] [f0, f1]) s fun d =>
    let d1 := (s.dev.wr aDP_TEMP (BitVec.ofNat 32 (t0 + 256 * t1 + 65536 * t2 + 16777216 * t3))).wr aDP_TEMP_FLOOR
      (BitVec.ofNat 32 (f0 % 256 + 256 * (f1 % 256)))
    let d2 := (((d1.thermDeck 0 t0).thermDeck 1 t1).thermDeck 2 t2).thermDeck 3 t3
    (∀ t, t = d2.gf aDP_THERM 8 8 → t0 ≤ t → t1 ≤ t → t2 ≤ t → t3 ≤ t → f0 ≤ t → f1 ≤ t → d = d2)) ∧
  (∀ l0 l1 l2 l3 : Nat, 4096 ≤ s.dev.since s.dev.dp.loadAt → Gives (.loadSample [l0, l1, l2, l3] []) s fun d =>
    d.dp.loadAt = s.dev.now ∧ d.gf aSU_STAT 0 2 = loadBand l0 ∧ d.gf aSU_STAT 8 2 = loadBand l1 ∧ d.gf aSU_STAT 16 2 = loadBand l2 ∧
    d.gf aSU_STAT 24 2 = loadBand l3 ∧ ∀ a, a ≠ aSU_STAT → d.rg a = s.dev.rg a) ∧
  (k < 4 → 2 ^ 24 ≤ s.dev.since (s.dev.deck k).measAt → ∀ b, (s.dev.deck k).band = some b → (s.dev.deck k).spoilt = false →
    Gives (.surveyorMeasurement k vreq cap) s fun d => ∃ x : DeckSurvey,
      x.meas = mput none b (some ⟨vreq % 256, (s.dev.rg aSU_HOURS).toNat⟩) (s.dev.deck k).meas ∧ x.measAt = s.dev.now ∧ x.band = none ∧
      d = (s.dev.setDeck k x).formPlan k cap) ∧
  (k < 4 → 2 ^ 24 ≤ s.dev.since (s.dev.deck k).measAt → (s.dev.deck k).spoilt = true → Gives (.surveyorMeasurement k vreq cap) s fun d => ∃ x : DeckSurvey,
    x.meas = (s.dev.deck k).meas ∧ x.measAt = s.dev.now ∧ x.band = none ∧ d = (s.dev.setDeck k x).formPlan k cap) ∧
  (s.dev.tm.cmps.find? (fun c => c.act == .maint w) = some c → s.dev.fires c.id = some c → Gives (.maintWindowOpen w) s fun d =>
    mget none w d.dp.windows = some c.time) ∧
  (mget none w s.dev.dp.windows = some t → Int.ofNat (orOne (s.dev.gf (aSU_WIN w) 8 8) * 4096) ≤ s.dev.since t → Gives (.maintWindowClose w) s fun d =>
    d = { s.dev with dp := { s.dev.dp with windows := mput none w none s.dev.dp.windows } }) ∧
  (k < 4 → s.dev.inMaint k = true → s.dev.gf (aSU_VDD k) 0 8 ≠ s.dev.gf (aSU_VDD k) 8 8 → 4096 ≤ s.dev.since (s.dev.deck k).vddAt → Gives (.vddStep k) s fun d =>
    d.gf (aSU_VDD k) 0 8 = (if s.dev.gf (aSU_VDD k) 0 8 < s.dev.gf (aSU_VDD k) 8 8 then s.dev.gf (aSU_VDD k) 0 8 + 1 else s.dev.gf (aSU_VDD k) 0 8 - 1) ∧
    d.gf (aSU_VDD k) 8 24 = s.dev.gf (aSU_VDD k) 8 24 ∧ ∀ a, a ≠ aSU_VDD k → a ≠ aSU_STAT → d.rg a = s.dev.rg a) ∧
  (k < 4 → Gives (.slackAlarm k) s fun d =>
    d = ((s.dev.setDeck k { s.dev.deck k with alarm := min 12 ((s.dev.deck k).alarm + 1), planned := false, spoilt := true }).sb aSU_STAT (8 * k + 5) true).report 20 1 k 0)

/-! ## Reset, boot, firmware and attestation (chapters 18 and 19) -/

/-- Reset and supplies (R453, R470 to R473): PERST_N low puts every unit in reset and the transmitters in idle, and no voltage code is driven; its rise begins stage ROM, with
code 0x18 driven for each deck (R508); the supplies
bring up the domains that are always on; a power domain comes up when its turn has come, 20 µs after the last; a loss of power leaves the
embedded store alone.

The stages of boot (R474, R476, R479, R481, R484, R487): ROM runs the active bank, else the other with a SECURITY event, else goes into RECOVERY; a board
table that fails leaves the lanes OFF and is reported; with the units' domains up their fences are applied; stage MEMORY clears every byte of
stacked memory, starts CANARY and makes the device READY.

Readings of the model: What reset keeps is logs 8 and 78; the order of boot is logs 33 and 74; firmware logs 76 (notes/assumptions). -/
def Obligations.ResetPowerAndBoot : Prop :=
  (∀ (s : State) (dom : Nat),
  (s.dev.perst = true → Gives .resetAssert s fun d => d.perst = false ∧ d.out = s.dev.out ++ [.electricalIdle] ∧ d.bt.bank = s.dev.bt.bank ∧
    d.bt.active = s.dev.bt.active ∧ d.bt.svnMin = s.dev.bt.svnMin ∧ d.bt.slots = s.dev.bt.slots ∧ d.dp.nvLog = s.dev.dp.nvLog ∧
    d.rg aSU_HOURS = s.dev.rg aSU_HOURS ∧ (∀ a, a ≠ aSU_HOURS → d.rg a = regReset a) ∧ d.hi = HostSt.init ∧ d.cl.ops = [] ∧ d.as_.launches = [] ∧
    d.sh.sets = [] ∧ d.tm.cmps = [] ∧ (∀ k, k < 4 → d.deckVid k = none ∧ ({ d with perst := true } : Dev).deckVid k = some 0x18) ∧ d.dp.keptB = s.dev.dp.keptB.filter (fun x => !s.dev.dp.unkeep.contains (0, x))) ∧
  (s.dev.perst = false → Gives .resetRelease s fun d => d = { s.dev with perst := true }) ∧
  (s.dev.bt.pwrGood = false → s.dev.bt.domains = [] → Gives .pwrGoodRise s fun d => d = { s.dev with bt := { s.dev.bt with pwrGood := true, domains := [6, 14] } }) ∧
  (s.dev.live = true → s.dev.bt.pwrGood = true → s.dev.nextDomain = some dom → s.dev.bt.domainAt + 20000 ≤ s.dev.tm.cycle → Gives (.powerDomainUp dom) s fun d =>
    let d1 := { s.dev with bt := { s.dev.bt with domains := s.dev.bt.domains ++ [dom], domainAt := s.dev.tm.cycle } }
    d = if dom ∈ laneDomains ∨ dom = 5 ∨ dom = 13 then d1.startPorts else d1) ∧
  Gives (.powerLoss false) s (fun d => d.perst = false ∧ d.bt.pwrGood = false ∧ d.bt.domains = [] ∧ d.bt.bank = s.dev.bt.bank ∧ d.bt.svnMin = s.dev.bt.svnMin ∧
    d.bt.slots = s.dev.bt.slots ∧ d.dp.nvLog = s.dev.dp.nvLog)) ∧
  (∀ (s : State) (table : Bytes) (x : Nat × ResSlot), s.dev.live = true →
  (s.dev.stage = 0 → (s.dev.bankOk s.dev.bt.active = true → Gives .romStageDone s fun d => d = s.dev.runBank s.dev.bt.active) ∧
    (s.dev.bankOk s.dev.bt.active = false → s.dev.bankOk (1 - s.dev.bt.active) = true → Gives .romStageDone s fun d =>
      d = (s.dev.runBank (1 - s.dev.bt.active)).security 0) ∧
    (s.dev.bankOk s.dev.bt.active = false → s.dev.bankOk (1 - s.dev.bt.active) = false → Gives .romStageDone s fun d => d = (s.dev.setStage 6).security 1)) ∧
  (s.dev.stage = 1 → identityOk = true → s.dev.bt.idOff = false → (s.dev.setStage 2).topSlot = some x → x.2.res < 2 ^ 40 → Gives .firmwareStageDone s fun d =>
    d = ((s.dev.setStage 2).wr64 0x10014 x.2.res).wr64 0x1001C x.2.res) ∧
  (s.dev.stage = 2 → boardOk table = false → Gives (.boardStageDone table) s fun d => d = ((s.dev.setStage 3).sb aBT_STAT 5 true).security 2) ∧
  (s.dev.stage = 3 → (∀ k ∈ romDomains ++ s.dev.unitDomains, k ∈ s.dev.bt.domains) → s.dev.dp.keptB = [] → s.dev.dp.keptS = [] → s.dev.dp.keptSort = [] →
    (∀ p, p < 68 → s.dev.smFenced p = false ∧ s.dev.sorterFenced p = false) → Gives .unitsStageDone s fun d => d = s.dev.assignBenches.powerBenches.setStage 4) ∧
  (s.dev.stage = 4 → Yields .memoryStageDone s fun d m => (∀ a, mget 0 a m = 0) ∧ d.stage = 5 ∧ d.dp.canaryOn = true ∧
    ∀ a, a ≠ aBT_STAT → (∀ k, k < 8 → a ≠ aMEM_SPARE k) → d.rg a = s.dev.rg a))

/-- Firmware updates and attestation (R480, R482, R485, R486): an update that passes clears the idle bank's VALID mark, and only a verified image sets it;
RAISE takes the running SVN and never lowers; an ATTEST that passes waits for its signature; an index below the reservation is used and gone.

Readings of the model: Unchecked bytes are log 76, the slots log 77; the signature is uninterpreted (log 19) (notes/assumptions). -/
def Obligations.FirmwareAndAttest : Prop := ∀ (s : State) (r : Nat) (image : Bytes) (f : Fetched) (d0 : Dev) (st : Nat) (u : DescRef × Bool × Bytes)
    (x : DescRef × Bytes) (rest : List (DescRef × Bytes)) (gw : List Bool),
  (s.dev.takeFetched r (fun f => f.ref.op == 0x80 && bfld f.bytes 28 1 1 == 0) = some (f, d0) →
    (d0.fwJudge f = some st → Gives (.fwUpdate r image) s fun d => d = d0.completeS f.ref st) ∧
    (d0.fwJudge f = none → Gives (.fwUpdate r image) s fun d => d.bt.bank = lset d0.idleBank ([], false) d0.bt.bank ∧
      d.bt.update = some (f.ref, bfld f.bytes 28 0 1 == 1, padTo (rdLE f.bytes 24 4) image) ∧ d.regs = d0.regs)) ∧
  (s.dev.takeFetched r (fun f => f.ref.op == 0x80 && bfld f.bytes 28 1 1 == 1) = some (f, d0) →
    (d0.fwJudge f = some stOK → Gives (.fwUpdateRaise r) s fun d => d.bt.svnMin = max d0.bt.svnMin (d0.rg 0x10004).toNat) ∧
    (st ≠ stOK → d0.fwJudge f = some st → Gives (.fwUpdateRaise r) s fun d => d = d0.completeS f.ref st)) ∧
  (s.dev.live = true → s.dev.bt.update = some u → Gives .fwUpdateDone s fun d => d.bt.update = none ∧
    d.bt.bank = lset s.dev.idleBank (u.2.2, s.dev.fwImageOk u.2.2) s.dev.bt.bank ∧
    d.bt.active = if s.dev.fwImageOk u.2.2 = true ∧ u.2.1 = true then s.dev.idleBank else s.dev.bt.active) ∧
  (s.dev.takeFetched r (fun f => f.ref.op == 0x81) = some (f, d0) →
    (d0.attestJudge f = some st → Gives (.attest r) s fun d => d = d0.completeS f.ref st) ∧
    (d0.attestJudge f = none → Gives (.attest r) s fun d => d = { d0 with bt := { d0.bt with attests := d0.bt.attests ++ [(f.ref, f.bytes)] } })) ∧
  (s.dev.live = true → s.dev.signDue = true → s.dev.bt.attests = x :: rest → s.dev.gb aBT_STAT 6 = false →
    let d1 := { s.dev with bt := { s.dev.bt with attests := rest } }
    (s.dev.btIdx < s.dev.btRes → Gives (.attestSign gw) s fun d => d = d1.signReport x) ∧
    (s.dev.btRes ≤ s.dev.btIdx → d1.topSlot = none → Gives (.attestSign gw) s fun d => d = d1.completeS x.1 stUNIT_FENCED) ∧
    (∀ t, s.dev.btRes ≤ s.dev.btIdx → d1.topSlot = some t → (d1.reserveIdx d1.btIdx t.2.gen 4 gw).2 = true → Gives (.attestSign gw) s fun d =>
      d = (d1.reserveIdx d1.btIdx t.2.gen 4 gw).1.signReport x))

/-- Control, JTAG and accesses (R5, R491, R495, R505): a lock bit once set stays set; a read of a wrong size returns zero and leaves BAD_ACCESS; BYPASS and
IDCODE shift their registers out; SAMPLE shifts the cells and drives nothing; EXTEST drives pins only in reset.

Readings of the model: EXTEST_PULSE in reset only is log 86 (notes/assumptions). -/
def Obligations.ControlAndJtag : Prop := ∀ (s : State) (v w : W32) (d0 : Dev) (a size : Nat) (cells : List Bool),
  (s.dev.Sees 0xC v w d0 → Gives (.ctlLockSet v) s fun d => d.rg aCTL_LOCK = d0.rg aCTL_LOCK ||| (w &&& 0x3FFF) ∧ ∀ b, b ≠ aCTL_LOCK → d.rg b = d0.rg b) ∧
  (s.dev.live = true → barSizeOk a size = false →
    Gives (.bar0BadAccess false a size) s (fun d => d.out = s.dev.out ++ [.readValue a 0] ∧ d.gb aCTL_STAT 1 = true) ∧
    Gives (.bar0BadAccess true a size) s (fun d => d.out = s.dev.out ∧ d.gb aCTL_STAT 1 = true)) ∧
  Gives .jtagBypass s (fun d => d = s.dev.emit (.jtag 0 [false])) ∧
  Gives .jtagIdcode s (fun d => d = s.dev.emit (.jtag 1 ((List.range 32).map idcode.testBit))) ∧
  Gives (.jtagSamplePreload cells) s (fun d => d = s.dev.emit (.jtag 2 cells)) ∧
  Gives (.jtagExtest cells) s (fun d => d = if s.dev.perst then s.dev else s.dev.emit (.jtag 3 cells)) ∧
  Gives (.jtagExtestPulse cells) s (fun d => d = if s.dev.perst then s.dev else s.dev.emit (.jtag 4 cells))

/-- Clearing counters (R117, R170, R246, R274, R305, R361, R377, R408, R441, R466): 1 in bit 0 of a clear register zeroes the counters of its block and nothing else; 0 does nothing.

Clearing the counters of the Lamp Room, the lanes and the trap log (R85, R148, R203): LR_CNT_CLR zeroes its counters and sets LR_LOW to
LR_SHARED_FREE; LN_CNT_CLR zeroes those of the port that it names; NT_CLR zeroes LOST alone. -/
def Obligations.CountersCleared : Prop :=
  (∀ (s : State) (v w : W32) (d0 : Dev) (i : Instr) (a first step n : Nat), s.dev.Sees a v w d0 →
  (i, a, first, step, n) ∈ [(Instr.rtCntClr v, 0x800028, 0x800008, 4, 8), (.svCntClr v, 0x200014, 0x200004, 4, 4), (.smCntClr v, 0x60040, 0x60030, 4, 4),
    (.clCntClr v, 0xC00014, 0xC00004, 4, 4), (.asCntClr v, 0x70048, 0x70040, 4, 2), (.upCntClr v, 0xC0014, 0xC0004, 4, 4),
    (.memCntClr v, 0x100028, 0x100018, 4, 4), (.hiCntClr v, 0x40002C, 0x400018, 4, 5), (.twCntClr v, 0x90054, 0x90040, 4, 5),
    (.dpCntClr v, 0xA0024, 0xA0100, 4, 24)] →
  (w.getLsbD 0 = true → Gives i s fun d => (∀ k, k < n → d.rg (first + step * k) = 0) ∧
    (∀ b, (∀ k, k < n → b ≠ first + step * k) → d.rg b = d0.rg b) ∧ d = { d0 with regs := d.regs }) ∧
  (w.getLsbD 0 = false → Gives i s fun d => d = d0)) ∧
  (∀ (s : State) (v w : W32) (d0 : Dev),
  (s.dev.Sees 0x40034 v w d0 → w.getLsbD 0 = true → Gives (.lrCntClr v) s fun d => (∀ k, k < 6 → d.rg (aCNT_PUSHOUT + 4 * k) = 0) ∧
    d.rg aLR_LOW = BitVec.ofNat 32 d0.sharedFree ∧ ∀ b, b ≠ aLR_LOW → (∀ k, k < 6 → b ≠ aCNT_PUSHOUT + 4 * k) → d.rg b = d0.rg b) ∧
  (s.dev.Sees aLN_CNT_CLR v w d0 → w.getLsbD 31 = true → fld w 0 9 ≤ 256 → Gives (.lnCntClr v) s fun d => d = d0.wr (aLN_PORT_CNT (fld w 0 9)) 0) ∧
  (s.dev.Sees 0x50004 v w d0 → w.getLsbD 0 = true → Gives (.ntClr v) s fun d => d = d0.sf aNT_STAT 24 8 0))

/-! ## The block as a whole -/

/-- The queue (the model's shape; log 1 for an empty queue): a step takes the command at the front and is that command's effect with the rest of the
queue; with no command waiting the device makes one cycle of its local clock by itself: plant time runs on, and while it is out of reset and
has not stopped, operations, the twin pair and its greetings advance. -/
def Obligations.StepTakesFront : Prop := ∀ (s : State) (c : Instr) (rest : List Instr),
  step { s with pending := c :: rest } = exec c { s with pending := rest } ∧
  (s.pending = [] → step s = .next { s with dev := s.dev.idle }) ∧
  (s.dev.live = true → s.dev.idle = ((s.dev.tick.clPoll).twSweep).helloSend) ∧ (s.dev.live = false → s.dev.idle = s.dev.tick)

/-- Every command completes, whatever the state, and leaves the queue as it is; and stacked memory changes only by the commands that may move bytes in
it (`movesBytes`; chapters 2, 10, 13, 14, 16, 18).

Readings of the model: That rows are total is log 2 (notes/assumptions). -/
def Obligations.EveryCommandCompletes : Prop := ∀ (c : Instr) (s : State), ∃ t, exec c s = .next t ∧ t.pending = s.pending ∧
  (movesBytes c = false → t.mem = s.mem)

/-- The memory of the stacks keeps its canonical form: addresses strictly rising, no byte listed that reads as an unlisted one does. Every step from
every state whose memory has the form answers a next state whose memory has it: no command and no cycle of the clock breaks it. -/
def Obligations.MemoryStaysCanonical : Prop := ∀ (s : State), Memory.wf s.mem → ∃ t, step s = .next t ∧ Memory.wf t.mem

/-- The machine right after reset (R20, R80, R386, R434, R453, R474, R499): nothing waits, no byte of memory is listed, plant time is UNSET, every
port OFF, every ring OFF, the twin pair OFF, boot in stage ROM, nothing stopped, no group, set, model, launch or operation, every register of the
map at its reset value.

Readings of the model: The moment it stands for is log 7; bytes of memory and the internal registers that read as zero are logs 8 and 90
(notes/assumptions). -/
def Obligations.ResetState : Prop :=
  State.reset.pending = [] ∧ State.reset.mem = [] ∧ Memory.wf State.reset.mem ∧ State.reset.dev.perst = true ∧ State.reset.dev.stopped = false ∧
  State.reset.dev.stage = 0 ∧ State.reset.dev.gf aPT_STAT 0 3 = 0 ∧ (∀ p, p ≤ 256 → State.reset.dev.portState p = 0) ∧
  (∀ r, r < 8192 → State.reset.dev.ringState r = 0) ∧ State.reset.dev.twState = 0 ∧ State.reset.dev.twRole = 0 ∧
  (∀ a, State.reset.dev.rg a = regReset a) ∧ State.reset.dev.cl.ops = [] ∧ State.reset.dev.sh.sets = [] ∧ State.reset.dev.as_.launches = [] ∧
  State.reset.dev.me.copies = [] ∧ State.reset.dev.hi.fetched = [] ∧ State.reset.dev.fb.pkts = [] ∧ State.reset.dev.tm.cmps = [] ∧ State.reset.dev.out = []

/-- A stopped device, and one held in reset (R452, R471): no command has any effect but those of reset and power, the JTAG port, the source of the local
clock, the DRAM's own refresh, and reads, which return a value and change nothing else.

Readings of the model: What it still does is log 32 (notes/assumptions). -/
def Obligations.StoppedDevice : Prop := ∀ (s : State) (c : Instr), s.dev.live = false →
  (c ≠ .resetAssert → c ≠ .resetRelease → (∀ b, c ≠ .powerLoss b) → c ≠ .pwrGoodRise → c ≠ .pwrGoodFall → (∀ b, c ≠ .pt10mInPresence b) →
    (∀ k, c ≠ .autoRefresh k) → (∀ k, c ≠ .refreshWindowClose k) → c ≠ .jtagBypass → c ≠ .jtagIdcode → (∀ x, c ≠ .jtagSamplePreload x) → (∀ x, c ≠ .jtagExtest x) →
    (∀ x, c ≠ .jtagExtestPulse x) → c ≠ .ptNowLoRead → c ≠ .beatStampLoRead → (∀ i, c ≠ .polLastLoRead i) → c ≠ .smQheadLoRead →
    (∀ w a n, c ≠ .bar0BadAccess w a n) → (∀ a v, c ≠ .registerWrite a v) → exec c s = .next s) ∧
  (s.dev.stopped = true → c = .ptNowLoRead ∨ c = .beatStampLoRead ∨ (∃ i, c = .polLastLoRead i) ∨ c = .smQheadLoRead ∨ (∃ w a n, c = .bar0BadAccess w a n) ∨
    (∃ a v, c = .registerWrite a v) → Gives c s fun d => d = { s.dev with out := d.out })

/-- Writes of BAR0 by the register map (R490 to R497, R516): before READY a write outside the control and host-interface blocks is ignored and leaves EARLY;
one at no register leaves HOLE, before READY too; one that a lock ignores leaves LOCK_WR; each records the address if it is the first, and changes no other
register. A write of a plain register stores the bits that software may write, clears those of access RW1C that it writes 1 to, and keeps the rest.

Readings of the model: The order of the judgements is log 22 (notes/assumptions). -/
def Obligations.RegisterWrites : Prop := ∀ (s : State) (a : Nat) (v w : W32) (d0 : Dev) (r : RegRow), s.dev.live = true → s.dev.follower = false → a % 4 = 0 →
  a < 0x10000000 →
  (a < 0x500000 ∨ 0x580000 ≤ a ∨ a % 0x40 ≠ 0) → a ≠ aMEM_WS → (a < aMEM_PART 0 ∨ aMEM_PART 4 ≤ a) →
  (s.dev.early a = true → Gives (.registerWrite a v) s fun d => d.gb aCTL_STAT 3 = true ∧ d.SameBut s.dev [aCTL_STAT, aCTL_BAD_ADDR]) ∧
  (regRow a = none → Gives (.registerWrite a v) s fun d => d.gb aCTL_STAT 2 = true ∧ d.SameBut s.dev [aCTL_STAT, aCTL_BAD_ADDR]) ∧
  (s.dev.early a = false → regRow a = some r → s.dev.lockedAt a = true → r.rwl ≠ 0 → r.rw = 0 → r.w1c = 0 → (v ^^^ s.dev.rg a) &&& r.rwl ≠ 0 →
    Gives (.registerWrite a v) s fun d => d.gb aCTL_STAT 0 = true ∧ d.SameBut s.dev [aCTL_STAT, aCTL_BAD_ADDR] ∧
      (s.dev.gf aCTL_STAT 0 4 = 0 → d.rg aCTL_BAD_ADDR = BitVec.ofNat 32 (a % 2 ^ 28))) ∧
  (s.dev.Sees a v w d0 → regRow a = some r → (a < 0x20000 ∧ a ≠ 0xC) ∨ (0xC00020 ≤ a) ∨ (0x400000 ≤ a ∧ a < 0x500000 ∧ a ≠ aHI_CFG ∧ a ≠ 0x40002C) →
    Gives (.registerWrite a v) s fun d => d.SameBut d0 [a] ∧
      d.rg a = ((d0.rg a &&& ~~~(r.rw ||| r.rwl)) ||| (w &&& (r.rw ||| r.rwl))) &&& ~~~(w &&& r.w1c))

/-- Writes that are stopped whatever the locks (R497): on a follower those to the registers that R427 names are ignored and leave TW_STAT.WR_IGN; on a
stopped device none has an effect; CTL_STAT does not change. -/
def Obligations.WritesIgnored : Prop := ∀ (s : State) (a : Nat) (v : W32), a % 4 = 0 →
  (s.dev.live = true → s.dev.follower = true → mirroredReg a = true → Gives (.registerWrite a v) s fun d =>
    d = s.dev.sb aTW_STAT 9 true ∧ d.rg aCTL_STAT = s.dev.rg aCTL_STAT) ∧
  (s.dev.live = true → s.dev.follower = true → mirroredReg a = true → ∀ eff, s.dev.barWrite a v eff = s.dev.sb aTW_STAT 9 true) ∧
  (s.dev.stopped = true → ∀ eff, s.dev.barWrite a v eff = s.dev) ∧
  (s.dev.stopped = true → exec (.registerWrite a v) s = .next s)

/-- WAIT (R395): a descriptor with that header flag is fetched only when nothing of its ring is in flight; until then the fetch notes that the ring is
held back (R391) and changes nothing else. -/
def Obligations.WaitHoldsBack : Prop := ∀ (s : State) (r : Nat) (bytes : Bytes),
  bfld (padTo (64 * opSlots (rdLE bytes 0 1)) bytes) 1 0 1 = 1 → s.dev.gf (aRING r + 0x34) 0 17 ≠ 0 → Gives (.descriptorFetch r bytes) s fun d =>
    d = { s.dev with hi := { s.dev.hi with blocked := d.hi.blocked } }

/-- The trap log (R199): the first event of an armed trap is written at entry NEXT where that entry's VALID bit is clear, VALID is set and NEXT advances
modulo 16; where it is set the record is dropped and LOST rises by one, to at most 255; clearing VALID bits leaves the records. -/
def Obligations.TrapLog : Prop := ∀ (d : Dev) (t : Trap) (ref : DescRef) (num : NumCtl) (e : TrapEv), num.trap = true → t.fired = false →
  let d1 := d.report 7 0 0 0
  let n := d1.gf aNT_STAT 16 4
  let r := d.trapTake t ref num e
  (d1.gb aNT_STAT n = false → (∀ j, j < 16 → r.1.rg (aNT_LOG n + 4 * j) = (trapRecord ref num.halt num.strict e d1.now).getD j 0) ∧
    r.1.gb aNT_STAT n = true ∧ r.1.gf aNT_STAT 16 4 = (n + 1) % 16 ∧ (∀ k, k < 16 → k ≠ n → r.1.gb aNT_STAT k = d1.gb aNT_STAT k) ∧
    r.1.gf aNT_STAT 24 8 = d1.gf aNT_STAT 24 8 ∧
    ∀ a, a ≠ aNT_STAT → (∀ j, j < 16 → a ≠ aNT_LOG n + 4 * j) → r.1.rg a = d1.rg a) ∧
  (d1.gb aNT_STAT n = true → r.1.gf aNT_STAT 24 8 = min 255 (d1.gf aNT_STAT 24 8 + 1) ∧ (∀ a, a ≠ aNT_STAT → r.1.rg a = d1.rg a) ∧
    r.1.gf aNT_STAT 0 20 = d1.gf aNT_STAT 0 20) ∧
  (∀ v i j, i < 16 → j < 16 → (Dev.plainWrite aNT_STAT v d).rg (aNT_LOG i + 4 * j) = d.rg (aNT_LOG i + 4 * j))

/-- A fault is closed (R448) by a DP_ACK with its class and bits [23:0] of DP_OPEN: its PEND bit is cleared; a write whose SEQ differs, or whose class has
no open fault, is ignored and leaves DP_STAT.ACK_REJ. -/
def Obligations.FaultClosed : Prop := ∀ (s : State) (v w : W32) (d0 : Dev), s.dev.Sees 0xA000C v w d0 →
  let c := fld w 0 5
  (c < 24 → d0.gb aDP_PEND c = true → d0.gf (aDP_OPEN c) 0 24 = fld w 8 24 → Gives (.dpAck v) s fun d => d.gb aDP_PEND c = false ∧
    (∀ k, k < 24 → k ≠ c → d.gb aDP_PEND k = d0.gb aDP_PEND k) ∧ mget none c d.dp.opens = none ∧ (∀ a, a ≠ aDP_PEND → d.rg a = d0.rg a)) ∧
  (24 ≤ c ∨ d0.gb aDP_PEND c = false ∨ d0.gf (aDP_OPEN c) 0 24 ≠ fld w 8 24 → Gives (.dpAck v) s fun d => d = d0.sb aDP_STAT 9 true)

/-- A completion record (R401, R402): record CQ_TAIL of the ring takes bytes 1 to 31 and then byte 0, which carries PHASE; CQ_TAIL goes on modulo the CQ
size, and PHASE inverts at each wrap to 0; nothing is written for a descriptor of before a Function Level Reset, or once the device has stopped. -/
def Obligations.CompletionRecords : Prop := ∀ (d : Dev) (ref : DescRef) (c : Cpl),
  let rb := aRING ref.ring
  let idx := d.gf (rb + 0x2C) 0 16
  let phase := d.gb (rb + 0x2C) 16
  let bytes := cplBytes ref { c with flags := if d.shapeLost then c.flags ||| 64 else c.flags } phase
  let r := d.complete ref c
  bytes.length = 32 ∧
  (ref.gen ≠ d.hi.gen ∨ d.stopped = true → r = d) ∧
  (ref.gen = d.hi.gen → d.stopped = false → (d.gb rb 2 && !ref.quiet) = false → ref.ring < 8192 → d.gf rb 12 4 ≤ 12 →
    r.out = d.out ++ [.hostWrite (d.rg64 (rb + 0x10) + 32 * idx + 1) (bytes.drop 1), .hostWrite (d.rg64 (rb + 0x10) + 32 * idx) (bytes.take 1)] ∧
    (idx < d.cqSize ref.ring → r.gf (rb + 0x2C) 0 16 = (idx + 1) % d.cqSize ref.ring ∧
      r.gb (rb + 0x2C) 16 = if (idx + 1) % d.cqSize ref.ring = 0 then !phase else phase) ∧
    (0 < d.gf (rb + 0x34) 0 17 → r.gf (rb + 0x34) 0 17 = d.gf (rb + 0x34) 0 17 - 1))

/-- Register writes complete (R5, R490, R494 to R497): where the write reaches its register (`Dev.Open`: READY or a block that is open before it, not on a
follower's mirrored register, the block not locked) and the value is one that the register's rule admits in that state, each form that
writes a register has its own effect, as the device and the value written give it. Said for every such form of the table; a write of BAR2
goes to the table of interrupt messages (R379; its place above BAR0 is log 102).

Readings of the model: The address of BAR2 is log 102 (notes/assumptions). -/
def Obligations.RegisterWritesComplete : Prop := ∀ (s : State) (v : W32) (g p i e w : Nat),
  let c := s.dev
  let writes := fun (j : Instr) (a : Nat) (P : Dev → Prop) => c.Open a → Gives j s P
  (c.tm.cmps = [] → writes (.ptStep v) aPT_STEP_HI fun d => d.now = c.now + (v ++ c.tm.stepLo) ∧ d.tm.leftUnset = true ∧ ∀ a, a ≠ aPT_STAT → d.rg a = c.rg a) ∧
  (c.gf aPT_CTRL 0 3 ∉ [1, 2, 3] → writes (.ptRateLoWrite v) aPT_RATE_LO fun d => d = { c with tm := { c.tm with loHeld := some v } }) ∧
  (c.gf aPT_CTRL 0 3 = 0 → writes (.ptRateHiWrite v) aPT_RATE_HI fun d =>
    d.tm.rate = v.setWidth 8 ++ c.tm.loHeld.getD (c.tm.rate.setWidth 32) ∧ d.regs = c.regs) ∧
  (fld v 0 3 ≤ 4 → writes (.ptCtrlWrite v) aPT_CTRL fun d => d.gf aPT_CTRL 0 3 = fld v 0 3 ∧ d.gf aPT_CTRL 8 8 = fld v 8 8 ∧
    d.SameBut { c with tm := d.tm } [aPT_CTRL, aPT_STAT]) ∧
  (let n := fun u => fld v (8 * u) 7
   n 0 + n 1 + n 2 + n 3 ≤ 64 → (c.cmpHeld 0 - n 0) + (c.cmpHeld 1 - n 1) + (c.cmpHeld 2 - n 2) + (c.cmpHeld 3 - n 3) ≤ 64 - (n 0 + n 1 + n 2 + n 3) →
   writes (.ptCmpResWrite v) aPT_CMP_RES fun d => d = c.wr aPT_CMP_RES ((c.rg aPT_CMP_RES &&& ~~~0x7F7F7F7F) ||| (v &&& 0x7F7F7F7F))) ∧
  (bitAt v 31 = true → writes (.beatStatClr v) aBEAT_STAT fun d => d = c.sf aBEAT_STAT 0 16 0) ∧
  (let l := c.glList g false (fld v 1 6 + 1)
   g < 16 → bitAt v 0 = true → (l.map (fun e => e.1)).sum = (c.rg (aGE g + 0xC)).toNat → c.rg (aGE g + 0xC) ≠ 0 → c.gateOk l = true →
   writes (.geCtrlWrite g v) (aGE g) fun d => d.gb (aGE g) 0 = true ∧ d.gf (aGE g) 1 6 = fld v 1 6) ∧
  (g < 16 → writes (.geSwapHiWrite g v) (aGE g + 0x14) fun d => d.rg (aGE g + 0x14) = v ∧ (d.gate g).armed = true) ∧
  (g < 64 → writes (.lnGroupCfgWrite g v) (aLN_GROUP_CFG g) fun d => d = (lnGroupCfgEffect g v c).afterFence) ∧
  (bitAt v 31 = true → fld v 0 10 < 528 → c.portOfLane (fld v 0 10) = some p → 1 ≤ c.portState p → c.portState p ≤ 6 → c.sorterLost p = false →
    writes (.lnUnfence v) aLN_UNFENCE fun d => d = ((((c.sb (aLN_LANE_STAT (fld v 0 10)) 3 false).setLane (fld v 0 10)
      { c.lane (fld v 0 10) with failed := [] }).setCharges (fld v 0 10) 0 []).bringUp p).afterFence) ∧
  (bitAt v 31 = true → fld v 0 9 ≤ 256 → writes (.lnCntClr v) aLN_CNT_CLR fun d => d = c.wr (aLN_PORT_CNT (fld v 0 9)) 0) ∧
  (c.shadowClosed = false → e < 32768 → w < 4 → writes (.dtShadowWrite e w v) (aDT_SHADOW e + 4 * w) fun d =>
    d = ((Dev.plainWrite (aDT_SHADOW e + 4 * w) v c).sb (aDT_SHADOW e) 3 true).mirror (.reg (aDT_SHADOW e + 4 * w) v)) ∧
  (c.shadowClosed = false → g < 64 → w < 512 → writes (.spShadowWrite g w v) (aSP_SHADOW g + 4 * w) fun d =>
    d.rg (aSP_SHADOW g + 4 * w) = (Dev.plainWrite (aSP_SHADOW g + 4 * w) v c).rg (aSP_SHADOW g + 4 * w) ∧ g ∈ d.fb.spDirty) ∧
  (i < 16384 → (c.rg (aPOL i)).toNat ≤ (c.rg (aPOL i + 4)).toNat → c.gf (aPOL i + 8) 0 24 ≠ 0xFFFFFF → fld v 0 24 ≠ 0xFFFFFF → fld v 27 5 = 0 →
    writes (.policerCommit i v) (aPOL i + 0xC) fun d => d.policer i = ⟨(c.rg (aPOL i)).toNat, (c.rg (aPOL i + 4)).toNat, c.gf (aPOL i + 8) 0 24,
      fld v 0 24, bitAt v 24, bitAt v 25, bitAt v 26, c.gf (aPOL i + 8) 0 24 * 65536, fld v 0 24 * 65536, c.now⟩) ∧
  (p < 256 → c.portState p = 0 → fld v 0 16 ≠ 0xFFFF →
    (17 ≤ fld v 0 16 → fld v 16 16 ≠ 0xFFFF →
      (17 ≤ fld v 16 16 → writes (.qtPortQfWrite p v) (aQT_PORT_QF p) fun d => d = c.tryQuota (aQT_PORT_QF p) v [8 * p, 8 * p + 1]) ∧
      writes (.qtPortPcWrite p v) (aQT_PORT_PC p) fun d => d = c.tryQuota (aQT_PORT_PC p) v [8 * p + 2, 8 * p + 3]) ∧
    writes (.qtPortRsqWrite p v) (aQT_PORT_RSQ p) fun d => d = c.tryQuota (aQT_PORT_RSQ p) v [8 * p + 4]) ∧
  (i < 67 → fld v 0 16 ≤ fld v 16 16 → fld v 0 16 ≠ 0xFFFF → fld v 16 16 ≠ 0xFFFF → writes (.qtUnitWrite i v) (aQT_UNIT i) fun d =>
    d = c.tryQuota (aQT_UNIT i) v [4096 + i]) ∧
  (p < 256 → i < 28 → fld v 0 16 ≠ 0 → fld v 0 16 ≠ 0xFFFF → writes (.svQuantWrite p i v) (aSV_QUANT p i) fun d =>
    d = (Dev.plainWrite (aSV_QUANT p i) v c).mirror (.reg (aSV_QUANT p i) v)) ∧
  (i < 8 → fld v 0 13 % 8 = 0 → 32 ≤ fld v 0 13 → fld v 0 13 ≤ 4136 → writes (.svClassLenWrite i v) (aSV_CLASS_LEN i) fun d =>
    d = (Dev.plainWrite (aSV_CLASS_LEN i) v c).mirror (.reg (aSV_CLASS_LEN i) v)) ∧
  (p < 256 → bitAt v 4 = false ∨ (c.gb (aGE (fld v 0 4)) 0 = true ∧ c.gb (aSV_GATE_BIND p) 4 = false) →
    writes (.svGateBindWrite p v) (aSV_GATE_BIND p) fun d => d = Dev.plainWrite (aSV_GATE_BIND p) v c) ∧
  (i < 1024 → writes (.fdMapWrite i v) (aFD_MAP i) fun d => d = (c.wr (aFD_MAP i) v).afterFence) ∧
  (16 ≤ i → i < 64 → w < 32 → c.cl.ops = [] → writes (.rcpWrite i w v) (aRCP i + 4 * w) fun d =>
    d = (Dev.plainWrite (aRCP i + 4 * w) v c).mirror (.reg (aRCP i + 4 * w) v)) ∧
  (c.gb aREP_COMPAT 0 = false → c.ctxInUse = false → writes (.smCfgWrite v) aSM_CFG fun d => d = (Dev.plainWrite aSM_CFG v c).reshape) ∧
  (c.as_.launches = [] → c.updateBusy = false → c.ctxInUse = false →
    (bitAt v 0 = false → writes (.asProfileWrite v) aAS_PROFILE fun d => d = (Dev.plainWrite aAS_PROFILE v c).assignBenches.powerBenches) ∧
    ((∀ k, k < 4 → 0 < fld v (8 * k) 6 ∧ fld v (8 * k) 6 ≤ c.perDeck) → writes (.asResvWrite v) aAS_RESV fun d =>
      d = (Dev.plainWrite aAS_RESV v c).reshapeFrom c.shapeRecord) ∧
    (0 < fld v 8 8 → fld v 8 8 ≤ 96 → writes (.repCompatWrite v) aREP_COMPAT fun d => d = (Dev.plainWrite aREP_COMPAT v c).reshapeFrom c.shapeRecord)) ∧
  (i < 4 → c.cl.ops = [] → c.sh.sets = [] → fld v 0 16 * 256 ≤ c.poolLimit i → writes (.upPoolWrite i v) (aUP_POOL i) fun d =>
    d.gf (aUP_POOL i) 0 16 = fld v 0 16) ∧
  (i < 8 → c.gb (aMEM_REF i) 0 = false → bitAt v 0 = true → c.gf aPT_STAT 0 3 ≠ 0 → 8192 ≤ refPeriod v → refPeriod v ≤ 16384 → refPhase v < refPeriod v →
    c.maintRoom = true → writes (.memRefWrite i v) (aMEM_REF i) fun d =>
      d = (Dev.plainWrite (aMEM_REF i) v c).takeCmp 3 ((Dev.plainWrite (aMEM_REF i) v c).refFirst i) none (.refresh i)) ∧
  (∀ j a, (j, a) ∈ [(Instr.memPartWrite i v, aMEM_PART (i % 4)), (.memWsWrite v, aMEM_WS)] → i < 4 → c.partOk a v = true → c.Open a →
    Yields j s fun d m => (∀ x, mget 0 x m = 0) ∧ d.me.loss = [] ∧ d.rg a = (Dev.plainWrite a v c).rg a) ∧
  (c.twState = 0 → c.twRole = 0 → fld v 0 2 = 1 ∨ fld v 0 2 = 2 → writes (.twCfgWrite v) aTW_CFG fun d => d.twRole = fld v 0 2 ∧ d.twState = 1 ∧ d.tw = { TwinSt.init with batch := c.tw.batch, promote := c.tw.promote }) ∧
  (bitAt v 31 = true → c.unitFenced (fld v 8 2) (fld v 0 8) = true → writes (.dpFenceClr v) 0xA0020 fun d =>
    d = { c with dp := { c.dp with unkeep := (fld v 8 2, fld v 0 8) :: c.dp.unkeep } }) ∧
  (fld v 0 5 < 24 → c.gb aDP_PEND (fld v 0 5) = true → c.gf (aDP_OPEN (fld v 0 5)) 0 24 = fld v 8 24 → writes (.dpAck v) 0xA000C fun d =>
    d.gb aDP_PEND (fld v 0 5) = false ∧ mget none (fld v 0 5) d.dp.opens = none) ∧
  (writes (.ctlLockSet v) 0xC fun d => d = c.wr aCTL_LOCK (c.rg aCTL_LOCK ||| (v &&& 0x3FFF))) ∧
  (bitAt v 0 = true → (c.rg aDB_BASE_LO ≠ 0 ∨ c.rg aDB_BASE_HI ≠ 0) → c.stage = 5 → writes (.pollEnable v) aHI_CFG fun d => d.gb aHI_CFG 0 = true) ∧
  (bitAt v 0 = true →
    (∀ j a first n, (j, a, first, n) ∈ [(Instr.rtCntClr v, 0x800028, 0x800008, 8), (.svCntClr v, 0x200014, 0x200004, 4), (.smCntClr v, 0x60040, 0x60030, 4),
      (.clCntClr v, 0xC00014, 0xC00004, 4), (.asCntClr v, 0x70048, 0x70040, 2), (.upCntClr v, 0xC0014, 0xC0004, 4), (.memCntClr v, 0x100028, 0x100018, 4),
      (.hiCntClr v, 0x40002C, 0x400018, 5), (.twCntClr v, 0x90054, 0x90040, 5), (.dpCntClr v, 0xA0024, 0xA0100, 24)] →
      writes j a fun d => d = c.clearRegs first 4 n) ∧
    writes (.lrCntClr v) 0x40034 (fun d => d = (c.clearRegs aCNT_PUSHOUT 4 6).wr aLR_LOW (BitVec.ofNat 32 c.sharedFree)) ∧
    writes (.ntClr v) 0x50004 (fun d => d = c.sf aNT_STAT 24 8 0)) ∧
  (i < 8192 → c.Open (aRING i) →
    (c.ringState i = 0 → c.ringRefuses i v = false → bitAt v 0 = true → (Dev.plainWrite (aRING i) v c).ringState i = 0 →
      Yields (.ringEnable i v) s fun d m => d = (Dev.plainWrite (aRING i) v c).ringStart i ∧ m = s.mem) ∧
    (c.ringState i = 1 → c.ringRefuses i v = false → bitAt v 0 = false → Yields (.ringDrain i v) s fun d m => m = s.mem ∧
      d = (Dev.plainWrite (aRING i) v c).sf (aRING i + 4) 0 2 (if (Dev.plainWrite (aRING i) v c).gf (aRING i + 0x34) 0 17 = 0 then 0 else 2)) ∧
    (c.ringState i = 2 → c.ringRefuses i v = false → bitAt v 3 = true → Yields (.ringAbort i v) s fun d m =>
      (d, m) = ((Dev.plainWrite (aRING i) v c).sb (aRING i) 0 false).abortDesc s.mem (fun x => x.ring == i && x.gen == c.hi.gen))) ∧
  (∀ a, a % 4 = 0 → (a < 0x20000 ∧ a ≠ 0xC) ∨ (0xC00020 ≤ a ∧ a < 0x10000000) ∨ (0x400000 ≤ a ∧ a < 0x500000 ∧ a ≠ aHI_CFG ∧ a ≠ 0x40002C) →
    writes (.registerWrite a v) a fun d => d = Dev.plainWrite a v c) ∧
  (∀ a, a % 4 = 0 → c.live = true → Gives (.registerWrite (0x10000000 + a) v) s fun d => d = c.bar2Write a v)
end

