-- ==== Sys2Proof/Laws/SMap.lean ====
section
/-! SUPPORT. Sparse tables: reading after writing, and that every operation keeps the canonical form. -/

namespace Sys2Proof.Machine

variable {V : Type}

theorem mget?_minsert_self (k : Nat) (x : V) (m : SMap V) : mget? k (minsert k x m) = some x := by
  induction m with
  | nil => simp [minsert, mget?]
  | cons e m ih =>
    obtain ⟨j, v⟩ := e
    simp only [minsert]
    split
    · simp [mget?]
    · split
      · simp [mget?]
      · simp [mget?, *]

theorem mget?_minsert_ne {k j : Nat} (x : V) (m : SMap V) (h : j ≠ k) : mget? j (minsert k x m) = mget? j m := by
  induction m with
  | nil => simp [minsert, mget?, Ne.symm h]
  | cons e m ih =>
    obtain ⟨i, v⟩ := e
    simp only [minsert]
    split
    · simp [mget?, Ne.symm h]
    · split
      · rename_i h1 h2
        subst h2
        simp [mget?, Ne.symm h]
      · simp [mget?, ih]

theorem mget?_merase_self (k : Nat) (m : SMap V) : mget? k (merase k m) = none := by
  induction m with
  | nil => rfl
  | cons e m ih =>
    obtain ⟨j, v⟩ := e
    simp only [merase]
    split
    · exact ih
    · simp [mget?, *]

theorem mget?_merase_ne {k j : Nat} (m : SMap V) (h : j ≠ k) : mget? j (merase k m) = mget? j m := by
  induction m with
  | nil => rfl
  | cons e m ih =>
    obtain ⟨i, v⟩ := e
    simp only [merase]
    split
    · rename_i h2
      subst h2
      simp [mget?, Ne.symm h, ih]
    · simp [mget?, ih]

/-- A key reads as what was last written to it. -/
@[simp] theorem mget_mput_self [DecidableEq V] (d : V) (k : Nat) (x : V) (m : SMap V) : mget d k (mput d k x m) = x := by
  unfold mget mput
  split
  · simp [mget?_merase_self, *]
  · simp [mget?_minsert_self]

/-- A write leaves every other key as it was. -/
theorem mget_mput_ne [DecidableEq V] (d d' : V) {k j : Nat} (x : V) (m : SMap V) (h : j ≠ k) : mget d' j (mput d k x m) = mget d' j m := by
  unfold mget mput
  split
  · rw [mget?_merase_ne m h]
  · rw [mget?_minsert_ne x m h]

@[simp] theorem mget_nil (d : V) (k : Nat) : mget d k ([] : SMap V) = d := rfl

/-! ## The canonical form -/

/-- Every key of a table is at least `k`. -/
def mabove (k : Nat) (m : SMap V) : Prop := ∀ e ∈ m, k < e.1

theorem mrising_cons {j : Nat} {v : V} {m : SMap V} : mrising ((j, v) :: m) = true ↔ mabove j m ∧ mrising m = true := by
  induction m generalizing j v with
  | nil => simp [mrising, mabove]
  | cons e m ih =>
    obtain ⟨k, w⟩ := e
    simp only [mrising, Bool.and_eq_true, decide_eq_true_eq]
    constructor
    · rintro ⟨hjk, hm⟩
      refine ⟨?_, hm⟩
      intro e he
      rcases List.mem_cons.mp he with rfl | he
      · exact hjk
      · exact Nat.lt_trans hjk ((ih.mp hm).1 e he)
    · rintro ⟨ha, hm⟩
      exact ⟨ha (k, w) (List.mem_cons_self ..), hm⟩

theorem mem_minsert {k : Nat} {x : V} {m : SMap V} {e : Nat × V} (h : e ∈ minsert k x m) : e = (k, x) ∨ e ∈ m := by
  induction m with
  | nil => simpa [minsert] using h
  | cons a m ih =>
    obtain ⟨j, v⟩ := a
    simp only [minsert] at h
    split at h
    · rcases List.mem_cons.mp h with rfl | h
      · exact .inl rfl
      · exact .inr h
    · split at h
      · rcases List.mem_cons.mp h with rfl | h
        · exact .inl rfl
        · exact .inr (List.mem_cons_of_mem _ h)
      · rcases List.mem_cons.mp h with rfl | h
        · exact .inr (List.mem_cons_self ..)
        · rcases ih h with h | h
          · exact .inl h
          · exact .inr (List.mem_cons_of_mem _ h)

theorem mem_merase {k : Nat} {m : SMap V} {e : Nat × V} (h : e ∈ merase k m) : e ∈ m := by
  induction m with
  | nil => simp [merase] at h
  | cons a m ih =>
    obtain ⟨j, v⟩ := a
    simp only [merase] at h
    split at h
    · exact List.mem_cons_of_mem _ (ih h)
    · rcases List.mem_cons.mp h with rfl | h
      · exact List.mem_cons_self ..
      · exact List.mem_cons_of_mem _ (ih h)

theorem mrising_minsert (k : Nat) (x : V) {m : SMap V} (h : mrising m = true) : mrising (minsert k x m) = true := by
  induction m with
  | nil => rfl
  | cons a m ih =>
    obtain ⟨j, v⟩ := a
    obtain ⟨ha, hm⟩ := mrising_cons.mp h
    simp only [minsert]
    split
    · rename_i hk
      refine mrising_cons.mpr ⟨?_, h⟩
      intro e he
      rcases List.mem_cons.mp he with rfl | he
      · exact hk
      · exact Nat.lt_trans hk (ha e he)
    · split
      · rename_i hk
        subst hk
        exact mrising_cons.mpr ⟨ha, hm⟩
      · rename_i h1 h2
        refine mrising_cons.mpr ⟨?_, ih hm⟩
        intro e he
        rcases mem_minsert he with rfl | he
        · show j < k
          omega
        · exact ha e he

theorem mrising_filter (p : Nat × V → Bool) {m : SMap V} (h : mrising m = true) : mrising (m.filter p) = true := by
  induction m with
  | nil => rfl
  | cons a m ih =>
    obtain ⟨j, v⟩ := a
    obtain ⟨ha, hm⟩ := mrising_cons.mp h
    simp only [List.filter_cons]
    split
    · exact mrising_cons.mpr ⟨fun e he => ha e (List.mem_of_mem_filter he), ih hm⟩
    · exact ih hm

theorem merase_eq_filter (k : Nat) (m : SMap V) : merase k m = m.filter (fun e => decide (e.1 ≠ k)) := by
  induction m with
  | nil => rfl
  | cons a m ih =>
    obtain ⟨j, v⟩ := a
    simp only [merase, List.filter_cons, ih]
    by_cases h : j = k <;> simp [h]

/-- A write keeps the canonical form. -/
theorem mwf_mput [DecidableEq V] {d : V} (k : Nat) (x : V) {m : SMap V} (h : mwf d m = true) : mwf d (mput d k x m) = true := by
  simp only [mwf, Bool.and_eq_true, List.all_eq_true, decide_eq_true_eq] at h ⊢
  obtain ⟨hr, hd⟩ := h
  unfold mput
  split
  · exact ⟨by rw [merase_eq_filter]; exact mrising_filter _ hr, fun e he => hd e (mem_merase he)⟩
  · rename_i hx
    refine ⟨mrising_minsert k x hr, fun e he => ?_⟩
    rcases mem_minsert he with rfl | he
    · exact hx
    · exact hd e he

theorem mwf_mputs [DecidableEq V] {d : V} (k : Nat) (xs : List V) {m : SMap V} (h : mwf d m = true) : mwf d (mputs d k xs m) = true := by
  induction xs generalizing k m with
  | nil => exact h
  | cons x xs ih => exact ih (k + 1) (mwf_mput k x h)

theorem mwf_filter [DecidableEq V] {d : V} (p : Nat × V → Bool) {m : SMap V} (h : mwf d m = true) : mwf d (m.filter p) = true := by
  simp only [mwf, Bool.and_eq_true, List.all_eq_true] at h ⊢
  exact ⟨mrising_filter p h.1, fun e he => h.2 e (List.mem_of_mem_filter he)⟩

@[simp] theorem mwf_nil [DecidableEq V] (d : V) : mwf d ([] : SMap V) = true := rfl

/-- A fold whose every step keeps a property keeps it. -/
theorem foldl_keeps {α β : Type} (P : β → Prop) (f : β → α → β) (xs : List α) (b : β) (hb : P b) (hf : ∀ b a, P b → P (f b a)) :
    P (xs.foldl f b) := by
  induction xs generalizing b with
  | nil => exact hb
  | cons x xs ih => exact ih (f b x) (hf b x hb)

/-- What `mputs` writes reads back; other keys stay. -/
theorem mget_mputs_outside [DecidableEq V] {d : V} {k j : Nat} (xs : List V) (m : SMap V) (h : j < k ∨ k + xs.length ≤ j) :
    mget d j (mputs d k xs m) = mget d j m := by
  induction xs generalizing k m with
  | nil => rfl
  | cons x xs ih =>
    simp only [List.length_cons] at h
    simp only [mputs]
    rw [ih (k := k + 1) (mput d k x m) (by omega), mget_mput_ne d d x m (by omega)]

theorem mget_mputs_at [DecidableEq V] {d : V} {k i : Nat} (xs : List V) (m : SMap V) (h : i < xs.length) :
    mget d (k + i) (mputs d k xs m) = xs.getD i d := by
  induction xs generalizing k i m with
  | nil => simp at h
  | cons x xs ih =>
    simp only [mputs]
    cases i with
    | zero =>
      rw [Nat.add_zero, mget_mputs_outside xs _ (by omega)]
      simp
    | succ i =>
      have := ih (k := k + 1) (i := i) (mput d k x m) (by simpa using h)
      rw [show k + (i + 1) = k + 1 + i by omega, this]
      simp

end Sys2Proof.Machine
end

