-- ==== Sys2Proof/Laws/State.lean ====
section
/-! SUPPORT. One lemma for each field and each named update: what it sets, and that it leaves every other field. -/

namespace Sys2Proof.Machine

@[simp] theorem Dev.wr_out (d : Dev) (a : Nat) (v : W32) : (d.wr a v).out = d.out := rfl
@[simp] theorem Dev.wr_free (d : Dev) (a : Nat) (v : W32) : (d.wr a v).free = d.free := rfl
@[simp] theorem Dev.wr_perst (d : Dev) (a : Nat) (v : W32) : (d.wr a v).perst = d.perst := rfl
@[simp] theorem Dev.wr_tm (d : Dev) (a : Nat) (v : W32) : (d.wr a v).tm = d.tm := rfl
@[simp] theorem Dev.wr_ports (d : Dev) (a : Nat) (v : W32) : (d.wr a v).ports = d.ports := rfl
@[simp] theorem Dev.wr_lanes (d : Dev) (a : Nat) (v : W32) : (d.wr a v).lanes = d.lanes := rfl
@[simp] theorem Dev.wr_fb (d : Dev) (a : Nat) (v : W32) : (d.wr a v).fb = d.fb := rfl
@[simp] theorem Dev.wr_hi (d : Dev) (a : Nat) (v : W32) : (d.wr a v).hi = d.hi := rfl
@[simp] theorem Dev.wr_dp (d : Dev) (a : Nat) (v : W32) : (d.wr a v).dp = d.dp := rfl
@[simp] theorem Dev.wr_sm (d : Dev) (a : Nat) (v : W32) : (d.wr a v).sm = d.sm := rfl
@[simp] theorem Dev.wr_cl (d : Dev) (a : Nat) (v : W32) : (d.wr a v).cl = d.cl := rfl
@[simp] theorem Dev.wr_sh (d : Dev) (a : Nat) (v : W32) : (d.wr a v).sh = d.sh := rfl
@[simp] theorem Dev.wr_tw (d : Dev) (a : Nat) (v : W32) : (d.wr a v).tw = d.tw := rfl
@[simp] theorem Dev.wr_as_ (d : Dev) (a : Nat) (v : W32) : (d.wr a v).as_ = d.as_ := rfl
@[simp] theorem Dev.wr_me (d : Dev) (a : Nat) (v : W32) : (d.wr a v).me = d.me := rfl
@[simp] theorem Dev.wr_bt (d : Dev) (a : Nat) (v : W32) : (d.wr a v).bt = d.bt := rfl

@[simp] theorem Dev.sf_out (d : Dev) (a lo w x : Nat) : (d.sf a lo w x).out = d.out := rfl
@[simp] theorem Dev.sf_free (d : Dev) (a lo w x : Nat) : (d.sf a lo w x).free = d.free := rfl
@[simp] theorem Dev.sf_perst (d : Dev) (a lo w x : Nat) : (d.sf a lo w x).perst = d.perst := rfl
@[simp] theorem Dev.sf_tm (d : Dev) (a lo w x : Nat) : (d.sf a lo w x).tm = d.tm := rfl
@[simp] theorem Dev.sf_ports (d : Dev) (a lo w x : Nat) : (d.sf a lo w x).ports = d.ports := rfl
@[simp] theorem Dev.sf_lanes (d : Dev) (a lo w x : Nat) : (d.sf a lo w x).lanes = d.lanes := rfl
@[simp] theorem Dev.sf_fb (d : Dev) (a lo w x : Nat) : (d.sf a lo w x).fb = d.fb := rfl
@[simp] theorem Dev.sf_hi (d : Dev) (a lo w x : Nat) : (d.sf a lo w x).hi = d.hi := rfl
@[simp] theorem Dev.sf_dp (d : Dev) (a lo w x : Nat) : (d.sf a lo w x).dp = d.dp := rfl
@[simp] theorem Dev.sf_sm (d : Dev) (a lo w x : Nat) : (d.sf a lo w x).sm = d.sm := rfl
@[simp] theorem Dev.sf_cl (d : Dev) (a lo w x : Nat) : (d.sf a lo w x).cl = d.cl := rfl
@[simp] theorem Dev.sf_sh (d : Dev) (a lo w x : Nat) : (d.sf a lo w x).sh = d.sh := rfl
@[simp] theorem Dev.sf_tw (d : Dev) (a lo w x : Nat) : (d.sf a lo w x).tw = d.tw := rfl
@[simp] theorem Dev.sf_as_ (d : Dev) (a lo w x : Nat) : (d.sf a lo w x).as_ = d.as_ := rfl
@[simp] theorem Dev.sf_me (d : Dev) (a lo w x : Nat) : (d.sf a lo w x).me = d.me := rfl
@[simp] theorem Dev.sf_bt (d : Dev) (a lo w x : Nat) : (d.sf a lo w x).bt = d.bt := rfl

@[simp] theorem Dev.sb_out (d : Dev) (a i : Nat) (b : Bool) : (d.sb a i b).out = d.out := rfl
@[simp] theorem Dev.sb_free (d : Dev) (a i : Nat) (b : Bool) : (d.sb a i b).free = d.free := rfl
@[simp] theorem Dev.sb_perst (d : Dev) (a i : Nat) (b : Bool) : (d.sb a i b).perst = d.perst := rfl
@[simp] theorem Dev.sb_tm (d : Dev) (a i : Nat) (b : Bool) : (d.sb a i b).tm = d.tm := rfl
@[simp] theorem Dev.sb_ports (d : Dev) (a i : Nat) (b : Bool) : (d.sb a i b).ports = d.ports := rfl
@[simp] theorem Dev.sb_lanes (d : Dev) (a i : Nat) (b : Bool) : (d.sb a i b).lanes = d.lanes := rfl
@[simp] theorem Dev.sb_fb (d : Dev) (a i : Nat) (b : Bool) : (d.sb a i b).fb = d.fb := rfl
@[simp] theorem Dev.sb_hi (d : Dev) (a i : Nat) (b : Bool) : (d.sb a i b).hi = d.hi := rfl
@[simp] theorem Dev.sb_dp (d : Dev) (a i : Nat) (b : Bool) : (d.sb a i b).dp = d.dp := rfl
@[simp] theorem Dev.sb_sm (d : Dev) (a i : Nat) (b : Bool) : (d.sb a i b).sm = d.sm := rfl
@[simp] theorem Dev.sb_cl (d : Dev) (a i : Nat) (b : Bool) : (d.sb a i b).cl = d.cl := rfl
@[simp] theorem Dev.sb_sh (d : Dev) (a i : Nat) (b : Bool) : (d.sb a i b).sh = d.sh := rfl
@[simp] theorem Dev.sb_tw (d : Dev) (a i : Nat) (b : Bool) : (d.sb a i b).tw = d.tw := rfl
@[simp] theorem Dev.sb_as_ (d : Dev) (a i : Nat) (b : Bool) : (d.sb a i b).as_ = d.as_ := rfl
@[simp] theorem Dev.sb_me (d : Dev) (a i : Nat) (b : Bool) : (d.sb a i b).me = d.me := rfl
@[simp] theorem Dev.sb_bt (d : Dev) (a i : Nat) (b : Bool) : (d.sb a i b).bt = d.bt := rfl

@[simp] theorem Dev.countBy_out (d : Dev) (a n : Nat) : (d.countBy a n).out = d.out := rfl
@[simp] theorem Dev.countBy_free (d : Dev) (a n : Nat) : (d.countBy a n).free = d.free := rfl
@[simp] theorem Dev.countBy_perst (d : Dev) (a n : Nat) : (d.countBy a n).perst = d.perst := rfl
@[simp] theorem Dev.countBy_tm (d : Dev) (a n : Nat) : (d.countBy a n).tm = d.tm := rfl
@[simp] theorem Dev.countBy_ports (d : Dev) (a n : Nat) : (d.countBy a n).ports = d.ports := rfl
@[simp] theorem Dev.countBy_lanes (d : Dev) (a n : Nat) : (d.countBy a n).lanes = d.lanes := rfl
@[simp] theorem Dev.countBy_fb (d : Dev) (a n : Nat) : (d.countBy a n).fb = d.fb := rfl
@[simp] theorem Dev.countBy_hi (d : Dev) (a n : Nat) : (d.countBy a n).hi = d.hi := rfl
@[simp] theorem Dev.countBy_dp (d : Dev) (a n : Nat) : (d.countBy a n).dp = d.dp := rfl
@[simp] theorem Dev.countBy_sm (d : Dev) (a n : Nat) : (d.countBy a n).sm = d.sm := rfl
@[simp] theorem Dev.countBy_cl (d : Dev) (a n : Nat) : (d.countBy a n).cl = d.cl := rfl
@[simp] theorem Dev.countBy_sh (d : Dev) (a n : Nat) : (d.countBy a n).sh = d.sh := rfl
@[simp] theorem Dev.countBy_tw (d : Dev) (a n : Nat) : (d.countBy a n).tw = d.tw := rfl
@[simp] theorem Dev.countBy_as_ (d : Dev) (a n : Nat) : (d.countBy a n).as_ = d.as_ := rfl
@[simp] theorem Dev.countBy_me (d : Dev) (a n : Nat) : (d.countBy a n).me = d.me := rfl
@[simp] theorem Dev.countBy_bt (d : Dev) (a n : Nat) : (d.countBy a n).bt = d.bt := rfl

@[simp] theorem Dev.count_out (d : Dev) (a : Nat) : (d.count a).out = d.out := rfl
@[simp] theorem Dev.count_free (d : Dev) (a : Nat) : (d.count a).free = d.free := rfl
@[simp] theorem Dev.count_perst (d : Dev) (a : Nat) : (d.count a).perst = d.perst := rfl
@[simp] theorem Dev.count_tm (d : Dev) (a : Nat) : (d.count a).tm = d.tm := rfl
@[simp] theorem Dev.count_ports (d : Dev) (a : Nat) : (d.count a).ports = d.ports := rfl
@[simp] theorem Dev.count_lanes (d : Dev) (a : Nat) : (d.count a).lanes = d.lanes := rfl
@[simp] theorem Dev.count_fb (d : Dev) (a : Nat) : (d.count a).fb = d.fb := rfl
@[simp] theorem Dev.count_hi (d : Dev) (a : Nat) : (d.count a).hi = d.hi := rfl
@[simp] theorem Dev.count_dp (d : Dev) (a : Nat) : (d.count a).dp = d.dp := rfl
@[simp] theorem Dev.count_sm (d : Dev) (a : Nat) : (d.count a).sm = d.sm := rfl
@[simp] theorem Dev.count_cl (d : Dev) (a : Nat) : (d.count a).cl = d.cl := rfl
@[simp] theorem Dev.count_sh (d : Dev) (a : Nat) : (d.count a).sh = d.sh := rfl
@[simp] theorem Dev.count_tw (d : Dev) (a : Nat) : (d.count a).tw = d.tw := rfl
@[simp] theorem Dev.count_as_ (d : Dev) (a : Nat) : (d.count a).as_ = d.as_ := rfl
@[simp] theorem Dev.count_me (d : Dev) (a : Nat) : (d.count a).me = d.me := rfl
@[simp] theorem Dev.count_bt (d : Dev) (a : Nat) : (d.count a).bt = d.bt := rfl

@[simp] theorem Dev.emit_regs (d : Dev) (o : Out) : (d.emit o).regs = d.regs := rfl
@[simp] theorem Dev.emit_free (d : Dev) (o : Out) : (d.emit o).free = d.free := rfl
@[simp] theorem Dev.emit_perst (d : Dev) (o : Out) : (d.emit o).perst = d.perst := rfl
@[simp] theorem Dev.emit_tm (d : Dev) (o : Out) : (d.emit o).tm = d.tm := rfl
@[simp] theorem Dev.emit_ports (d : Dev) (o : Out) : (d.emit o).ports = d.ports := rfl
@[simp] theorem Dev.emit_lanes (d : Dev) (o : Out) : (d.emit o).lanes = d.lanes := rfl
@[simp] theorem Dev.emit_fb (d : Dev) (o : Out) : (d.emit o).fb = d.fb := rfl
@[simp] theorem Dev.emit_hi (d : Dev) (o : Out) : (d.emit o).hi = d.hi := rfl
@[simp] theorem Dev.emit_dp (d : Dev) (o : Out) : (d.emit o).dp = d.dp := rfl
@[simp] theorem Dev.emit_sm (d : Dev) (o : Out) : (d.emit o).sm = d.sm := rfl
@[simp] theorem Dev.emit_cl (d : Dev) (o : Out) : (d.emit o).cl = d.cl := rfl
@[simp] theorem Dev.emit_sh (d : Dev) (o : Out) : (d.emit o).sh = d.sh := rfl
@[simp] theorem Dev.emit_tw (d : Dev) (o : Out) : (d.emit o).tw = d.tw := rfl
@[simp] theorem Dev.emit_as_ (d : Dev) (o : Out) : (d.emit o).as_ = d.as_ := rfl
@[simp] theorem Dev.emit_me (d : Dev) (o : Out) : (d.emit o).me = d.me := rfl
@[simp] theorem Dev.emit_bt (d : Dev) (o : Out) : (d.emit o).bt = d.bt := rfl

@[simp] theorem Dev.freeNext_regs (d : Dev) : (d.freeNext).regs = d.regs := rfl
@[simp] theorem Dev.freeNext_out (d : Dev) : (d.freeNext).out = d.out := rfl
@[simp] theorem Dev.freeNext_perst (d : Dev) : (d.freeNext).perst = d.perst := rfl
@[simp] theorem Dev.freeNext_tm (d : Dev) : (d.freeNext).tm = d.tm := rfl
@[simp] theorem Dev.freeNext_ports (d : Dev) : (d.freeNext).ports = d.ports := rfl
@[simp] theorem Dev.freeNext_lanes (d : Dev) : (d.freeNext).lanes = d.lanes := rfl
@[simp] theorem Dev.freeNext_fb (d : Dev) : (d.freeNext).fb = d.fb := rfl
@[simp] theorem Dev.freeNext_hi (d : Dev) : (d.freeNext).hi = d.hi := rfl
@[simp] theorem Dev.freeNext_dp (d : Dev) : (d.freeNext).dp = d.dp := rfl
@[simp] theorem Dev.freeNext_sm (d : Dev) : (d.freeNext).sm = d.sm := rfl
@[simp] theorem Dev.freeNext_cl (d : Dev) : (d.freeNext).cl = d.cl := rfl
@[simp] theorem Dev.freeNext_sh (d : Dev) : (d.freeNext).sh = d.sh := rfl
@[simp] theorem Dev.freeNext_tw (d : Dev) : (d.freeNext).tw = d.tw := rfl
@[simp] theorem Dev.freeNext_as_ (d : Dev) : (d.freeNext).as_ = d.as_ := rfl
@[simp] theorem Dev.freeNext_me (d : Dev) : (d.freeNext).me = d.me := rfl
@[simp] theorem Dev.freeNext_bt (d : Dev) : (d.freeNext).bt = d.bt := rfl

@[simp] theorem Dev.dropCmp_regs (d : Dev) (c : CmpAct) : (d.dropCmp c).regs = d.regs := rfl
@[simp] theorem Dev.dropCmp_out (d : Dev) (c : CmpAct) : (d.dropCmp c).out = d.out := rfl
@[simp] theorem Dev.dropCmp_free (d : Dev) (c : CmpAct) : (d.dropCmp c).free = d.free := rfl
@[simp] theorem Dev.dropCmp_perst (d : Dev) (c : CmpAct) : (d.dropCmp c).perst = d.perst := rfl
@[simp] theorem Dev.dropCmp_ports (d : Dev) (c : CmpAct) : (d.dropCmp c).ports = d.ports := rfl
@[simp] theorem Dev.dropCmp_lanes (d : Dev) (c : CmpAct) : (d.dropCmp c).lanes = d.lanes := rfl
@[simp] theorem Dev.dropCmp_fb (d : Dev) (c : CmpAct) : (d.dropCmp c).fb = d.fb := rfl
@[simp] theorem Dev.dropCmp_hi (d : Dev) (c : CmpAct) : (d.dropCmp c).hi = d.hi := rfl
@[simp] theorem Dev.dropCmp_dp (d : Dev) (c : CmpAct) : (d.dropCmp c).dp = d.dp := rfl
@[simp] theorem Dev.dropCmp_sm (d : Dev) (c : CmpAct) : (d.dropCmp c).sm = d.sm := rfl
@[simp] theorem Dev.dropCmp_cl (d : Dev) (c : CmpAct) : (d.dropCmp c).cl = d.cl := rfl
@[simp] theorem Dev.dropCmp_sh (d : Dev) (c : CmpAct) : (d.dropCmp c).sh = d.sh := rfl
@[simp] theorem Dev.dropCmp_tw (d : Dev) (c : CmpAct) : (d.dropCmp c).tw = d.tw := rfl
@[simp] theorem Dev.dropCmp_as_ (d : Dev) (c : CmpAct) : (d.dropCmp c).as_ = d.as_ := rfl
@[simp] theorem Dev.dropCmp_me (d : Dev) (c : CmpAct) : (d.dropCmp c).me = d.me := rfl
@[simp] theorem Dev.dropCmp_bt (d : Dev) (c : CmpAct) : (d.dropCmp c).bt = d.bt := rfl

@[simp] theorem Dev.takeCmp_regs (d : Dev) (u : Nat) (t : W64) (w : Option (Nat × Nat)) (c : CmpAct) : (d.takeCmp u t w c).regs = d.regs := rfl
@[simp] theorem Dev.takeCmp_out (d : Dev) (u : Nat) (t : W64) (w : Option (Nat × Nat)) (c : CmpAct) : (d.takeCmp u t w c).out = d.out := rfl
@[simp] theorem Dev.takeCmp_free (d : Dev) (u : Nat) (t : W64) (w : Option (Nat × Nat)) (c : CmpAct) : (d.takeCmp u t w c).free = d.free := rfl
@[simp] theorem Dev.takeCmp_perst (d : Dev) (u : Nat) (t : W64) (w : Option (Nat × Nat)) (c : CmpAct) : (d.takeCmp u t w c).perst = d.perst := rfl
@[simp] theorem Dev.takeCmp_ports (d : Dev) (u : Nat) (t : W64) (w : Option (Nat × Nat)) (c : CmpAct) : (d.takeCmp u t w c).ports = d.ports := rfl
@[simp] theorem Dev.takeCmp_lanes (d : Dev) (u : Nat) (t : W64) (w : Option (Nat × Nat)) (c : CmpAct) : (d.takeCmp u t w c).lanes = d.lanes := rfl
@[simp] theorem Dev.takeCmp_fb (d : Dev) (u : Nat) (t : W64) (w : Option (Nat × Nat)) (c : CmpAct) : (d.takeCmp u t w c).fb = d.fb := rfl
@[simp] theorem Dev.takeCmp_hi (d : Dev) (u : Nat) (t : W64) (w : Option (Nat × Nat)) (c : CmpAct) : (d.takeCmp u t w c).hi = d.hi := rfl
@[simp] theorem Dev.takeCmp_dp (d : Dev) (u : Nat) (t : W64) (w : Option (Nat × Nat)) (c : CmpAct) : (d.takeCmp u t w c).dp = d.dp := rfl
@[simp] theorem Dev.takeCmp_sm (d : Dev) (u : Nat) (t : W64) (w : Option (Nat × Nat)) (c : CmpAct) : (d.takeCmp u t w c).sm = d.sm := rfl
@[simp] theorem Dev.takeCmp_cl (d : Dev) (u : Nat) (t : W64) (w : Option (Nat × Nat)) (c : CmpAct) : (d.takeCmp u t w c).cl = d.cl := rfl
@[simp] theorem Dev.takeCmp_sh (d : Dev) (u : Nat) (t : W64) (w : Option (Nat × Nat)) (c : CmpAct) : (d.takeCmp u t w c).sh = d.sh := rfl
@[simp] theorem Dev.takeCmp_tw (d : Dev) (u : Nat) (t : W64) (w : Option (Nat × Nat)) (c : CmpAct) : (d.takeCmp u t w c).tw = d.tw := rfl
@[simp] theorem Dev.takeCmp_as_ (d : Dev) (u : Nat) (t : W64) (w : Option (Nat × Nat)) (c : CmpAct) : (d.takeCmp u t w c).as_ = d.as_ := rfl
@[simp] theorem Dev.takeCmp_me (d : Dev) (u : Nat) (t : W64) (w : Option (Nat × Nat)) (c : CmpAct) : (d.takeCmp u t w c).me = d.me := rfl
@[simp] theorem Dev.takeCmp_bt (d : Dev) (u : Nat) (t : W64) (w : Option (Nat × Nat)) (c : CmpAct) : (d.takeCmp u t w c).bt = d.bt := rfl

@[simp] theorem Dev.emit_out (d : Dev) (o : Out) : (d.emit o).out = d.out ++ [o] := rfl
@[simp] theorem Dev.freeNext_free (d : Dev) : d.freeNext.free = d.free + 1 := rfl

/-! ## Registers -/

@[simp] theorem Dev.rg_emit (d : Dev) (o : Out) (a : Nat) : (d.emit o).rg a = d.rg a := rfl
@[simp] theorem Dev.rg_freeNext (d : Dev) (a : Nat) : d.freeNext.rg a = d.rg a := rfl

/-- A register holds what was last written to it. -/
@[simp] theorem Dev.rg_wr_self (d : Dev) (a : Nat) (v : W32) : (d.wr a v).rg a = v := mget_mput_self ..

/-- A write leaves every other register. -/
theorem Dev.rg_wr_ne (d : Dev) {a b : Nat} (v : W32) (h : b ≠ a) : (d.wr a v).rg b = d.rg b := mget_mput_ne _ _ v d.regs h

theorem Dev.rg_sf_ne (d : Dev) {a b : Nat} (lo w x : Nat) (h : b ≠ a) : (d.sf a lo w x).rg b = d.rg b := d.rg_wr_ne _ h
theorem Dev.rg_sb_ne (d : Dev) {a b : Nat} (i : Nat) (c : Bool) (h : b ≠ a) : (d.sb a i c).rg b = d.rg b := d.rg_wr_ne _ h
theorem Dev.rg_count_ne (d : Dev) {a b : Nat} (h : b ≠ a) : (d.count a).rg b = d.rg b := d.rg_wr_ne _ h
@[simp] theorem Dev.rg_sf_self (d : Dev) (a lo w x : Nat) : (d.sf a lo w x).rg a = setf (d.rg a) lo w x := Dev.rg_wr_self ..
@[simp] theorem Dev.rg_sb_self (d : Dev) (a i : Nat) (b : Bool) : (d.sb a i b).rg a = setb (d.rg a) i b := Dev.rg_wr_self ..
@[simp] theorem Dev.rg_count_self (d : Dev) (a : Nat) : (d.count a).rg a = BitVec.ofNat 32 (min 0xFFFFFFFF ((d.rg a).toNat + 1)) :=
  Dev.rg_wr_self ..

/-- Clearing a run of registers reaches just those of the run. -/
theorem Dev.rg_clearRegs_ne (d : Dev) {a st b : Nat} (n : Nat) (h : ∀ i, i < n → b ≠ a + i * st) : (d.clearRegs a st n).rg b = d.rg b := by
  induction n generalizing d with
  | zero => rfl
  | succ n ih =>
    simp only [Dev.clearRegs]
    rw [ih _ (fun i hi => h i (by omega)), d.rg_wr_ne _ (h n (by omega))]

/-- Each register of a run that is cleared holds its reset value. -/
theorem Dev.rg_clearRegs_at (d : Dev) {a st : Nat} (hz : 0 < st) (n i : Nat) (hi : i < n) : (d.clearRegs a st n).rg (a + i * st) = regReset (a + i * st) := by
  induction n generalizing d with
  | zero => omega
  | succ n ih =>
    simp only [Dev.clearRegs]
    by_cases h : i < n
    · exact ih _ h
    · have : i = n := by omega
      subst this
      rw [Dev.rg_clearRegs_ne _ _ (fun j hj => by
          intro he
          have := Nat.eq_of_mul_eq_mul_right hz (Nat.add_left_cancel he)
          omega)]
      simp

/-- Clearing registers touches nothing else. -/
theorem Dev.clearRegs_eq (d : Dev) (a st n : Nat) : d.clearRegs a st n = { d with regs := (d.clearRegs a st n).regs } := by
  induction n generalizing d with
  | zero => rfl
  | succ n ih =>
    simp only [Dev.clearRegs]
    rw [ih]
    rfl

end Sys2Proof.Machine
end

