-- ==== Sys2Proof/Laws/Bits.lean ====
section
/-! SUPPORT. Fields of registers: reading one after setting it or another. -/

namespace Sys2Proof.Machine

/-- A number in three parts about a field. -/
theorem nsetf_parts (n lo w x : Nat) :
    nsetf n lo w x = n / 2 ^ (lo + w) * 2 ^ (lo + w) + x % 2 ^ w * 2 ^ lo + n % 2 ^ lo := by
  unfold nsetf nfld
  have h1 := Nat.div_add_mod n (2 ^ lo)
  have h2 := Nat.div_add_mod (n / 2 ^ lo) (2 ^ w)
  have h3 : n / 2 ^ lo / 2 ^ w = n / 2 ^ (lo + w) := by rw [Nat.div_div_eq_div_mul, pow_add]
  rw [h3] at h2
  have h4 : n = n / 2 ^ (lo + w) * 2 ^ (lo + w) + n / 2 ^ lo % 2 ^ w * 2 ^ lo + n % 2 ^ lo := by
    calc n = 2 ^ lo * (n / 2 ^ lo) + n % 2 ^ lo := h1.symm
      _ = 2 ^ lo * (2 ^ w * (n / 2 ^ (lo + w)) + n / 2 ^ lo % 2 ^ w) + n % 2 ^ lo := by rw [h2]
      _ = _ := by rw [pow_add]; ring
  have h5 : n - n / 2 ^ lo % 2 ^ w * 2 ^ lo = n / 2 ^ (lo + w) * 2 ^ (lo + w) + n % 2 ^ lo := by omega
  omega

/-- A field reads as what was last set in it. -/
@[simp] theorem nfld_nsetf_self (n lo w x : Nat) : nfld (nsetf n lo w x) lo w = x % 2 ^ w := by
  rw [nsetf_parts]
  unfold nfld
  have hr : n % 2 ^ lo < 2 ^ lo := Nat.mod_lt _ (Nat.two_pow_pos _)
  have : n / 2 ^ (lo + w) * 2 ^ (lo + w) + x % 2 ^ w * 2 ^ lo + n % 2 ^ lo =
      2 ^ lo * (2 ^ w * (n / 2 ^ (lo + w)) + x % 2 ^ w) + n % 2 ^ lo := by rw [pow_add]; ring
  rw [this, Nat.mul_add_div (Nat.two_pow_pos _), Nat.div_eq_of_lt hr, Nat.add_zero, Nat.mul_add_mod, Nat.mod_mod]

/-- A field below the one set is unchanged. -/
theorem nfld_nsetf_below (n lo w x lo' w' : Nat) (h : lo' + w' ≤ lo) : nfld (nsetf n lo w x) lo' w' = nfld n lo' w' := by
  rw [nsetf_parts]
  unfold nfld
  have key : ∀ k r : Nat, (k * 2 ^ lo + r) / 2 ^ lo' % 2 ^ w' = r / 2 ^ lo' % 2 ^ w' := by
    intro k r
    obtain ⟨e, rfl⟩ := Nat.exists_eq_add_of_le h
    have : k * 2 ^ (lo' + w' + e) + r = 2 ^ lo' * (2 ^ w' * (k * 2 ^ e)) + r := by rw [pow_add, pow_add]; ring
    rw [this, Nat.mul_add_div (Nat.two_pow_pos _), Nat.mul_add_mod]
  have e1 : n / 2 ^ (lo + w) * 2 ^ (lo + w) + x % 2 ^ w * 2 ^ lo + n % 2 ^ lo =
      (n / 2 ^ (lo + w) * 2 ^ w + x % 2 ^ w) * 2 ^ lo + n % 2 ^ lo := by rw [pow_add]; ring
  rw [e1, key]
  have e2 : n = n / 2 ^ lo * 2 ^ lo + n % 2 ^ lo := by rw [Nat.mul_comm]; exact (Nat.div_add_mod n _).symm
  conv_rhs => rw [e2, key]

/-- A field above the one set is unchanged. -/
theorem nfld_nsetf_above (n lo w x lo' w' : Nat) (h : lo + w ≤ lo') : nfld (nsetf n lo w x) lo' w' = nfld n lo' w' := by
  rw [nsetf_parts]
  unfold nfld
  obtain ⟨e, rfl⟩ := Nat.exists_eq_add_of_le h
  have hr : n % 2 ^ lo < 2 ^ lo := Nat.mod_lt _ (Nat.two_pow_pos _)
  have hx : x % 2 ^ w < 2 ^ w := Nat.mod_lt _ (Nat.two_pow_pos _)
  have hlt : x % 2 ^ w * 2 ^ lo + n % 2 ^ lo < 2 ^ (lo + w) := by
    have : x % 2 ^ w * 2 ^ lo + n % 2 ^ lo < (x % 2 ^ w + 1) * 2 ^ lo := by rw [Nat.add_mul]; omega
    calc _ < (x % 2 ^ w + 1) * 2 ^ lo := this
      _ ≤ 2 ^ w * 2 ^ lo := Nat.mul_le_mul_right _ hx
      _ = _ := by rw [pow_add, Nat.mul_comm]
  rw [pow_add 2 (lo + w) e, ← Nat.div_div_eq_div_mul, ← Nat.div_div_eq_div_mul, Nat.add_assoc, Nat.mul_comm, Nat.mul_add_div (Nat.two_pow_pos _),
    Nat.div_eq_of_lt hlt, Nat.add_zero]

theorem nsetf_lt (n lo w x : Nat) (hn : n < 2 ^ 32) (h : lo + w ≤ 32) : nsetf n lo w x < 2 ^ 32 := by
  rw [nsetf_parts]
  have hr : n % 2 ^ lo < 2 ^ lo := Nat.mod_lt _ (Nat.two_pow_pos _)
  have hx : x % 2 ^ w < 2 ^ w := Nat.mod_lt _ (Nat.two_pow_pos _)
  have hlt : x % 2 ^ w * 2 ^ lo + n % 2 ^ lo < 2 ^ (lo + w) := by
    have : x % 2 ^ w * 2 ^ lo + n % 2 ^ lo < (x % 2 ^ w + 1) * 2 ^ lo := by rw [Nat.add_mul]; omega
    calc _ < (x % 2 ^ w + 1) * 2 ^ lo := this
      _ ≤ 2 ^ w * 2 ^ lo := Nat.mul_le_mul_right _ hx
      _ = _ := by rw [pow_add, Nat.mul_comm]
  obtain ⟨e, he⟩ := Nat.exists_eq_add_of_le h
  have hd : n / 2 ^ (lo + w) < 2 ^ e := by
    rw [Nat.div_lt_iff_lt_mul (Nat.two_pow_pos _), ← pow_add, Nat.add_comm e, ← he]; exact hn
  calc _ = n / 2 ^ (lo + w) * 2 ^ (lo + w) + (x % 2 ^ w * 2 ^ lo + n % 2 ^ lo) := by rw [Nat.add_assoc]
    _ < (n / 2 ^ (lo + w) + 1) * 2 ^ (lo + w) := by rw [Nat.add_mul]; omega
    _ ≤ 2 ^ e * 2 ^ (lo + w) := Nat.mul_le_mul_right _ hd
    _ = 2 ^ 32 := by rw [← pow_add, Nat.add_comm e, ← he]

theorem setf_toNat (v : W32) (lo w x : Nat) (h : lo + w ≤ 32) : (setf v lo w x).toNat = nsetf v.toNat lo w x := by
  unfold setf
  rw [BitVec.toNat_ofNat, Nat.mod_eq_of_lt (nsetf_lt _ _ _ _ v.isLt h)]

theorem fld_setf_self (v : W32) (lo w x : Nat) (h : lo + w ≤ 32) : fld (setf v lo w x) lo w = x % 2 ^ w := by
  unfold fld
  rw [setf_toNat v lo w x h, nfld_nsetf_self]

theorem fld_setf_other (v : W32) (lo w x lo' w' : Nat) (h : lo + w ≤ 32) (hd : lo' + w' ≤ lo ∨ lo + w ≤ lo') :
    fld (setf v lo w x) lo' w' = fld v lo' w' := by
  unfold fld
  rw [setf_toNat v lo w x h]
  rcases hd with hd | hd
  · exact nfld_nsetf_below _ _ _ _ _ _ hd
  · exact nfld_nsetf_above _ _ _ _ _ _ hd

theorem bitAt_fld (v : W32) (i : Nat) : bitAt v i = (fld v i 1 == 1) := by
  unfold bitAt fld nfld
  rw [Nat.testBit, Nat.shiftRight_eq_div_pow, Nat.one_and_eq_mod_two, pow_one]
  have := Nat.mod_two_eq_zero_or_one (v.toNat / 2 ^ i)
  rcases this with h | h <;> simp [h]

@[simp] theorem bitAt_setb_self (v : W32) (i : Nat) (b : Bool) (h : i < 32) : bitAt (setb v i b) i = b := by
  rw [bitAt_fld]
  unfold setb
  rw [fld_setf_self _ _ _ _ (by omega)]
  cases b <;> rfl

theorem bitAt_setb_ne (v : W32) (i j : Nat) (b : Bool) (h : i < 32) (hj : j ≠ i) : bitAt (setb v i b) j = bitAt v j := by
  rw [bitAt_fld, bitAt_fld]
  unfold setb
  rw [fld_setf_other _ _ _ _ _ _ (by omega) (by omega)]

/-! ## Fields of the device's registers -/

theorem Dev.gf_sf_self (d : Dev) (a lo w x : Nat) (h : lo + w ≤ 32) : (d.sf a lo w x).gf a lo w = x % 2 ^ w := by
  unfold Dev.gf
  rw [Dev.rg_sf_self, fld_setf_self _ _ _ _ h]

theorem Dev.gf_sf_other (d : Dev) (a lo w x lo' w' : Nat) (h : lo + w ≤ 32) (hd : lo' + w' ≤ lo ∨ lo + w ≤ lo') :
    (d.sf a lo w x).gf a lo' w' = d.gf a lo' w' := by
  unfold Dev.gf
  rw [Dev.rg_sf_self, fld_setf_other _ _ _ _ _ _ h hd]

theorem Dev.gf_sf_ne (d : Dev) {a b : Nat} (lo w x lo' w' : Nat) (h : b ≠ a) : (d.sf a lo w x).gf b lo' w' = d.gf b lo' w' := by
  unfold Dev.gf
  rw [Dev.rg_sf_ne _ _ _ _ h]

theorem Dev.gb_sb_self (d : Dev) (a i : Nat) (c : Bool) (h : i < 32) : (d.sb a i c).gb a i = c := by
  unfold Dev.gb
  rw [Dev.rg_sb_self, bitAt_setb_self _ _ _ h]

theorem Dev.gb_sb_other (d : Dev) (a i j : Nat) (c : Bool) (h : i < 32) (hj : j ≠ i) : (d.sb a i c).gb a j = d.gb a j := by
  unfold Dev.gb
  rw [Dev.rg_sb_self, bitAt_setb_ne _ _ _ _ h hj]

theorem Dev.gb_sb_ne (d : Dev) {a b : Nat} (i j : Nat) (c : Bool) (h : b ≠ a) : (d.sb a i c).gb b j = d.gb b j := by
  unfold Dev.gb
  rw [Dev.rg_sb_ne _ _ _ h]

theorem Dev.gf_wr_ne (d : Dev) {a b : Nat} (v : W32) (lo w : Nat) (h : b ≠ a) : (d.wr a v).gf b lo w = d.gf b lo w := by
  unfold Dev.gf
  rw [Dev.rg_wr_ne _ _ h]

/-- Two registers that agree on the bits of a field hold the same field. -/
theorem fld_congr {v u : W32} {lo w : Nat} (h : ∀ i, i < w → v.getLsbD (lo + i) = u.getLsbD (lo + i)) : fld v lo w = fld u lo w := by
  apply Nat.eq_of_testBit_eq
  intro i
  simp only [fld, nfld, Nat.testBit_mod_two_pow, Nat.testBit_div_two_pow]
  by_cases hi : i < w
  · have := h i hi
    simp only [BitVec.getLsbD] at this
    simp [hi, Nat.add_comm, this]
  · simp [hi]

end Sys2Proof.Machine
end

