-- ==== Sys2Proof/Laws/Bar.lean ====
section
/-! SUPPORT. Writes of BAR0: a write that reaches its register does what the register does; what a register with no rule of its own stores;
and the shapes in which a command is shown to complete. -/

namespace Sys2Proof.Machine

/-- A write that reaches its register. -/
theorem barWrite_sees {d d0 : Dev} {a : Nat} {v w : W32} (h : d.Sees a v w d0) (eff : W32 → Dev → Dev) : d.barWrite a v eff = eff w d0 := by
  obtain ⟨h1, h2⟩ := h
  simp [Dev.barWrite, h1, h2]

/-- A write that has no effect at its register leaves its marks. -/
theorem barWrite_none {d : Dev} {a : Nat} {v : W32} (h : d.barSees a v = none) (eff : W32 → Dev → Dev) : d.barWrite a v eff = d.barMarks a v := by
  simp [Dev.barWrite, h]

/-- A write at an open address brings its own value and leaves no mark. -/
theorem Dev.Open.sees {d : Dev} {a : Nat} (h : d.Open a) (v : W32) : d.Sees a v v d := by
  obtain ⟨h1, h2, h3, h4, h5⟩ := h
  obtain ⟨r, hr⟩ := Option.isSome_iff_exists.mp h5
  simp [Dev.Sees, Dev.barSees, Dev.barMarks, h1, h2, h3, h4, hr]

@[simp] theorem Dev.when_true (d : Dev) (f : Dev → Dev) : d.when true f = f d := rfl
@[simp] theorem Dev.when_false (d : Dev) (f : Dev → Dev) : d.when false f = d := rfl

/-- A command on the device alone. -/
theorem gives_dev {i : Instr} {s : State} {f : Dev → Dev} {P : Dev → Prop} (h : exec i s = devStep f s) (hp : P (f s.dev)) : Gives i s P :=
  ⟨_, h, hp⟩

/-- A command on the device alone that acts under a condition. -/
theorem gives_when {i : Instr} {s : State} {b : Dev → Bool} {f : Dev → Dev} {P : Dev → Prop}
    (h : exec i s = devStep (fun d => d.when (b d) f) s) (hb : b s.dev = true) (hp : P (f s.dev)) : Gives i s P :=
  ⟨_, h, by simpa [hb] using hp⟩

/-- A command that writes a register. -/
theorem gives_bar {i : Instr} {s : State} {P : Dev → Prop} {a : Nat} {v w : W32} {d0 : Dev} {eff : W32 → Dev → Dev}
    (h : exec i s = devStep (fun d => d.barWrite a v eff) s) (hs : s.dev.Sees a v w d0) (hp : P (eff w d0)) : Gives i s P :=
  ⟨_, h, by simpa [barWrite_sees hs] using hp⟩

/-- A command that writes a register whose number is in range. -/
theorem gives_whenBar {i : Instr} {s : State} {P : Dev → Prop} {a : Nat} {v w : W32} {d0 : Dev} {b : Bool} {eff : W32 → Dev → Dev}
    (h : exec i s = devStep (fun d => d.when b (fun d => d.barWrite a v eff)) s) (hb : b = true) (hs : s.dev.Sees a v w d0) (hp : P (eff w d0)) :
    Gives i s P :=
  ⟨_, h, by simpa [hb, barWrite_sees hs] using hp⟩

/-- A command that may change stacked memory. -/
theorem yields_mem {i : Instr} {s : State} {f : Dev → List Host.Cell → Dev × List Host.Cell} {P : Dev → List Host.Cell → Prop}
    (h : exec i s = memStep f s) (hp : P (f s.dev s.mem).1 (f s.dev s.mem).2) : Yields i s P := ⟨_, _, h, hp⟩

/-- Keeping every bit keeps the word. -/
theorem and_all1 (v : W32) : v &&& 4294967295#32 = v := BitVec.and_allOnes

/-- A register without RW1C bits stores the bits that a host write stores, and keeps the others. -/
theorem plainWrite_eq {a : Nat} {r : RegRow} (h : regRow a = some r) (h1 : r.w1c = 0) (v : W32) (d : Dev) :
    Dev.plainWrite a v d = d.wr a ((d.rg a &&& ~~~(r.rw ||| r.rwl)) ||| (v &&& (r.rw ||| r.rwl))) := by
  simp [Dev.plainWrite, h, h1, and_all1]

/-- A register that no row of the table covers is not written. -/
theorem plainWrite_none {a : Nat} (h : regRow a = none) (v : W32) (d : Dev) : Dev.plainWrite a v d = d := by
  simp [Dev.plainWrite, h]

/-- A plain write changes no other register and nothing beside the registers. -/
theorem plainWrite_same (a : Nat) (v : W32) (d : Dev) : (Dev.plainWrite a v d).SameBut d [a] := by
  unfold Dev.plainWrite
  split
  · exact ⟨rfl, fun _ _ => rfl⟩
  · exact ⟨rfl, fun b hb => Dev.rg_wr_ne _ _ (by simpa using hb)⟩

end Sys2Proof.Machine
end

