-- ==== Sys2Proof/Laws/Assay.lean ====
section
/-! SUPPORT. Instructions of a core: what a core that may execute sees, and how an instruction that neither stops nor leads astray goes on. -/

namespace Sys2Proof.Machine

/-- What a core sees has the device and its memory as they stand. -/
theorem asCtx?_sees {d : Dev} {m : List Host.Cell} {core : Core} {c : AsCtx} (h : d.asCtx? m core = some c) : c.m = m ∧ c.d = d := by
  simp only [Dev.asCtx?] at h
  split at h
  · simp only [Option.ite_none_right_eq_some, Option.some.injEq] at h
    exact ⟨by rw [← h.2], by rw [← h.2]⟩
  · simp at h

/-- An instruction of a core that may execute. -/
theorem asExec_some {i : Instr} {d : Dev} {m : List Host.Cell} {core : Core} {c : AsCtx} (h : d.asCtx? m core = some c)
    (hi : c.runs i = true) (lock lane0 : Bool) (f : AsCtx → AsRes) :
    d.asExec m i core lock lane0 f = d.asRun c core.bench lock lane0 (f c) := by simp [Dev.asExec, h, hi]

/-- An instruction whose core does not execute does nothing. -/
theorem asExec_none {i : Instr} {d : Dev} {m : List Host.Cell} {core : Core} (h : d.asCtx? m core = none) (lock lane0 : Bool)
    (f : AsCtx → AsRes) : d.asExec m i core lock lane0 f = (d, m) := by simp [Dev.asExec, h]

/-- An instruction that goes on. -/
theorem goesOn_of {i : Instr} {s : State} {d1 : Dev} {core : Core} {c : AsCtx} {lock lane0 : Bool} {g : AsCtx → AsRes} {r : AsRes}
    {dd : Dev → Dev} (h : exec i s = memStep (fun d m => (dd d).asExec m i core lock lane0 g) s) (hd : dd s.dev = d1)
    (hc : d1.asCtx? s.mem core = some c) (hl : (lock && c.b.free) = false) (hr : g c = r) : GoesOn i s d1 core c lane0 r := by
  intro hi h1 h2 h3
  have e : d1.asRun c core.bench lock lane0 r =
      (((d1.asNote c core.bench lane0 r).1.putBench core.bench (r.b.setPc c.b.free c.thread r.next.toNat)).phaseCheck c.m c.l.id, c.m) := by
    simp only [Dev.asRun, hl, h1, Dev.asGo, h2, h3]
    rfl
  have hm := (asCtx?_sees hc).1
  refine ⟨_, _, h, ?_⟩
  subst hd
  beta_reduce
  rw [asExec_some hc hi, hr, e, hm]
  exact ⟨rfl, rfl⟩

/-- A core that may execute is on a device that is out of reset and has not stopped. -/
theorem asCtx?_live {d : Dev} {m : List Host.Cell} {core : Core} {c : AsCtx} (h : d.asCtx? m core = some c) : d.live = true := by
  cases hl : d.live
  · simp [Dev.asCtx?, hl] at h
  · rfl

/-- An instruction that may use a free value, and goes on. -/
theorem goesOn_free {i : Instr} {s : State} {core : Core} {c : AsCtx} {g : AsCtx → AsRes} {r : AsRes}
    (h : exec i s = memStep (fun d m => if d.live then d.freeNext.asExec m i core false false g else (d, m)) s)
    (hc : s.dev.freeNext.asCtx? s.mem core = some c) (hr : g c = r) : GoesOn i s s.dev.freeNext core c false r := by
  have hl0 : s.dev.freeNext.live = true := asCtx?_live hc
  have hl : s.dev.live = true := hl0
  refine goesOn_of (lock := false) (dd := fun _ => s.dev.freeNext) (g := g) ?_ rfl hc rfl hr
  rw [h]
  simp [memStep, hl]

end Sys2Proof.Machine
end

