-- ==== Sys2Proof/Laws/Memory.lean ====
section
/-! SUPPORT. Every operation on stacked memory keeps its canonical form (chapter 13); reading after writing. -/

namespace Sys2Proof.Machine

theorem wf_memWrite (a : Nat) (bs : Bytes) {m : List Host.Cell} (h : Memory.wf m) : Memory.wf (memWrite a bs m) := mwf_mputs a bs h

theorem wf_filter (p : Host.Cell → Bool) {m : List Host.Cell} (h : Memory.wf m) : Memory.wf (m.filter p) := mwf_filter p h

theorem wf_leftOver (free : Nat) (w : SMap Byte) {m : List Host.Cell} (h : Memory.wf m) : Memory.wf (leftOver free w m) := by
  unfold leftOver
  refine foldl_keeps Memory.wf _ w m h (fun m e hm => ?_)
  split
  · exact mwf_mput _ _ hm
  · exact hm

theorem wf_stores (w : SMap Byte) {m : List Host.Cell} (h : Memory.wf m) : Memory.wf (w.foldl (fun m e => mput 0 e.1 e.2 m) m) :=
  foldl_keeps Memory.wf _ w m h (fun _ _ hm => mwf_mput _ _ hm)

theorem wf_launchFail (d : Dev) {m : List Host.Cell} (id st : Nat) (h : Memory.wf m) : Memory.wf (d.launchFail m id st).2 := by
  unfold Dev.launchFail
  split
  · exact h
  · exact wf_leftOver _ _ h

theorem wf_launchFault (d : Dev) {m : List Host.Cell} (l : Launch) (cause win : Nat) (store : Bool) (b lane pc ofs : Nat) (h : Memory.wf m) :
    Memory.wf (d.launchFault m l cause win store b lane pc ofs).2 := wf_launchFail _ _ _ h

theorem wf_launchStart (d : Dev) {m : List Host.Cell} (l : Launch) (bs : List Nat) (h : Memory.wf m) : Memory.wf (d.launchStart m l bs).2 := by
  have h2 := wf_launchFault (d.launchPlace l bs) l 3 0 false (bs.headD 0) 0 (rdLE l.body 40 4) 0 h
  simp only [Dev.launchStart]
  split
  · assumption
  · exact h2

theorem wf_launchFail? (d : Dev) {m : List Host.Cell} (l : Option Launch) (st : Nat) (h : Memory.wf m) :
    Memory.wf (match l with
      | some l => d.launchFail m l.id st
      | none => (d, m)).2 := by
  cases l with
  | none => exact h
  | some l => exact wf_launchFail _ _ _ h

theorem wf_benchOut (d : Dev) {m : List Host.Cell} (phys : Nat) (h : Memory.wf m) : Memory.wf (d.benchOut m phys).2 := by
  unfold Dev.benchOut
  exact wf_launchFail? _ _ _ h

theorem wf_asGo (d : Dev) (c : AsCtx) (bench : Nat) (lane0 : Bool) (r : AsRes) (h : Memory.wf c.m) : Memory.wf (d.asGo c bench lane0 r).2 := by
  unfold Dev.asGo
  generalize d.asNote c bench lane0 r = t
  simp only
  split
  · exact wf_launchFail _ _ _ h
  · split
    · exact h
    · exact wf_launchFault _ _ _ _ _ _ _ _ _ h

theorem wf_asRun (d : Dev) (c : AsCtx) (bench : Nat) (lock lane0 : Bool) (r : AsRes) (h : Memory.wf c.m) :
    Memory.wf (d.asRun c bench lock lane0 r).2 := by
  unfold Dev.asRun
  split
  · exact wf_launchFault _ _ _ _ _ _ _ _ _ h
  · split
    · exact wf_launchFault _ _ _ _ _ _ _ _ _ h
    · exact wf_launchFail _ _ _ h
    · exact wf_asGo _ _ _ _ _ h

/-- The memory that an instruction sees is the machine's. -/
theorem asCtx?_mem {d : Dev} {m : List Host.Cell} {core : Core} {c : AsCtx} (h : d.asCtx? m core = some c) : c.m = m := by
  unfold Dev.asCtx? at h
  split at h
  · simp only at h
    split at h
    · cases h; rfl
    · cases h
  · cases h

theorem wf_asExec (d : Dev) {m : List Host.Cell} (i : Instr) (core : Core) (lock lane0 : Bool) (f : AsCtx → AsRes) (h : Memory.wf m) :
    Memory.wf (d.asExec m i core lock lane0 f).2 := by
  unfold Dev.asExec
  split
  · rename_i c hc
    split
    · exact wf_asRun _ _ _ _ _ _ (by rw [asCtx?_mem hc]; exact h)
    · exact h
  · exact h

theorem wf_copyEnd (d : Dev) {m : List Host.Cell} (id st : Nat) (data : Bytes) (h : Memory.wf m) : Memory.wf (d.copyEnd m id st data).2 := by
  unfold Dev.copyEnd
  split
  · exact h
  · simp only
    split
    · exact h
    · split
      · exact wf_memWrite _ _ h
      · exact h

theorem wf_strikeLate (d : Dev) {m : List Host.Cell} (c : Cmp) (h : Memory.wf m) : Memory.wf (d.strikeLate m c).2 := by
  unfold Dev.strikeLate
  simp only
  split
  · exact h
  · split <;> exact h
  · exact wf_launchFail _ _ _ h
  · split <;> exact h
  · exact h

/-- A fold over pairs whose every step keeps the memory's form keeps it. -/
theorem wf_fold {α : Type} (f : Dev × List Host.Cell → α → Dev × List Host.Cell) (xs : List α) (r : Dev × List Host.Cell)
    (h : Memory.wf r.2) (hf : ∀ r a, Memory.wf r.2 → Memory.wf (f r a).2) : Memory.wf (xs.foldl f r).2 :=
  foldl_keeps (fun (r : Dev × List Host.Cell) => Memory.wf r.2) f xs r h hf

theorem wf_takeBeat (d : Dev) {m : List Host.Cell} (n : W32) (t : W64) (h : Memory.wf m) : Memory.wf (d.takeBeat m n t).2 :=
  wf_fold _ _ _ h (fun _ _ hr => wf_strikeLate _ _ hr)

theorem wf_applyChange (d : Dev) {m : List Host.Cell} (c : Change) (h : Memory.wf m) : Memory.wf (d.applyChange m c).2 := by
  cases c <;> first | exact h | exact wf_memWrite _ _ h

theorem wf_followerStrike (d : Dev) {m : List Host.Cell} (b : TwPrep) (h : Memory.wf m) : Memory.wf (d.followerStrike m b).2 := by
  unfold Dev.followerStrike
  simp only
  split
  · exact h
  · split
    · exact wf_fold _ _ _ h (fun _ _ hr => wf_applyChange _ _ hr)
    · exact h
    · exact h

theorem wf_abortDesc (d : Dev) {m : List Host.Cell} (p : DescRef → Bool) (h : Memory.wf m) : Memory.wf (d.abortDesc m p).2 :=
  wf_fold _ _ _ h (fun _ _ hr => wf_launchFail _ _ _ hr)

theorem wf_ringCtrlEffect (r : Nat) (v : W32) (d : Dev) {m : List Host.Cell} (h : Memory.wf m) : Memory.wf (ringCtrlEffect r v d m).2 := by
  unfold ringCtrlEffect
  simp only
  split
  · exact h
  · split
    · split <;> exact h
    · split
      · split
        · exact wf_abortDesc _ _ h
        · exact h
      · exact h

theorem wf_hostDataLost (d : Dev) {m : List Host.Cell} (r slot : Nat) (h : Memory.wf m) : Memory.wf (d.hostDataLost m r slot).2 := by
  unfold Dev.hostDataLost
  simp only
  split
  · exact h
  · split
    · exact wf_copyEnd _ _ _ _ h
    · split
      · exact h
      · split
        · split <;> exact h
        · exact h

/-- A byte outside those stored reads as before. -/
theorem memRead_memWrite_outside (a b : Nat) (bs : Bytes) (m : List Host.Cell) (h : b < a ∨ a + bs.length ≤ b) :
    mget 0 b (memWrite a bs m) = mget 0 b m := mget_mputs_outside bs m h

/-- The bytes stored read back. -/
theorem memRead_memWrite_at (a i : Nat) (bs : Bytes) (m : List Host.Cell) (h : i < bs.length) :
    mget 0 (a + i) (memWrite a bs m) = bs.getD i 0 := mget_mputs_at bs m h

end Sys2Proof.Machine
end

