-- ==== Sys2Proof/Tests/Slice0.lean ====
section
/-! SUPPORT. Tests of the model: operands out of range that `Instr.wf` refuses, states that meet the hypotheses of each statement
(`wit_<Name>`), and small checks against the manual's own figures. -/

namespace Sys2Proof.Machine

open Sys2Proof

-- One theorem after another: elaborated at once, each waits on the kernel in a thread of its own, and their stacks meet the memory limit.
set_option Elab.async false

/-! ## Operands out of range -/

/-- Commands with one operand out of its range. -/
theorem test_ill_formed_1 : (
    [.timeMarker 257, .timeMarkerSend 257, .beatMarker 257, .strikeDeadline 64, .launchStrike 64, .commitStrike 64, .tableDrainStrike 64,
     .tableSwapStrike 64, .twinCommitStrike 64, .twinPromoteStrike 64, .gateCycleStart 16, .gateEntryBoundary 16, .geCtrlWrite 16 0,
     .geSwapHiWrite 16 0, .blockLockGained 528, .blockLockLost 528, .alignSend 257 [], .align 257 [], .elasticIdleAdjust 257 false,
     .flitReceive 257 ⟨[], false⟩, .flitReceive 0 ⟨[⟨0, 4, List.replicate 8 0, 0⟩], false⟩, .flitSend 257, .retryReq 257 [],
     .retryStart 257 [], .retryReqTimeout 257, .ackTimeout 257, .train 257 [] [] [], .lossOfSignal 528, .lossOfLock 528, .laneLossFence 528,
     .laneLockTimeout 528, .bringupTimeout 257, .qualifyDone 257, .lnGroupCfgWrite 64 0, .packetArrive 257, .sorterClassify 64,
     .rsqGapTimeout 262144, .fenceRelease 257, .heldPacketTimeout 257, .fencedNak 257, .pruned 257, .tableSwap 8192,
     .dtShadowWrite 32768 0 0, .dtShadowWrite 0 4 0, .spShadowWrite 64 0 0, .spShadowWrite 0 512 0, .srEnd 64 ⟨0, 0, 0, false, 0⟩,
     .srEnd 0 ⟨8, 0, 0, false, 0⟩, .srDrop 64 ⟨0, 0, 0, false, 0⟩, .srDrop 0 ⟨8, 0, 0, false, 0⟩, .srLdh 64 ⟨0, 0, 0, false, 0⟩,
     .srLdh 0 ⟨8, 0, 0, false, 0⟩, .srLdi 64 ⟨0, 0, 0, false, 0⟩, .srLdi 0 ⟨8, 0, 0, false, 0⟩, .srLui 64 ⟨0, 0, 0, false, 0⟩,
     .srLui 0 ⟨8, 0, 0, false, 0⟩, .srAdd 64 ⟨0, 0, 0, false, 0⟩, .srAdd 0 ⟨8, 0, 0, false, 0⟩, .srSub 64 ⟨0, 0, 0, false, 0⟩,
     .srSub 0 ⟨8, 0, 0, false, 0⟩] : List Instr).all (fun i => !i.wf) = true := by decide +kernel

/-- Commands with one operand out of its range. -/
theorem test_ill_formed_2 : (
    [.srAnd 64 ⟨0, 0, 0, false, 0⟩, .srAnd 0 ⟨8, 0, 0, false, 0⟩, .srOr 64 ⟨0, 0, 0, false, 0⟩, .srOr 0 ⟨8, 0, 0, false, 0⟩,
     .srXor 64 ⟨0, 0, 0, false, 0⟩, .srXor 0 ⟨8, 0, 0, false, 0⟩, .srShl 64 ⟨0, 0, 0, false, 0⟩, .srShl 0 ⟨8, 0, 0, false, 0⟩,
     .srShr 64 ⟨0, 0, 0, false, 0⟩, .srShr 0 ⟨8, 0, 0, false, 0⟩, .srHash 64 ⟨0, 0, 0, false, 0⟩, .srHash 0 ⟨8, 0, 0, false, 0⟩,
     .srLut 64 ⟨0, 0, 0, false, 0⟩, .srLut 0 ⟨8, 0, 0, false, 0⟩, .srJeq 64 ⟨0, 0, 0, false, 0⟩, .srJeq 0 ⟨8, 0, 0, false, 0⟩,
     .srJne 64 ⟨0, 0, 0, false, 0⟩, .srJne 0 ⟨8, 0, 0, false, 0⟩, .srJlt 64 ⟨0, 0, 0, false, 0⟩, .srJlt 0 ⟨8, 0, 0, false, 0⟩,
     .srJge 64 ⟨0, 0, 0, false, 0⟩, .srJge 0 ⟨8, 0, 0, false, 0⟩, .srJmp 64 ⟨0, 0, 0, false, 0⟩, .srJmp 0 ⟨8, 0, 0, false, 0⟩,
     .srOut 64 ⟨0, 0, 0, false, 0⟩, .srOut 0 ⟨8, 0, 0, false, 0⟩, .unitCellTake 67, .bufferEccError 257 0 ⟨0, false⟩,
     .bufferEccError 0 32 ⟨0, false⟩, .bufferEccError 0 0 ⟨1048576, false⟩, .flowCtxFetch 262144, .flowCtxWrite 8192 [], .flowCtxRead 8192,
     .flowCtxZero 8192, .qtPortQfWrite 256 0, .qtPortPcWrite 256 0, .qtPortRsqWrite 256 0, .qtUnitWrite 67 0, .fdMapWrite 1024 0,
     .packetDepart 257, .policerCommit 16384 0, .polLastLoRead 16384, .svQuantWrite 256 0 0, .svQuantWrite 0 28 0, .svClassLenWrite 8 0,
     .svGateBindWrite 256 0, .smPart 257, .smGrant 257, .tallyTimeout 65536 0, .tallyTimeout 0 4294967296, .smAbort 257,
     .smelterFault 68 false, .redMemEccError ⟨32768, false⟩ (.pool false), .rcNop 64 ⟨0, 0, 0, 0⟩, .rcNop 0 ⟨8, 0, 0, 0⟩,
     .rcLdin 64 ⟨0, 0, 0, 0⟩, .rcLdin 0 ⟨8, 0, 0, 0⟩, .rcLdacc 64 ⟨0, 0, 0, 0⟩, .rcLdacc 0 ⟨8, 0, 0, 0⟩, .rcStacc 64 ⟨0, 0, 0, 0⟩] : List Instr).all (fun i => !i.wf) = true := by decide +kernel

/-- Commands with one operand out of its range. -/
theorem test_ill_formed_3 : (
    [.rcStacc 0 ⟨8, 0, 0, 0⟩, .rcRed 64 ⟨0, 0, 0, 0⟩, .rcRed 0 ⟨8, 0, 0, 0⟩, .rcAdd 64 ⟨0, 0, 0, 0⟩, .rcAdd 0 ⟨8, 0, 0, 0⟩,
     .rcMul 64 ⟨0, 0, 0, 0⟩, .rcMul 0 ⟨8, 0, 0, 0⟩, .rcMax 64 ⟨0, 0, 0, 0⟩, .rcMax 0 ⟨8, 0, 0, 0⟩, .rcMin 64 ⟨0, 0, 0, 0⟩,
     .rcMin 0 ⟨8, 0, 0, 0⟩, .rcAbs 64 ⟨0, 0, 0, 0⟩, .rcAbs 0 ⟨8, 0, 0, 0⟩, .rcNeg 64 ⟨0, 0, 0, 0⟩, .rcNeg 0 ⟨8, 0, 0, 0⟩,
     .rcLdk 64 ⟨0, 0, 0, 0⟩, .rcLdk 0 ⟨8, 0, 0, 0⟩, .rcEmit 64 ⟨0, 0, 0, 0⟩, .rcEmit 0 ⟨8, 0, 0, 0⟩, .rcpWrite 64 0 0, .rcpWrite 0 32 0,
     .allreduce 8192, .reduce 8192, .reduceScatter 8192, .allgather 8192, .broadcast 8192, .alltoall 8192, .alltoallv 8192, .barrier 8192,
     .reduceUpdateGather 8192, .clData 257, .clCount 257, .clDone 257, .orderTimeout 65536 0, .orderTimeout 0 4294967296,
     .groupSet 8192 [], .groupDelete 8192, .assayLoad 8192 [], .assayUnload 8192, .assayRun 8192, .benchFault ⟨136, false⟩, .asEnd ⟨128, 0⟩,
     .asNop ⟨128, 0⟩, .asBr ⟨128, 0⟩ ⟨0, 0, 0, 0⟩, .asBr ⟨0, 0⟩ ⟨8, 0, 0, 0⟩, .asJmp ⟨128, 0⟩ 0, .asJmp ⟨0, 0⟩ 16777216,
     .asCall ⟨128, 0⟩ 0, .asCall ⟨0, 0⟩ 16777216, .asJr ⟨128, 0⟩ 0, .asJr ⟨0, 0⟩ 64, .asFork ⟨128, 0⟩, .asJoin ⟨128, 0⟩, .asBar ⟨128, 0⟩,
     .asGsync ⟨128, 0⟩, .asMov ⟨128, 0⟩ ⟨0, 0, 0, 0, 0⟩, .asMov ⟨0, 0⟩ ⟨64, 0, 0, 0, 0⟩, .asIadd ⟨128, 0⟩ ⟨0, 0, 0, 0, 0⟩,
     .asIadd ⟨0, 0⟩ ⟨64, 0, 0, 0, 0⟩, .asIsub ⟨128, 0⟩ ⟨0, 0, 0, 0, 0⟩] : List Instr).all (fun i => !i.wf) = true := by decide +kernel

/-- Commands with one operand out of its range. -/
theorem test_ill_formed_4 : (
    [.asIsub ⟨0, 0⟩ ⟨64, 0, 0, 0, 0⟩, .asImul ⟨128, 0⟩ ⟨0, 0, 0, 0, 0⟩, .asImul ⟨0, 0⟩ ⟨64, 0, 0, 0, 0⟩, .asImin ⟨128, 0⟩ ⟨0, 0, 0, 0, 0⟩,
     .asImin ⟨0, 0⟩ ⟨64, 0, 0, 0, 0⟩, .asImax ⟨128, 0⟩ ⟨0, 0, 0, 0, 0⟩, .asImax ⟨0, 0⟩ ⟨64, 0, 0, 0, 0⟩, .asAnd ⟨128, 0⟩ ⟨0, 0, 0, 0, 0⟩,
     .asAnd ⟨0, 0⟩ ⟨64, 0, 0, 0, 0⟩, .asOr ⟨128, 0⟩ ⟨0, 0, 0, 0, 0⟩, .asOr ⟨0, 0⟩ ⟨64, 0, 0, 0, 0⟩, .asXor ⟨128, 0⟩ ⟨0, 0, 0, 0, 0⟩,
     .asXor ⟨0, 0⟩ ⟨64, 0, 0, 0, 0⟩, .asShl ⟨128, 0⟩ ⟨0, 0, 0, 0, 0⟩, .asShl ⟨0, 0⟩ ⟨64, 0, 0, 0, 0⟩, .asShr ⟨128, 0⟩ ⟨0, 0, 0, 0, 0⟩,
     .asShr ⟨0, 0⟩ ⟨64, 0, 0, 0, 0⟩, .asSra ⟨128, 0⟩ ⟨0, 0, 0, 0, 0⟩, .asSra ⟨0, 0⟩ ⟨64, 0, 0, 0, 0⟩, .asAddi ⟨128, 0⟩ ⟨0, 0, 0⟩,
     .asAddi ⟨0, 0⟩ ⟨64, 0, 0⟩, .asLi ⟨128, 0⟩ ⟨0, 0, 0⟩ 0, .asLi ⟨0, 0⟩ ⟨64, 0, 0⟩ 0, .asShfl ⟨128, 0⟩ ⟨0, 0, 0, 0, 0⟩,
     .asShfl ⟨0, 0⟩ ⟨64, 0, 0, 0, 0⟩, .asSel ⟨128, 0⟩ ⟨0, 0, 0, 0, 0⟩, .asSel ⟨0, 0⟩ ⟨64, 0, 0, 0, 0⟩, .asFadd ⟨128, 0⟩ ⟨0, 0, 0, 0, 0⟩,
     .asFadd ⟨0, 0⟩ ⟨64, 0, 0, 0, 0⟩, .asFsub ⟨128, 0⟩ ⟨0, 0, 0, 0, 0⟩, .asFsub ⟨0, 0⟩ ⟨64, 0, 0, 0, 0⟩, .asFmul ⟨128, 0⟩ ⟨0, 0, 0, 0, 0⟩,
     .asFmul ⟨0, 0⟩ ⟨64, 0, 0, 0, 0⟩, .asFma ⟨128, 0⟩ ⟨0, 0, 0, 0, 0⟩, .asFma ⟨0, 0⟩ ⟨64, 0, 0, 0, 0⟩, .asFnma ⟨128, 0⟩ ⟨0, 0, 0, 0, 0⟩,
     .asFnma ⟨0, 0⟩ ⟨64, 0, 0, 0, 0⟩, .asFmin ⟨128, 0⟩ ⟨0, 0, 0, 0, 0⟩, .asFmin ⟨0, 0⟩ ⟨64, 0, 0, 0, 0⟩, .asFmax ⟨128, 0⟩ ⟨0, 0, 0, 0, 0⟩,
     .asFmax ⟨0, 0⟩ ⟨64, 0, 0, 0, 0⟩, .asFabs ⟨128, 0⟩ ⟨0, 0, 0, 0, 0⟩, .asFabs ⟨0, 0⟩ ⟨64, 0, 0, 0, 0⟩, .asFneg ⟨128, 0⟩ ⟨0, 0, 0, 0, 0⟩,
     .asFneg ⟨0, 0⟩ ⟨64, 0, 0, 0, 0⟩, .asDot2 ⟨128, 0⟩ ⟨0, 0, 0, 0, 0⟩, .asDot2 ⟨0, 0⟩ ⟨64, 0, 0, 0, 0⟩, .asDot4 ⟨128, 0⟩ ⟨0, 0, 0, 0, 0⟩,
     .asDot4 ⟨0, 0⟩ ⟨64, 0, 0, 0, 0⟩, .asDiv ⟨128, 0⟩ ⟨0, 0, 0, 0, 0⟩, .asDiv ⟨0, 0⟩ ⟨64, 0, 0, 0, 0⟩, .asRcp ⟨128, 0⟩ ⟨0, 0, 0, 0, 0⟩,
     .asRcp ⟨0, 0⟩ ⟨64, 0, 0, 0, 0⟩, .asSqrt ⟨128, 0⟩ ⟨0, 0, 0, 0, 0⟩, .asSqrt ⟨0, 0⟩ ⟨64, 0, 0, 0, 0⟩, .asRsqrt ⟨128, 0⟩ ⟨0, 0, 0, 0, 0⟩,
     .asRsqrt ⟨0, 0⟩ ⟨64, 0, 0, 0, 0⟩, .asExp ⟨128, 0⟩ ⟨0, 0, 0, 0, 0⟩, .asExp ⟨0, 0⟩ ⟨64, 0, 0, 0, 0⟩, .asExp2 ⟨128, 0⟩ ⟨0, 0, 0, 0, 0⟩] : List Instr).all (fun i => !i.wf) = true := by decide +kernel

/-- Commands with one operand out of its range. -/
theorem test_ill_formed_5 : (
    [.asExp2 ⟨0, 0⟩ ⟨64, 0, 0, 0, 0⟩, .asLog ⟨128, 0⟩ ⟨0, 0, 0, 0, 0⟩, .asLog ⟨0, 0⟩ ⟨64, 0, 0, 0, 0⟩, .asLog2 ⟨128, 0⟩ ⟨0, 0, 0, 0, 0⟩,
     .asLog2 ⟨0, 0⟩ ⟨64, 0, 0, 0, 0⟩, .asTanh ⟨128, 0⟩ ⟨0, 0, 0, 0, 0⟩, .asTanh ⟨0, 0⟩ ⟨64, 0, 0, 0, 0⟩,
     .asSigmoid ⟨128, 0⟩ ⟨0, 0, 0, 0, 0⟩, .asSigmoid ⟨0, 0⟩ ⟨64, 0, 0, 0, 0⟩, .asSin ⟨128, 0⟩ ⟨0, 0, 0, 0, 0⟩,
     .asSin ⟨0, 0⟩ ⟨64, 0, 0, 0, 0⟩, .asCos ⟨128, 0⟩ ⟨0, 0, 0, 0, 0⟩, .asCos ⟨0, 0⟩ ⟨64, 0, 0, 0, 0⟩, .asCvt ⟨128, 0⟩ ⟨0, 0, 0, 0, 0⟩ 0,
     .asCvt ⟨0, 0⟩ ⟨64, 0, 0, 0, 0⟩ 0, .asCmp ⟨128, 0⟩ ⟨0, 0, 0, 0, 0⟩, .asCmp ⟨0, 0⟩ ⟨64, 0, 0, 0, 0⟩, .asTail ⟨128, 0⟩ ⟨0, 0, 0, 0⟩,
     .asTail ⟨0, 0⟩ ⟨8, 0, 0, 0⟩, .asMovrm ⟨128, 0⟩ ⟨0, 0, 0, 0⟩, .asMovrm ⟨0, 0⟩ ⟨8, 0, 0, 0⟩, .asMovmr ⟨128, 0⟩ ⟨0, 0, 0, 0⟩,
     .asMovmr ⟨0, 0⟩ ⟨8, 0, 0, 0⟩, .asMand ⟨128, 0⟩ ⟨0, 0, 0, 0⟩, .asMand ⟨0, 0⟩ ⟨8, 0, 0, 0⟩, .asMor ⟨128, 0⟩ ⟨0, 0, 0, 0⟩,
     .asMor ⟨0, 0⟩ ⟨8, 0, 0, 0⟩, .asMxor ⟨128, 0⟩ ⟨0, 0, 0, 0⟩, .asMxor ⟨0, 0⟩ ⟨8, 0, 0, 0⟩, .asMandn ⟨128, 0⟩ ⟨0, 0, 0, 0⟩,
     .asMandn ⟨0, 0⟩ ⟨8, 0, 0, 0⟩, .asMnot ⟨128, 0⟩ ⟨0, 0, 0, 0⟩, .asMnot ⟨0, 0⟩ ⟨8, 0, 0, 0⟩, .asRed ⟨128, 0⟩ ⟨0, 0, 0, 0, 0⟩,
     .asRed ⟨0, 0⟩ ⟨64, 0, 0, 0, 0⟩, .asReds ⟨128, 0⟩ ⟨0, 0, 0, 0, 0⟩, .asReds ⟨0, 0⟩ ⟨64, 0, 0, 0, 0⟩,
     .asSoftmax ⟨128, 0⟩ ⟨0, 0, 0, 0, 0⟩ 0, .asSoftmax ⟨0, 0⟩ ⟨64, 0, 0, 0, 0⟩ 0, .asRng ⟨128, 0⟩ ⟨0, 0, 0, 0, 0⟩,
     .asRng ⟨0, 0⟩ ⟨64, 0, 0, 0, 0⟩, .asLd8 ⟨128, 0⟩ ⟨0, 0, 0, 0, 0⟩, .asLd8 ⟨0, 0⟩ ⟨64, 0, 0, 0, 0⟩, .asLd16 ⟨128, 0⟩ ⟨0, 0, 0, 0, 0⟩,
     .asLd16 ⟨0, 0⟩ ⟨64, 0, 0, 0, 0⟩, .asLd32 ⟨128, 0⟩ ⟨0, 0, 0, 0, 0⟩, .asLd32 ⟨0, 0⟩ ⟨64, 0, 0, 0, 0⟩, .asLd64 ⟨128, 0⟩ ⟨0, 0, 0, 0, 0⟩,
     .asLd64 ⟨0, 0⟩ ⟨64, 0, 0, 0, 0⟩, .asSt8 ⟨128, 0⟩ ⟨0, 0, 0, 0, 0⟩, .asSt8 ⟨0, 0⟩ ⟨64, 0, 0, 0, 0⟩, .asSt16 ⟨128, 0⟩ ⟨0, 0, 0, 0, 0⟩,
     .asSt16 ⟨0, 0⟩ ⟨64, 0, 0, 0, 0⟩, .asSt32 ⟨128, 0⟩ ⟨0, 0, 0, 0, 0⟩, .asSt32 ⟨0, 0⟩ ⟨64, 0, 0, 0, 0⟩, .asSt64 ⟨128, 0⟩ ⟨0, 0, 0, 0, 0⟩,
     .asSt64 ⟨0, 0⟩ ⟨64, 0, 0, 0, 0⟩, .asAtomAdd ⟨128, 0⟩ ⟨0, 0, 0, 0, 0⟩, .asAtomAdd ⟨0, 0⟩ ⟨64, 0, 0, 0, 0⟩,
     .asAtomMin ⟨128, 0⟩ ⟨0, 0, 0, 0, 0⟩] : List Instr).all (fun i => !i.wf) = true := by decide +kernel

/-- Commands with one operand out of its range. -/
theorem test_ill_formed_6 : (
    [.asAtomMin ⟨0, 0⟩ ⟨64, 0, 0, 0, 0⟩, .asAtomMax ⟨128, 0⟩ ⟨0, 0, 0, 0, 0⟩, .asAtomMax ⟨0, 0⟩ ⟨64, 0, 0, 0, 0⟩,
     .asAtomAnd ⟨128, 0⟩ ⟨0, 0, 0, 0, 0⟩, .asAtomAnd ⟨0, 0⟩ ⟨64, 0, 0, 0, 0⟩, .asAtomOr ⟨128, 0⟩ ⟨0, 0, 0, 0, 0⟩,
     .asAtomOr ⟨0, 0⟩ ⟨64, 0, 0, 0, 0⟩, .asAtomXor ⟨128, 0⟩ ⟨0, 0, 0, 0, 0⟩, .asAtomXor ⟨0, 0⟩ ⟨64, 0, 0, 0, 0⟩, .shardDefine 8192 [],
     .shardDelete 8192, .shardFlagsOnly 8192 [], .shardSched 8192 [], .shardIoWrite 8192, .shardIoRead 8192, .shardIoSeal 8192,
     .shardResolve 8192, .updatePiece 65536 0 0, .updatePiece 0 4294967296 0, .updatePiece 0 0 1099511627776, .upPoolWrite 4 0,
     .scrubLine 8 0 0, .scrubLine 0 4294967296 0, .scrubLine 0 0 4098, .stackEccError 8 0 0, .stackEccError 0 4294967296 0,
     .stackEccError 0 0 4096, .refreshWindowOpen 8, .refreshWindowClose 8, .autoRefresh 8, .memCopy 8192, .wsModel 8192,
     .wsModelUndefine 8192, .wsSend 8192 [], .memPartWrite 4 0, .memRefWrite 8 0, .hostReadError 8192 none, .descriptorFetch 8192 [],
     .ringEnable 8192 0, .ringDrain 8192 0, .ringAbort 8192 0, .msixModTimer 2048, .nop 8192, .twinHallTimeout 65536 0,
     .twinHallTimeout 0 4294967296, .twinCommit 8192, .twinSync 8192, .twinPromote 8192, .surveyorMeasurement 4 0 0,
     .surveyorMeasurement 0 256 0, .surveyorMeasurement 0 0 256, .maintWindowOpen 2, .maintWindowClose 2, .vddStep 4, .slackAlarm 4,
     .clockLockLoss 96, .benchDomainPowerLoss 96, .sorterFault ⟨68, false⟩, .switchTableError 4 0 none, .switchTableError 0 4 none] : List Instr).all (fun i => !i.wf) = true := by decide +kernel

/-- Commands with one operand out of its range. -/
theorem test_ill_formed_7 : (
    [.powerDomainUp 96, .fwUpdate 8192 [], .fwUpdateRaise 8192, .attest 8192, .registerWrite 268500992 0, .bar0BadAccess false 268435456 0,
     .signalAndLockRegained 528, .msixVectorUnmask 2048, .wsModelReadDone 4096, .align 0 [⟨528, List.replicate 8 0, 0, 0⟩],
     .align 0 [⟨0, [], 0, 0⟩], .retryReq 0 [[]], .retryStart 0 [[]], .train 0 [(0, 255)] [] [], .train 0 [] [] [(0, 255)], .redMemEccError ⟨0, false⟩ (.op 65536 0),
     .atomicSwapError 0 0 ⟨[], [(8192, 0)]⟩, .doorbellPoll 0 0 [] [(8192, 0)], .hostReadError 0 (some 65536),
     .thermalThrottleStep [0, 0, 0] [], .loadSample [0, 0, 0] [], .loadSample [0, 0, 0, 0] [(256, 0)], .loadSample [0, 0, 0, 0] [(0, 4)],
     .switchTableError 0 0 (some 262144)] : List Instr).all (fun i => !i.wf) = true := by decide +kernel

/-- The same commands with every such operand at the top of its range. -/
theorem test_well_formed_1 : (
    [.timeMarker 256, .timeMarkerSend 256, .beatMarker 256, .strikeDeadline 63, .launchStrike 63, .commitStrike 63, .tableDrainStrike 63,
     .tableSwapStrike 63, .twinCommitStrike 63, .twinPromoteStrike 63, .gateCycleStart 15, .gateEntryBoundary 15, .geCtrlWrite 15 0,
     .geSwapHiWrite 15 0, .blockLockGained 527, .blockLockLost 527, .alignSend 256 [], .align 256 [], .elasticIdleAdjust 256 false,
     .flitReceive 256 ⟨[], false⟩, .flitSend 256, .retryReq 256 [], .retryStart 256 [], .retryReqTimeout 256, .ackTimeout 256,
     .train 256 [] [] [], .lossOfSignal 527, .lossOfLock 527, .laneLossFence 527, .laneLockTimeout 527, .bringupTimeout 256, .qualifyDone 256,
     .lnGroupCfgWrite 63 0, .packetArrive 256, .sorterClassify 63, .rsqGapTimeout 262143, .fenceRelease 256, .heldPacketTimeout 256,
     .fencedNak 256, .pruned 256, .tableSwap 8191, .dtShadowWrite 32767 3 0, .spShadowWrite 63 511 0, .srEnd 63 ⟨0, 0, 0, false, 0⟩,
     .srDrop 63 ⟨0, 0, 0, false, 0⟩, .srLdh 63 ⟨0, 0, 0, false, 0⟩, .srLdi 63 ⟨0, 0, 0, false, 0⟩, .srLui 63 ⟨0, 0, 0, false, 0⟩,
     .srAdd 63 ⟨0, 0, 0, false, 0⟩, .srSub 63 ⟨0, 0, 0, false, 0⟩, .srAnd 63 ⟨0, 0, 0, false, 0⟩, .srOr 63 ⟨0, 0, 0, false, 0⟩,
     .srXor 63 ⟨0, 0, 0, false, 0⟩, .srShl 63 ⟨0, 0, 0, false, 0⟩, .srShr 63 ⟨0, 0, 0, false, 0⟩, .srHash 63 ⟨0, 0, 0, false, 0⟩,
     .srLut 63 ⟨0, 0, 0, false, 0⟩, .srJeq 63 ⟨0, 0, 0, false, 0⟩, .srJne 63 ⟨0, 0, 0, false, 0⟩, .srJlt 63 ⟨0, 0, 0, false, 0⟩] : List Instr).all (fun i => i.wf) = true := by decide +kernel

/-- The same commands with every such operand at the top of its range. -/
theorem test_well_formed_2 : (
    [.srJge 63 ⟨0, 0, 0, false, 0⟩, .srJmp 63 ⟨0, 0, 0, false, 0⟩, .srOut 63 ⟨0, 0, 0, false, 0⟩, .unitCellTake 66,
     .bufferEccError 256 31 ⟨1048575, false⟩, .flowCtxFetch 262143, .flowCtxWrite 8191 [], .flowCtxRead 8191, .flowCtxZero 8191,
     .qtPortQfWrite 255 0, .qtPortPcWrite 255 0, .qtPortRsqWrite 255 0, .qtUnitWrite 66 0, .fdMapWrite 1023 0, .packetDepart 256,
     .policerCommit 16383 0, .polLastLoRead 16383, .svQuantWrite 255 27 0, .svClassLenWrite 7 0, .svGateBindWrite 255 0, .smPart 256,
     .smGrant 256, .tallyTimeout 65535 4294967295, .smAbort 256, .smelterFault 67 false, .redMemEccError ⟨32767, false⟩ (.pool false),
     .rcNop 63 ⟨0, 0, 0, 0⟩, .rcLdin 63 ⟨0, 0, 0, 0⟩, .rcLdacc 63 ⟨0, 0, 0, 0⟩, .rcStacc 63 ⟨0, 0, 0, 0⟩, .rcRed 63 ⟨0, 0, 0, 0⟩,
     .rcAdd 63 ⟨0, 0, 0, 0⟩, .rcMul 63 ⟨0, 0, 0, 0⟩, .rcMax 63 ⟨0, 0, 0, 0⟩, .rcMin 63 ⟨0, 0, 0, 0⟩, .rcAbs 63 ⟨0, 0, 0, 0⟩,
     .rcNeg 63 ⟨0, 0, 0, 0⟩, .rcLdk 63 ⟨0, 0, 0, 0⟩, .rcEmit 63 ⟨0, 0, 0, 0⟩, .rcpWrite 63 31 0, .allreduce 8191, .reduce 8191,
     .reduceScatter 8191, .allgather 8191, .broadcast 8191, .alltoall 8191, .alltoallv 8191, .barrier 8191, .reduceUpdateGather 8191,
     .clData 256, .clCount 256, .clDone 256, .orderTimeout 65535 4294967295, .groupSet 8191 [], .groupDelete 8191, .assayLoad 8191 [],
     .assayUnload 8191, .assayRun 8191, .benchFault ⟨135, false⟩, .asEnd ⟨0, 0⟩] : List Instr).all (fun i => i.wf) = true := by decide +kernel

/-- The same commands with every such operand at the top of its range. -/
theorem test_well_formed_3 : (
    [.asNop ⟨0, 0⟩, .asBr ⟨0, 0⟩ ⟨0, 0, 0, 0⟩, .asJmp ⟨0, 0⟩ 16777215, .asCall ⟨0, 0⟩ 16777215, .asJr ⟨0, 0⟩ 63, .asFork ⟨0, 0⟩,
     .asJoin ⟨0, 0⟩, .asBar ⟨0, 0⟩, .asGsync ⟨0, 0⟩, .asMov ⟨0, 0⟩ ⟨0, 0, 0, 0, 0⟩, .asIadd ⟨0, 0⟩ ⟨0, 0, 0, 0, 0⟩,
     .asIsub ⟨0, 0⟩ ⟨0, 0, 0, 0, 0⟩, .asImul ⟨0, 0⟩ ⟨0, 0, 0, 0, 0⟩, .asImin ⟨0, 0⟩ ⟨0, 0, 0, 0, 0⟩, .asImax ⟨0, 0⟩ ⟨0, 0, 0, 0, 0⟩,
     .asAnd ⟨0, 0⟩ ⟨0, 0, 0, 0, 0⟩, .asOr ⟨0, 0⟩ ⟨0, 0, 0, 0, 0⟩, .asXor ⟨0, 0⟩ ⟨0, 0, 0, 0, 0⟩, .asShl ⟨0, 0⟩ ⟨0, 0, 0, 0, 0⟩,
     .asShr ⟨0, 0⟩ ⟨0, 0, 0, 0, 0⟩, .asSra ⟨0, 0⟩ ⟨0, 0, 0, 0, 0⟩, .asAddi ⟨0, 0⟩ ⟨0, 0, 0⟩, .asLi ⟨0, 0⟩ ⟨0, 0, 0⟩ 0,
     .asShfl ⟨0, 0⟩ ⟨0, 0, 0, 0, 0⟩, .asSel ⟨0, 0⟩ ⟨0, 0, 0, 0, 0⟩, .asFadd ⟨0, 0⟩ ⟨0, 0, 0, 0, 0⟩, .asFsub ⟨0, 0⟩ ⟨0, 0, 0, 0, 0⟩,
     .asFmul ⟨0, 0⟩ ⟨0, 0, 0, 0, 0⟩, .asFma ⟨0, 0⟩ ⟨0, 0, 0, 0, 0⟩, .asFnma ⟨0, 0⟩ ⟨0, 0, 0, 0, 0⟩, .asFmin ⟨0, 0⟩ ⟨0, 0, 0, 0, 0⟩,
     .asFmax ⟨0, 0⟩ ⟨0, 0, 0, 0, 0⟩, .asFabs ⟨0, 0⟩ ⟨0, 0, 0, 0, 0⟩, .asFneg ⟨0, 0⟩ ⟨0, 0, 0, 0, 0⟩, .asDot2 ⟨0, 0⟩ ⟨0, 0, 0, 0, 0⟩,
     .asDot4 ⟨0, 0⟩ ⟨0, 0, 0, 0, 0⟩, .asDiv ⟨0, 0⟩ ⟨0, 0, 0, 0, 0⟩, .asRcp ⟨0, 0⟩ ⟨0, 0, 0, 0, 0⟩, .asSqrt ⟨0, 0⟩ ⟨0, 0, 0, 0, 0⟩,
     .asRsqrt ⟨0, 0⟩ ⟨0, 0, 0, 0, 0⟩, .asExp ⟨0, 0⟩ ⟨0, 0, 0, 0, 0⟩, .asExp2 ⟨0, 0⟩ ⟨0, 0, 0, 0, 0⟩, .asLog ⟨0, 0⟩ ⟨0, 0, 0, 0, 0⟩,
     .asLog2 ⟨0, 0⟩ ⟨0, 0, 0, 0, 0⟩, .asTanh ⟨0, 0⟩ ⟨0, 0, 0, 0, 0⟩, .asSigmoid ⟨0, 0⟩ ⟨0, 0, 0, 0, 0⟩, .asSin ⟨0, 0⟩ ⟨0, 0, 0, 0, 0⟩,
     .asCos ⟨0, 0⟩ ⟨0, 0, 0, 0, 0⟩, .asCvt ⟨0, 0⟩ ⟨0, 0, 0, 0, 0⟩ 0, .asCmp ⟨0, 0⟩ ⟨0, 0, 0, 0, 0⟩, .asTail ⟨0, 0⟩ ⟨0, 0, 0, 0⟩,
     .asMovrm ⟨0, 0⟩ ⟨0, 0, 0, 0⟩, .asMovmr ⟨0, 0⟩ ⟨0, 0, 0, 0⟩, .asMand ⟨0, 0⟩ ⟨0, 0, 0, 0⟩, .asMor ⟨0, 0⟩ ⟨0, 0, 0, 0⟩,
     .asMxor ⟨0, 0⟩ ⟨0, 0, 0, 0⟩, .asMandn ⟨0, 0⟩ ⟨0, 0, 0, 0⟩, .asMnot ⟨0, 0⟩ ⟨0, 0, 0, 0⟩, .asRed ⟨0, 0⟩ ⟨0, 0, 0, 0, 0⟩,
     .asReds ⟨0, 0⟩ ⟨0, 0, 0, 0, 0⟩] : List Instr).all (fun i => i.wf) = true := by decide +kernel

/-- The same commands with every such operand at the top of its range. -/
theorem test_well_formed_4 : (
    [.asSoftmax ⟨0, 0⟩ ⟨0, 0, 0, 0, 0⟩ 0, .asRng ⟨0, 0⟩ ⟨0, 0, 0, 0, 0⟩, .asLd8 ⟨0, 0⟩ ⟨0, 0, 0, 0, 0⟩, .asLd16 ⟨0, 0⟩ ⟨0, 0, 0, 0, 0⟩,
     .asLd32 ⟨0, 0⟩ ⟨0, 0, 0, 0, 0⟩, .asLd64 ⟨0, 0⟩ ⟨0, 0, 0, 0, 0⟩, .asSt8 ⟨0, 0⟩ ⟨0, 0, 0, 0, 0⟩, .asSt16 ⟨0, 0⟩ ⟨0, 0, 0, 0, 0⟩,
     .asSt32 ⟨0, 0⟩ ⟨0, 0, 0, 0, 0⟩, .asSt64 ⟨0, 0⟩ ⟨0, 0, 0, 0, 0⟩, .asAtomAdd ⟨0, 0⟩ ⟨0, 0, 0, 0, 0⟩, .asAtomMin ⟨0, 0⟩ ⟨0, 0, 0, 0, 0⟩,
     .asAtomMax ⟨0, 0⟩ ⟨0, 0, 0, 0, 0⟩, .asAtomAnd ⟨0, 0⟩ ⟨0, 0, 0, 0, 0⟩, .asAtomOr ⟨0, 0⟩ ⟨0, 0, 0, 0, 0⟩,
     .asAtomXor ⟨0, 0⟩ ⟨0, 0, 0, 0, 0⟩, .shardDefine 8191 [], .shardDelete 8191, .shardFlagsOnly 8191 [], .shardSched 8191 [],
     .shardIoWrite 8191, .shardIoRead 8191, .shardIoSeal 8191, .shardResolve 8191, .updatePiece 65535 4294967295 1099511627775,
     .upPoolWrite 3 0, .scrubLine 7 4294967295 4097, .stackEccError 7 4294967295 4095, .refreshWindowOpen 7, .refreshWindowClose 7,
     .autoRefresh 7, .memCopy 8191, .wsModel 8191, .wsModelUndefine 8191, .wsSend 8191 [], .memPartWrite 3 0, .memRefWrite 7 0,
     .doorbellPoll 0 0 [] [], .atomicSwapError 0 0 ⟨[], []⟩, .hostReadError 8191 none, .descriptorFetch 8191 [], .ringEnable 8191 0,
     .ringDrain 8191 0, .ringAbort 8191 0, .msixModTimer 2047, .nop 8191, .twinHallTimeout 65535 4294967295, .twinCommit 8191,
     .twinSync 8191, .twinPromote 8191, .thermalThrottleStep [0, 0, 0, 0] [], .loadSample [0, 0, 0, 0] [], .surveyorMeasurement 3 255 255,
     .maintWindowOpen 1, .maintWindowClose 1, .vddStep 3, .slackAlarm 3, .clockLockLoss 95, .benchDomainPowerLoss 95, .sorterFault ⟨67, false⟩] : List Instr).all (fun i => i.wf) = true := by decide +kernel

/-- The same commands with every such operand at the top of its range. -/
theorem test_well_formed_5 : (
    [.switchTableError 3 3 none, .powerDomainUp 95, .fwUpdate 8191 [], .fwUpdateRaise 8191, .attest 8191, .registerWrite 268500991 0,
     .bar0BadAccess false 268435455 0, .signalAndLockRegained 527, .msixVectorUnmask 2047, .wsModelReadDone 4095] : List Instr).all (fun i => i.wf) = true := by decide +kernel

/-- Fields of instruction words, cores and flits, each one step beyond its width. -/
theorem test_ill_formed_fields :
    ([⟨8, 0, 0, true, 0⟩, ⟨0, 8, 0, true, 0⟩, ⟨0, 0, 8, true, 0⟩, ⟨0, 0, 0, true, 65536⟩] : List SrFields).all (fun f => !f.ok) = true ∧
    ([⟨8, 0, 0, 0⟩, ⟨0, 8, 0, 0⟩, ⟨0, 0, 8, 0⟩, ⟨0, 0, 0, 65536⟩] : List RcFields).all (fun f => !f.ok) = true ∧
    ([⟨64, 0, 0, 0, 0⟩, ⟨0, 64, 0, 0, 0⟩, ⟨0, 0, 64, 0, 0⟩, ⟨0, 0, 0, 8, 0⟩, ⟨0, 0, 0, 0, 8⟩] : List FmtR).all (fun f => !f.ok) = true ∧
    ([⟨64, 0, 0⟩, ⟨0, 64, 0⟩, ⟨0, 0, 4096⟩] : List FmtI).all (fun f => !f.ok) = true ∧
    ([⟨64, 0, 0, 0, 0⟩, ⟨0, 64, 0, 0, 0⟩, ⟨0, 0, 8, 0, 0⟩, ⟨0, 0, 0, 8, 0⟩, ⟨0, 0, 0, 0, 64⟩] : List FmtM).all (fun f => !f.ok) = true ∧
    ([⟨8, 0, 0, 0⟩, ⟨0, 8, 0, 0⟩, ⟨0, 0, 64, 0⟩, ⟨0, 0, 0, 4096⟩] : List FmtB).all (fun f => !f.ok) = true ∧
    ([⟨8, 0, 0, 0⟩, ⟨0, 8, 0, 0⟩, ⟨0, 0, 8, 0⟩, ⟨0, 0, 0, 64⟩] : List FmtK).all (fun f => !f.ok) = true ∧
    ([⟨128, 0⟩, ⟨0, 32⟩] : List Core).all (fun c => !c.ok) = true ∧
    ([⟨[⟨0, 4, List.replicate 8 0, 0⟩], false⟩, ⟨[⟨0, 1, List.replicate 7 0, 0⟩], false⟩] : List Flit).all (fun f => !f.ok) = true := by decide +kernel

/-! ## Devices for the witnesses -/

/-- A device in service: boot complete (R474). -/
def up : Dev := Dev.init.setStage 5

/-- A device in service, `n` ticks after time zero and as many cycles of its clock. -/
def upAt (n : Nat) : Dev := { up with tm := { up.tm with acc := BitVec.ofNat 96 (n * 2 ^ 32), cycle := n } }

/-- A write reaches its register, and what the write leaves and brings is as `c` says. -/
def reached (d : Dev) (a : Nat) (v : W32) (c : W32 → Dev → Bool) : Bool :=
  match d.barSees a v with
  | some w => c w (d.barMarks a v)
  | none => false

/-- `reached` names a value and a device with which the write reaches its register. -/
theorem reached_sees {d : Dev} {a : Nat} {v : W32} {c : W32 → Dev → Bool} (h : reached d a v c = true) :
    ∃ w d0, d.Sees a v w d0 ∧ c w d0 = true := by
  unfold reached at h
  split at h
  · exact ⟨_, _, ⟨‹_›, rfl⟩, h⟩
  · cases h

/-- A device that has fetched one descriptor of ring 0. -/
def Dev.withDesc (d : Dev) (time : W64) (bytes : Bytes) : Dev :=
  { d with hi := { d.hi with fetched := [⟨⟨0, 0, rdLE bytes 0 1, false, d.hi.gen, 1⟩, bytes, time⟩] } }

/-- The bytes of a descriptor of `n` slots: its opcode and (offset, bytes, value) of the fields that are not zero. -/
def desc (n op : Nat) (fields : List (Nat × Nat × Nat)) : Bytes :=
  fields.foldl (fun b x => putAt b x.1 (toLE x.2.1 x.2.2)) (toLE (64 * n) op)

/-- Ring 0 may reach the first 2^48 bytes of host memory (R384). -/
def Dev.windowed (d : Dev) : Dev := d.wr64 (aRING 0 + 0x20) (2 ^ 48)

/-- A strike comparator that does nothing but stand. -/
def cmp0 (act : CmpAct) : Cmp := ⟨0, 0, 0, none, act, 0, none⟩

/-- One comparator armed. -/
def Dev.armed (d : Dev) (c : Cmp) : Dev := { d with tm := { d.tm with cmps := [c] } }

/-- A port's link state changed. -/
def Dev.withPort (d : Dev) (p : Nat) (f : Port → Port) : Dev := d.setPort p (f (d.port p))

/-- A port's state (R80). -/
def Dev.inState (d : Dev) (p n : Nat) : Dev := d.sf (aLN_PORT_STAT p) 0 3 n

/-- A packet in the buffer. -/
def bpkt (pkt : Pkt) (src : Option Nat) (place : Place) : BPkt := ⟨7, pkt, src, 0, 0, false, [(0, 40)], .part 0 0, place, [], false, [], 0, []⟩

/-- A device whose buffer holds one packet. -/
def Dev.holding (d : Dev) (b : BPkt) : Dev := { d with fb := { d.fb with pkts := [b], nextId := 8 } }

/-! ## States that meet the hypotheses: plant time, lanes, switch -/

theorem wit_PlantTimeWritesAct :
    reached up aPT_STEP_HI 0xFFFFFFFF (fun _ d => d.tm.cmps.isEmpty) = true ∧
    reached (up.armed (cmp0 .drain)) aPT_STEP_HI 0 (fun _ d => !d.tm.cmps.isEmpty) = true ∧
    reached up aPT_RATE_LO 5 (fun _ _ => true) = true ∧
    reached up aPT_RATE_HI 4 (fun _ d => d.gf aPT_CTRL 0 3 == 0) = true ∧
    reached (up.wr aPT_CTRL 4) aPT_RATE_HI 4 (fun w d => d.gf aPT_CTRL 0 3 == 4 &&
      decide ((w.setWidth 8 ++ d.tm.loHeld.getD (d.tm.rate.setWidth 32) : BitVec 40).toNat = nominalRate)) = true ∧
    reached (up.wr aPT_CTRL 4) aPT_RATE_HI 3 (fun w d =>
      decide ((w.setWidth 8 ++ d.tm.loHeld.getD (d.tm.rate.setWidth 32) : BitVec 40).toNat < nominalRate - d.slewDelta)) = true ∧
    reached (up.wr aPT_CTRL 4) aPT_RATE_HI 5 (fun w d =>
      decide (nominalRate + d.slewDelta < (w.setWidth 8 ++ d.tm.loHeld.getD (d.tm.rate.setWidth 32) : BitVec 40).toNat)) = true ∧
    reached (up.wr aPT_CTRL 1) aPT_RATE_HI 4 (fun _ d => d.gf aPT_CTRL 0 3 == 1) = true ∧
    reached (up.wr aPT_CTRL 3) aPT_RATE_HI 4 (fun _ d => d.gf aPT_CTRL 0 3 == 3) = true ∧
    reached up aPT_CTRL 5 (fun w _ => decide (5 ≤ fld w 0 3)) = true ∧
    reached up aPT_CTRL 4 (fun w _ => decide (fld w 0 3 ≤ 4)) = true ∧
    reached up aPT_CMP_RES 0x10101010 (fun _ _ => true) = true ∧
    reached up aBEAT_STAT 0x80000000 (fun w _ => bitAt w 31) = true := by decide +kernel

/-- A source whose last edge is 1.5 s of ticks old. -/
def lostD : Dev := { up.wr aPT_CTRL 1 with tm := { up.tm with quiet := 3 * 2 ^ 63 } }

/-- A second boundary has just come. -/
def ppsD : Dev := (up.wr aPT_PPS_OUT 0x10001)

/-- The canary runs, and its last change is 2^20 cycles old. -/
def canaryD : Dev := { upAt 1048576 with dp := { up.dp with canaryOn := true, canaryMs := 999 } }

theorem wit_TimePinsAndReads :
    ((up.wr aPT_CTRL 1).live = true ∧ (up.wr aPT_CTRL 1).gf aPT_CTRL 0 3 = 1) ∧
    (lostD.live = true ∧ lostD.tm.lost = false ∧ lostD.gf aPT_CTRL 0 3 = 1 ∧ 3 * 2 ^ 31 ≤ lostD.tm.quiet / 2 ^ 32) ∧
    (ppsD.live = true ∧ ppsD.gb aPT_PPS_OUT 0 = true ∧ ppsD.tm.acc.toNat % 2 ^ 64 < ppsD.tm.rate.toNat ∧ ppsD.tm.ppsSec ≠ some (ppsD.now.toNat / 2 ^ 32)) ∧
    (canaryD.live = true ∧ canaryD.dp.canaryOn = true ∧ msIndex canaryD.now ≠ canaryD.dp.canaryMs ∧
      1048576 ≤ canaryD.tm.cycle - canaryD.dp.canaryAt) ∧ up.perst = true := by decide +kernel

/-- A marker word: its type, and VALID in bit 28. -/
def marker (word : Nat) : RxMarker := ⟨word, 100, true⟩

/-- A device that follows port 5 and holds a marker that it can measure. -/
def markD : Dev :=
  ((up.wr aPT_CTRL 0x502).inState 5 6).withPort 5 (fun x => { x with markerIn := [marker (1 + 2 ^ 28)], sent := [(0, 40)] })

/-- The oldest time marker is 2^INTERVAL ticks old. -/
def markDueD : Dev := (upAt (2 ^ 32 - 1)).inState 5 6

/-- An edge came before. -/
def beatD : Dev := (upAt (16 * 4096 - 1)).wr aBEAT_CFG 0x100000

theorem wit_MarkersAndBeats :
    (up.withPort 5 (fun x => { x with markerIn := [marker 1] })).live = true ∧
    ((markD.port 5).markerIn = [marker (1 + 2 ^ 28)] ∧ (1 + 2 ^ 28) % 16 = 1 ∧ markD.gf aPT_CTRL 0 3 = 2 ∧ markD.gf aPT_CTRL 8 8 = 5 ∧
      (markD.markerError 5 (marker (1 + 2 ^ 28))).isSome = true) ∧
    (markDueD.portState 5 = 6 ∧ Int.ofNat (2 ^ markDueD.gf aPT_MARK 0 5) ≤ markDueD.since (markDueD.port 5).lastMark) ∧
    (beatD.beatSrc = 0 ∧ beatD.gb aBEAT_CFG 2 = false ∧ beatD.tm.lastEdge = none ∧ beatD.tm.cmps = []) ∧
    (let d := { beatD with tm := { beatD.tm with lastEdge := some 0 } }
     d.beatSrc = 0 ∧ d.gb aBEAT_CFG 2 = false ∧ 0 ≤ d.since 0 ∧ d.since 0 < Int.ofNat (d.gf aBEAT_CFG 16 16 * 4096)) ∧
    (let d := (up.wr aBEAT_CFG 1).withPort 0 (fun x => { x with markerIn := [marker 2] })
     (d.port 0).markerIn = [marker 2] ∧ d.beatSrc = 1 ∧ 0 = d.beatLink ∧ d.tm.cmps = []) ∧
    (let d := (up.wr aBEAT_CFG 1).withPort 256 (fun x => { x with markerIn := [marker 2] })
     (d.port 256).markerIn = [marker 2] ∧ ¬(d.beatSrc = 1 ∧ 256 = d.beatLink)) := by decide +kernel

/-- One comparator, due now, in state FREE. -/
def dueD (act : CmpAct) : Dev := (up.sf aPT_STAT 0 3 1).armed (cmp0 act)

/-- A pending swap. -/
def swap0 : PendSwap := ⟨⟨0, 0, 0x60, false, 0, 1⟩, true, false, false⟩

/-- A batch that both members know as number 3. -/
def batch3 : TwBatch := ⟨3, 0, 0, none, none, ⟨0, 0, 0x70, false, 0, 1⟩, false, false⟩

theorem wit_StrikesFire :
    ([CmpAct.launchAs 0, .launchWs 0 0, .launchCl 1 1, .commit 1 1, .drain, .swap, .twinCommit 3, .promote].all (fun a =>
      (dueD a).live && decide ((dueD a).fires 0 = some (cmp0 a)))) = true ∧
    (let d := { dueD .swap with fb := { up.fb with swap := some swap0 } }
     d.fires 0 = some (cmp0 .swap) ∧ d.fb.swap = some swap0) ∧
    (let d := { dueD (.twinCommit 3) with tw := { up.tw with batch := some batch3 } }
     (d.fires 0).isSome = true ∧ d.tw.batch = some batch3) ∧
    (let d := { dueD (.twinCommit 3) with tw := { up.tw with prep := some ⟨3, 0, false, none⟩ } }
     (d.fires 0).isSome = true ∧ d.tw.batch = none ∧ d.tw.prep = some ⟨3, 0, false, none⟩) ∧
    (let d := { dueD .promote with tw := { up.tw with promote := some ⟨0, 0, 0x72, false, 0, 1⟩ } }
     (d.fires 0).isSome = true ∧ d.tw.promote.isSome = true) ∧
    (let c : Cmp := ⟨0, 0, 0, some (5, 0), .launchCl 1 1, 0, none⟩
     (up.armed c).tm.cmps.find? (fun y => y.id == 0) = some c ∧ c.wait ≠ none ∧ (up.armed c).ahead c.time ≤ 0) ∧
    (let c : Cmp := ⟨1, 1, 0, none, .commit 1 1, 0, some 9⟩
     let y : Cmp := ⟨2, 3, 0, none, .launchAs 0, 0, some 9⟩
     let d := { dueD .drain with tm := { up.tm with cmps := [y, c] } }
     d.fires 1 = some c ∧ y.id ≠ c.id ∧ d.cmpDue y = true ∧ y.due = c.due) := by decide +kernel

/-- A gate engine whose one entry opens every class for 2^24 ticks. -/
def gateD : Dev := ((up.wr (aGE 15 + 0xC) 0x1000000).wr (aGL 15 + 0x200) 0x1000000).wr (aGL 15 + 0x204) 0xFF

/-- It is enabled and runs. -/
def gateOnD : Dev := (gateD.sb (aGE 15) 0 true).setGate 15 ⟨true, 0, 0, 0, false⟩

theorem wit_GateEnginesRun :
    (let d := gateD.sb (aGE 15) 0 true
     d.live = true ∧ d.gb (aGE 15) 0 = true ∧ d.rg (aGE 15 + 0xC) ≠ 0 ∧ 0 ≤ d.since (BitVec.ofNat 64 (d.rg64 (aGE 15 + 4))) ∧
     (d.gate 15).begun = false ∧ (d.gate 15).armed = false) ∧
    (let d := gateOnD.sf (aGE 15) 1 6 1
     d.gb (aGE 15) 0 = true ∧ (d.gate 15).begun = true ∧ d.ahead (d.gate 15).ends ≤ 0 ∧ (d.gate 15).entry < d.gf (aGE 15) 1 6) ∧
    reached up (aGE 15) 1 (fun w d => bitAt w 0 && d.rg (aGE 15 + 0xC) == 0) = true ∧
    reached (gateD.wr (aGE 15 + 0xC) 0x1000001) (aGE 15) 1 (fun w d => bitAt w 0 &&
      ((d.glList 15 false (fld w 1 6 + 1)).map (fun e => e.1)).sum != (d.rg (aGE 15 + 0xC)).toNat) = true ∧
    reached gateD (aGE 15) 1 (fun w d => bitAt w 0 && !d.gb (aGE 15) 0 && d.gateOk (d.glList 15 false (fld w 1 6 + 1)) &&
      ((d.glList 15 false (fld w 1 6 + 1)).map (fun e => e.1)).sum == (d.rg (aGE 15 + 0xC)).toNat && d.rg (aGE 15 + 0xC) != 0) = true ∧
    reached gateOnD (aGE 15) 0 (fun w d => !bitAt w 0 && !d.gateBound 15) = true ∧
    reached gateD (aGE 15) 0 (fun w d => !bitAt w 0 && !d.gb (aGE 15) 0) = true ∧
    reached gateD (aGE 15 + 0x14) 7 (fun _ _ => true) = true := by decide +kernel

/-- Lane 527 has been lost since cycle 0; its port is in the state given. -/
def laneD (n : Nat) : Dev := ((upAt (2 ^ 15 * 1000000)).inState 256 n).setLane 527 { Lane.init with lossSince := some 0 }

theorem wit_LanesAndPorts :
    (up.live = true ∧ (up.sf (aLN_GROUP_CFG 0) 0 2 3).portOfLane 0 = none ∧ (up.sf (aLN_GROUP_CFG 0) 0 2 3).gb (aLN_LANE_STAT 0) 0 = false) ∧
    (let d := up.sb (aLN_LANE_STAT 527) 0 true
     d.portOfLane 527 = some 256 ∧ d.gb (aLN_LANE_STAT 527) 0 = true) ∧
    ((laneD 6).portOfLane 527 = some 256 ∧ (laneD 6).lossHeld 527 = true ∧ (laneD 6).portState 256 = 6) ∧
    ((laneD 2).portState 256 = 2 ∧ (laneD 2).gb (aLN_LANE_STAT 527) 2 = false ∧ 1000000 ≤ (laneD 2).tm.cycle - ((laneD 2).lane 527).lockAt) ∧
    ((laneD 5).portState 256 = 5 ∧ orOne ((laneD 5).gf aLN_TRAIN_CFG 8 8) * 1000000 ≤ (laneD 5).tm.cycle - ((laneD 5).port 256).bringAt) ∧
    ((laneD 5).port 256).qualLeft = 0 ∧
    reached up (aLN_GROUP_CFG 63) 2 (fun _ _ => true) = true ∧
    reached (laneD 6) aLN_UNFENCE 0x8000020F (fun w d => bitAt w 31 && fld w 0 10 == 527 && decide (d.portOfLane 527 = some 256) &&
      d.portState 256 == 6 && !d.sorterLost 256) = true := by decide +kernel

theorem wit_FencingAndTraining :
    ((up.sb (aLN_LANE_STAT 527) 3 true).laneFenced 527 = true ∧ up.laneFenced 527 = false) ∧
    ((laneD 3).portExists 256 = true ∧ (laneD 3).portState 256 ≠ 0 ∧ (laneD 3).portState 256 ≠ 7 ∧
      8192 ≤ (laneD 3).tm.cycle - ((laneD 3).port 256).alignSent) ∧
    ((laneD 3).portState 256 = 3 ∧ blockIntact (ctlBlock 0xC3 0 0 15) = true ∧
      alignWidth ⟨512, ctlBlock 0xC3 0 0 15, 0, 0⟩ ≠ ((laneD 3).lanesOf 256).length) ∧
    (blockIntact (ctlBlock 0xC3 0 0 16) = true ∧ alignWidth ⟨512, ctlBlock 0xC3 0 0 16, 0, 129⟩ = ((laneD 3).lanesOf 256).length) ∧
    ((laneD 6).portState 256 = 6 ∧ ((laneD 6).port 256).periodRetries = 0) ∧
    (rowOf (trainBlocks [(0, 0), (0, 255)] [(1, 0), (1, 254)] [(0, 0), (0, 255)]) = some (ctlBlock 0x78 0 1 0) ∧ bfld (ctlBlock 0x78 0 1 0) 1 0 3 = 0 ∧
      (((laneD 6).retrain 256).pickSubset 256 1).isSome = true) ∧
    rowOf (trainBlocks [(2, 253)] [(0, 255)] [(0, 255)]) = some (ctlBlock 0x78 2 0 0) ∧ bfld (ctlBlock 0x78 2 0 0) 1 0 3 ≠ 0 ∧
    rowOf [ctlBlock 0x99 0 0 0] = some (ctlBlock 0x99 0 0 0) ∧ rdLE (ctlBlock 0x99 0 0 0) 0 1 ∉ [0x1E, 0xC3, 0x55, 0x66, 0x78] := by decide +kernel

/-- Port 256 in service with one flit not acknowledged, and one to be sent again. -/
def linkD : Dev := ((laneD 6).sf (aLN_PORT_STAT 256) 8 8 0xFF).withPort 256 (fun x => { x with replay := [⟨9, List.replicate 120 0, 0⟩], resend := 1, discard := true, rxNext := 4095 })

theorem wit_FlitsAndRetry :
    (linkD.live = true ∧ linkD.carries 256 = true ∧ (linkD.port 256).replayIndex 8 = none ∧ (linkD.port 256).replayIndex 9 = some 0) ∧
    ((linkD.port 256).discard = true ∧ (linkD.port 256).rxNext = 4095 % 4096 ∧
      orOne (linkD.gf aLN_RETRY_CFG 12 8) * 64 ≤ linkD.tm.cycle - (linkD.port 256).reqAt ∧ (linkD.port 256).replay ≠ [] ∧
      orOne (linkD.gf aLN_RETRY_CFG 0 8) * 64 ≤ linkD.tm.cycle - (linkD.port 256).ackFrom) ∧
    (rowOf [ctlBlock 0x55 9 0 0] = some (ctlBlock 0x55 9 0 0) ∧ rdLE (ctlBlock 0x55 9 0 0) 1 2 % 4096 = 9 ∧
      rowOf [ctlBlock 0x66 0xFF 0x0F 0] = some (ctlBlock 0x66 0xFF 0x0F 0) ∧ rdLE (ctlBlock 0x66 0xFF 0x0F 0) 1 2 % 4096 = 4095) ∧
    ((laneD 6).carries 256 = true ∧ ((laneD 6).port 256).discard = false ∧ flitGood ((laneD 6).flitOrder 256 ⟨[], false⟩) = false) ∧
    (let d := linkD.withPort 256 (fun x => { x with flits := 16368 })
     1023 * (d.lanesUsed 256).length = (d.port 256).flits ∧ (linkD.port 256).flits < 1023 * (linkD.lanesUsed 256).length) ∧
    (0 < (linkD.port 256).resend ∧ (linkD.port 256).resend ≤ (linkD.port 256).replay.length ∧
      (linkD.port 256).replay[(linkD.port 256).replay.length - (linkD.port 256).resend]? = some ⟨9, List.replicate 120 0, 0⟩) := by decide +kernel

/-- Sorter 63 runs on a packet to endpoint 77. -/
def sortD : Dev := (up.holding (bpkt (mkPkt 0 0 0x10 77 5 0 0 0 0 0 []) (some 252) .waiting)).setSorter 63 { SorterRun.init with ended := false, dropped := false, pc := 255, id := some 7 }

theorem wit_SorterRuns :
    (sortD.live = true ∧ (sortD.sorter 63).ended = false) ∧
    ((sortD.sorter 63).id.bind sortD.pkt?).isSome = true ∧
    (let f : SrFields := ⟨0, 0, 0, false, 1⟩
     f.i = false ∧ f.imm % 256 ≠ 0 ∧ (sortD.sorter 63).pc + f.imm % 256 ≤ 256) ∧
    256 < (sortD.sorter 63).pc + 2 % 256 := by decide +kernel

/-- A packet that port `p` has received whole. -/
def Dev.received (d : Dev) (p : Nat) (x : Pkt) : Dev := d.withPort p (fun y => { y with rxWhole := [⟨x, 0, false⟩] })

theorem wit_PacketArrives :
    (let d := up.received 255 (mkPkt 0 0 0x10 77 5 0 0 0 0 0 [])
     d.live = true ∧ (d.port 255).rxWhole.length = 1 ∧ d.follower = false ∧ d.kind 255 = 0) ∧
    (let d := ((up.sf (aLN_GROUP_CFG 63) 0 2 0).wr (aPORT_KIND 255) 0x60001).received 255 (mkPkt 0 0 0x10 77 5 0 0 0 0 0 [])
     d.follower = false ∧ d.kind 255 = 1 ∧ (mkPkt 0 0 0x10 77 5 0 0 0 0 0 []).src ≠ d.epId 255) ∧
    4096 < ((mkPkt 0 0 0x10 77 5 0 0 0 0 0 []).setH 128 13 4097).len ∧
    (up.wr aTW_CFG 2).follower = true ∧
    (let d := ((up.sf (aLN_GROUP_CFG 63) 0 2 0).wr (aPORT_KIND 255) 4).received 255 (mkPkt 0 0 0x10 77 5 0 0 0 0 0 [])
     d.kind 255 = 4 ∧ d.usedBy (8 * 255) + 1 ≤ d.reserve (8 * 255) ∧ (mkPkt 0 0 0x10 77 5 0 0 0 0 0 []).cellCount = 1) := by decide +kernel

/-- A packet as an endpoint would send it: TC, message class, FLOW and GROUP. -/
def pkt0 (tc m flow group : Nat) : Pkt := (mkPkt tc m 0x10 77 5 0 group 0 0 0 []).setH 64 18 flow

/-- Port 0 in service to endpoint 77 with credits, holding one packet in queue `q`. -/
def outD (p : Pkt) (q : Nat) : Dev :=
  ((((up.sf (aLN_GROUP_CFG 0) 0 2 0).wr (aPORT_KIND 0) 0x4D0001).inState 0 6).withPort 0 (fun x => { x with credit := [99, 99, 99, 99] })).holding
    { bpkt p (some 4) .queued with copies := [⟨0, q, 0⟩] }

/-- Sorter 0 has a program of two words: the policer's number, if any, and END. -/
def progD (w0 w1 : W32) (b : BPkt) : Dev := ((up.wr (aSP_ACTIVE 0) w0).wr (aSP_ACTIVE 0 + 4) w1).holding b

theorem wit_PacketsLeave :
    ((up.holding (bpkt (mkPkt 0 2 0xF1 0 0 0 0 0 0 0 []) (some 3) .inbox)).inboxPkt 3 0xF1).isSome = true ∧
    ((up.holding (bpkt (mkPkt 0 2 0xF0 0 0 0 0 0 0 0 []) (some 3) .inbox)).inboxPkt 3 0xF0).isSome = true ∧
    (let d := progD 1 0 (bpkt (pkt0 0 0 0 0) (some 3) .waiting)
     d.live = true ∧ ((d.firstWaiting 0).any fun b => (d.srRun 0 257 (.start b)).1.dropped && !(d.srRun 0 257 (.start b)).2) = true ∧
     d.fb.swap = none) ∧
    (let d := progD 0 0 (bpkt (pkt0 0 0 0 0) (some 3) .waiting)
     ((d.firstWaiting 0).any fun b =>
       let x := (d.srRun 0 257 (.start b)).1
       let pk := ((b.pkt.setH 8 3 x.tc).setH 64 18 x.flow).setH 14 1 (b.pkt.ordered || x.ord).toNat
       !(d.srRun 0 257 (.start b)).2 && !x.dropped && x.pol == 0xFFFF && pk.mclass == 0 && decide (pk.size ≤ d.gf (aSV_CLASS_LEN pk.tc) 0 13)) = true) ∧
    ((outD (pkt0 0 0 0 0) 0).canStart 0 = true ∧ ((outD (pkt0 0 0 0 0) 0).classZero 0).isSome = true) ∧
    ((outD (pkt0 1 0 0 0) 4).canStart 0 = true ∧ (outD (pkt0 1 0 0 0) 4).classZero 0 = none ∧
      ((outD (pkt0 1 0 0 0) 4).drr 0 4000 ((outD (pkt0 1 0 0 0) 4).port 0)).isSome = true) ∧
    (let b := bpkt (pkt0 0 0 9 0) (some 4) (.reseq 0)
     let d := (upAt (255 * 4096)).holding b
     d.heldOf 9 = [b] ∧ Int.ofNat (orOne (d.gf aRT_CFG 16 8) * 4096) ≤ d.since b.time) ∧
    (let b := { bpkt (pkt0 0 0 0 0) (some 4) .queued with fence := [3], copies := [⟨0, 0, 0⟩] }
     (up.holding b).fb.pkts = [b] ∧ b.fence ≠ [] ∧ b.copies.any (fun c => c.port == 0) = true ∧ 3 ≠ b.id ∧ (up.holding b).fb.unacked = []) ∧
    (let d := { up with fb := { up.fb with unitWait := [(66, pkt0 0 0 0 0, [256])] } }
     (takeFirst (fun (x : Nat × Pkt × List Nat) => x.1 == 66) d.fb.unitWait).isSome = true ∧ d.unitRoom 66 (pkt0 0 0 0 0).cellCount = true) ∧
    (let d := (up.holding (bpkt (pkt0 0 0 9 0) (some 4) .miss)).setFlow 9 { FlowCtx.init with valid := true }
     d.stackShut 7 = false ∧ (d.flowCtx 9).valid = true ∧ d.fb.swap = none ∧ (d.fb.pkts.filter (fun b => b.place == .miss && b.pkt.flow == 9)).map (fun b => b.id) ≠ []) ∧
    (let b := bpkt (pkt0 0 1 0 300) (some 4) .early
     (up.holding b).fb.pkts = [b] ∧ b.place = .early ∧ b.src = some 4 ∧ (up.holding b).grp? b.pkt.group = none) ∧
    (let b := { bpkt (pkt0 0 0 0 0) (some 4) .queued with copies := [⟨0, 0, 0⟩] }
     (up.holding b).fb.pkts = [b] ∧ b.copies.any (fun c => c.port == 0 && c.q == 0) = true ∧ b.cells.any (fun c => c.1 == 0) = true) := by
  decide +kernel

/-- A TABLE_SWAP whose DRAIN falls at `t0` and whose SWAP at `t1`. -/
def swapDesc (t0 t1 flags : Nat) : Bytes :=
  desc 1 0x60 [(16, 8, t0), (24, 1, 1), (32, 8, t1), (40, 1, 1), (48, 1, flags)]

/-- A device whose plant time is set. -/
def timedD : Dev := up.sf aPT_STAT 0 3 1

/-- Its oldest descriptor, and the device without it, are as `c` says. -/
def takes (d : Dev) (op : Nat) (c : Fetched → Dev → Bool) : Bool := (d.takeFetched 0 (fun f => f.ref.op == op)).any (fun x => c x.1 x.2)

theorem wit_TablesAndShadows :
    takes (timedD.withDesc 0 (desc 1 0x60 [])) 0x60 (fun f _ => bfld (sl f.bytes 16 16) 8 0 2 != 1) = true ∧
    takes (timedD.withDesc 0 (swapDesc (2 ^ 30) (2 ^ 30) 1)) 0x60 (fun f _ => bfld (sl f.bytes 16 16) 8 0 2 == 1 && bfld (sl f.bytes 32 16) 8 0 2 == 1 &&
      bfld (sl f.bytes 16 16) 8 8 56 == 0 && bfld (sl f.bytes 32 16) 8 8 56 == 0) = true ∧
    (let ok := fun (f : Fetched) (d : Dev) => d.judgeTime f.time (2 ^ 30) == none && d.judgeTime f.time (2 ^ 30 + 1) == none
     takes ((timedD.sb aRT_STAT 17 true).withDesc 0 (swapDesc (2 ^ 30) (2 ^ 30 + 1) 1)) 0x60 (fun f d => ok f d && d.gb aRT_STAT 17) = true ∧
     takes (timedD.withDesc 0 (swapDesc (2 ^ 30) (2 ^ 30 + 1) 1)) 0x60 (fun f d => ok f d && d.fb.swap.isNone && !d.gb aRT_STAT 17 &&
       bfld f.bytes 48 0 2 == 1 && d.cmpFree 2 2) = true) ∧
    reached (up.sb aRT_STAT 17 true) (aDT_SHADOW 32767 + 12) 1 (fun _ d => d.shadowClosed) = true ∧
    reached up (aDT_SHADOW 32767 + 12) 1 (fun _ d => !d.shadowClosed) = true ∧
    reached (up.sb aRT_STAT 17 true) (aSP_SHADOW 63 + 4 * 511) 1 (fun _ d => d.shadowClosed) = true ∧
    reached up (aSP_SHADOW 63 + 4 * 511) 1 (fun _ d => !d.shadowClosed) = true ∧
    (let d := up.sb aRT_STAT 17 true
     d.live = true ∧ d.gb aRT_STAT 17 = true ∧ d.ahead d.fb.retireAt ≤ 0) := by decide +kernel

/-- A FLOW_CTX of the last two contexts. -/
def flowDesc (op : Nat) : Bytes := desc 1 0x62 [(16, 4, 262142), (20, 4, 2), (24, 8, 0), (32, 1, op)]

/-- Six contexts of one set are pinned, as many as it takes (R146). -/
def pinnedD : Dev :=
  { up with fb := { up.fb with flows := (List.range 6).map (fun i => (262142 - 2048 * (6 - i), { FlowCtx.init with valid := true, pin := true })) } }

theorem wit_FlowContexts :
    (((up.windowed.withDesc 0 (flowDesc 1)).takeFlowCtx 0 1).any fun x => (x.2.flowJudge x.1).isNone) = true ∧
    (((up.windowed.withDesc 0 (flowDesc 2)).takeFlowCtx 0 2).any fun x => (x.2.flowJudge x.1).isNone) = true ∧
    (((up.windowed.withDesc 0 (flowDesc 0)).takeFlowCtx 0 0).any fun x => (x.2.flowJudge x.1).isNone &&
      (x.2.flowWrite 262142 2 (padTo 128 [])).isSome) = true ∧
    (((pinnedD.windowed.withDesc 0 (flowDesc 0)).takeFlowCtx 0 0).any fun x => (x.2.flowJudge x.1).isNone &&
      (x.2.flowWrite 262142 2 (padTo 128 (toLE 1 3))).isNone) = true := by decide +kernel

theorem wit_ServiceAndReservations :
    reached (up.wr (aPOL 16383) 1) (aPOL 16383 + 0xC) 0 (fun _ d => decide ((d.rg (aPOL 16383 + 4)).toNat < (d.rg (aPOL 16383)).toNat)) = true ∧
    reached up (aPOL 16383 + 0xC) 0xFFFFFE (fun w d => decide ((d.rg (aPOL 16383)).toNat ≤ (d.rg (aPOL 16383 + 4)).toNat) &&
      d.gf (aPOL 16383 + 8) 0 24 != 0xFFFFFF && fld w 0 24 != 0xFFFFFF && fld w 27 5 == 0) = true ∧
    up.perst = true ∧
    reached up (aQT_PORT_QF 255) 0x110010 (fun w _ => decide (fld w 0 16 < 17)) = true ∧
    reached (up.inState 255 6) (aQT_PORT_QF 255) 0x110011 (fun _ d => d.portState 255 != 0) = true ∧
    reached up (aQT_PORT_QF 255) 0x110011 (fun w d => decide (17 ≤ fld w 0 16) && decide (17 ≤ fld w 16 16) && d.portState 255 == 0) = true ∧
    reached up (aQT_PORT_PC 255) 0x000011 (fun w d => decide (17 ≤ fld w 0 16) && d.portState 255 == 0) = true ∧
    reached up (aQT_PORT_RSQ 255) 0xFFFE (fun w d => fld w 0 16 != 0xFFFF && d.portState 255 == 0) = true ∧
    reached up (aQT_UNIT 66) 0x10001 (fun w _ => decide (fld w 0 16 ≤ fld w 16 16) && fld w 16 16 != 0xFFFF) = true ∧
    reached up (aSV_QUANT 255 27) 0xFFFF (fun _ _ => true) = true ∧ reached up (aSV_CLASS_LEN 7) 4136 (fun _ _ => true) = true ∧
    reached up (aSV_GATE_BIND 255) 0x1F (fun _ _ => true) = true := by decide +kernel

theorem wit_EndpointsFenced : reached up (aFD_MAP 1023) 0xFFFFFFFF (fun _ _ => true) = true := by decide +kernel

/-! ## States that meet the hypotheses: Smelters and collectives -/

/-- A sequencer as it is before its first section, with each of its two marks either way. -/
def recipeD (fresh final : Bool) : Dev :=
  { up with sm := { up.sm with runs := [(63, { RcRun.init with fresh := fresh, final := final, pc := 1 })] } }

theorem wit_RecipeOperations :
    ([(true, true), (true, false), (false, true), (false, false)].all fun x =>
      (recipeD x.1 x.2).live && ((recipeD x.1 x.2).smPhys 63).isSome && (mget RcRun.init 63 (recipeD x.1 x.2).sm.runs).fresh == x.1 &&
        (mget RcRun.init 63 (recipeD x.1 x.2).sm.runs).final == x.2) = true := by decide +kernel

theorem wit_Int64Combine :
    (let a : BitVec 64 := BitVec.ofNat 64 (2 ^ 63 - 1)
     a.toInt + 0 < 2 ^ 63 ∧ -2 ^ 63 ≤ a.toInt + 0 ∧ 2 ^ 63 ≤ a.toInt + 1 ∧ (BitVec.ofNat 64 (2 ^ 63)).toInt + -1 < -2 ^ 63) := by decide +kernel

/-- The image of group 1: endpoint 77, local at port 0, is its one member; this device is its home; ring 0; the longest time limit. -/
def image1 : Bytes := toLE 2 1 ++ toLE 1 0 ++ toLE 1 0x1F ++ toLE 2 1 ++ toLE 8 0 ++ toLE 2 0xFFFF ++ toLE 48 0 ++ toLE 4 (77 + 2 ^ 15)

/-- A device that may be a member's: endpoint 77 at port 0. -/
def homeD : Dev := (up.windowed.sf (aLN_GROUP_CFG 0) 0 2 0).wr (aPORT_KIND 0) 0x4D0001

/-- It holds the record of group 1. -/
def groupD : Dev := homeD.groupWrite 1 0 image1

/-- A collective descriptor of group 1, rank 0, by its opcode, OPSEQ, COUNT and formats; one that reduces asks for 8 slots and scales by 1. -/
def clDesc (op q n fmts : Nat) : Bytes := desc 2 op ([(32, 2, 1), (36, 4, q), (40, 4, n), (48, 4, fmts)] ++
  if op = 0x20 then [(52, 2, 8), (64, 4, 0x3F800000), (72, 4, 0xFF800000), (76, 4, 0x7F800000)] else [])

/-- An operation of group 1 with OPSEQ 1, from a BARRIER. -/
def op1 : ClOp := ClOp.of ⟨⟨0, 0, 0x27, false, 0, 1⟩, clDesc 0x27 1 0 0, 0⟩

/-- The group's device with an operation listed. -/
def opD (o : ClOp) : Dev := { groupD with cl := { groupD.cl with ops := [o] } }

/-- A control packet of the operation, at rest for this device. -/
def ctlD (d : Dev) (m op : Nat) : Dev := d.holding (bpkt (mkPkt 0 m op 0 5 0 1 0 0 1 []) (some 3) .inbox)

theorem wit_SmelterRegistersAndPackets :
    reached up (aRCP 15 + 4 * 31) 1 (fun _ _ => true) = true ∧ reached up (aRCP 63 + 4 * 31) 1 (fun _ d => d.cl.ops.isEmpty) = true ∧
    reached (opD { op1 with ctxHeld := 1 }) (aRCP 16) 1 (fun _ d => !d.cl.ops.isEmpty) = true ∧
    reached up aSM_CFG 1 (fun _ d => !d.gb aREP_COMPAT 0 && !d.ctxInUse) = true ∧
    reached (up.sb aREP_COMPAT 0 true) aSM_CFG 1 (fun _ d => d.gb aREP_COMPAT 0) = true ∧
    reached (opD { op1 with ctxHeld := 1 }) aSM_CFG 1 (fun _ d => d.ctxInUse) = true ∧
    (let d := opD { op1 with joins := [(some 0, ⟨0, 0, 0x27, false, 0, 1⟩)] }
     d.perst = true ∧ d.stopped = false ∧ (d.headRequest false).isNone = true ∧ (d.headRequest true).isSome = true) ∧
    (let d := ctlD (opD { op1 with launched := true }) 3 0xE0
     d.live = true ∧ (d.grp? 1).isSome = true ∧ (d.inboxPkt 3 0xE0).isSome = true ∧ ((d.op? 1 1).any fun o => o.launched) = true) ∧
    (let d := ctlD (opD op1) 3 0xE0
     (d.inboxPkt 3 0xE0).isSome = true ∧ ((d.op? 1 1).any fun o => !o.launched) = true) ∧
    ((ctlD (opD { op1 with launched := true }) 3 0xE1).inboxPkt 3 0xE1).isSome = true ∧
    (let d := ctlD (opD op1) 2 0xE2
     (d.inboxPkt 3 0xE2).isSome = true ∧ ((d.dropPkt 7).grp? 1).isSome = true ∧ ((d.dropPkt 7).op? 1 1).isSome = true) := by decide +kernel

theorem wit_TalliesAndFaults :
    (let d := opD { op1 with joins := [(some 0, ⟨0, 0, 0x27, false, 0, 1⟩)] }
     d.live = true ∧ ((d.headRequest true).any fun o => d.grantable true o) = true) ∧
    (let d := { opD op1 with tm := { up.tm with acc := BitVec.ofNat 96 (2 ^ 60) } }
     ((d.op? 1 1).any fun o => !o.granted && decide (Int.ofNat (orOne (d.gf aSM_TALLY_CFG 16 16) * 4096) ≤ d.since o.key)) = true) ∧
    up.smFenced 67 = false ∧ (32767 ∉ up.sm.retired ∧ up.gf 0x6000C 0 16 ≠ 0 ∧ up.gf 0x60010 0 16 ≠ 0) ∧
    ((opD { op1 with held := 8 }).op? 1 1).any (fun o => o.held != 0) = true ∧
    (let d := { up with sm := { up.sm with retired := [32767] } }
     32767 ∈ d.sm.retired) := by decide +kernel

/-- A collective descriptor is posted, and `c` is true of what it takes. -/
def takesCl (d : Dev) (bytes : Bytes) (c : Fetched → Dev → Bool) : Bool := takes (d.withDesc 0 bytes) (rdLE bytes 0 1) c

/-- The judgement passes. -/
def passes (f : Fetched) (d : Dev) : Bool := match d.clJudge f (ClOp.of f) with
  | .inl _ => false
  | .inr _ => true

theorem wit_CollectivesPosted :
    takesCl homeD (clDesc 0x27 1 0 0) (fun f d => !passes f d && (d.tallyFails f (ClOp.of f)).isNone) = true ∧
    takesCl groupD (putAt (clDesc 0x20 1 4 (1 * 32 + 1 * 1024)) 52 (toLE 2 0xFFFF)) (fun f d => !passes f d && (d.tallyFails f (ClOp.of f)).isSome &&
      (d.op? 1 1).isNone) = true ∧
    ([clDesc 0x27 1 0 0, clDesc 0x20 1 4 (1 * 32 + 1 * 1024), clDesc 0x25 1 4 0].all fun b => takesCl groupD b (fun f d => passes f d &&
      (d.op? 1 1).isNone && d.clComparators (ClOp.of f) && ((d.grp? 1).any fun x => !staleSeq x 1))) = true ∧
    takesCl { homeD.groupWrite 1 1 image1 with cl := { up.cl with gone := [(1, 1)] } } (clDesc 0x27 1 0 0) (fun f d => passes f d && (d.op? 1 1).isNone &&
      d.clComparators (ClOp.of f) && ((d.grp? 1).any fun x => staleSeq x 1) && d.cl.gone.contains (1, 1)) = true ∧
    takesCl (opD op1) (clDesc 0x27 1 0 0) (fun f d => passes f d && (d.op? 1 1).isSome) = true ∧
    takesCl ((timedD.windowed.sf (aLN_GROUP_CFG 0) 0 2 0).wr (aPORT_KIND 0) 0x4D0001 |>.wr aPT_CMP_RES 0x10101010 |>.groupWrite 1 0 image1 |> fun d =>
        { d with tm := { d.tm with cmps := List.replicate 16 (cmp0 .drain) } })
      (putAt (putAt (clDesc 0x27 1 0 0) 16 (toLE 8 (2 ^ 30))) 24 (toLE 1 1))
      (fun f d => passes f d && (d.op? 1 1).isNone && !d.clComparators (ClOp.of f)) = true := by decide +kernel

theorem wit_JoinRule :
    (let f : Fetched := ⟨⟨0, 2, 0x27, false, 0, 1⟩, clDesc 0x27 1 0 0, 0⟩
     sameBody op1.body f.bytes = true ∧ op1.joins.any (fun j => j.1 == clRank f) = false ∧ op1.launched = false ∧
     ([(clRank f, f.ref)] : List (Option Nat × DescRef)).any (fun j => j.1 == clRank f) = true ∧ sameBody op1.body (clDesc 0x25 1 4 0) = false) := by
  decide +kernel

theorem wit_CollectiveTraffic :
    (let d := { opD { op1 with body := clDesc 0x20 1 4 (1 * 32 + 1 * 1024), launched := true, waits := true, joins := [(some 0, ⟨0, 0, 0x20, false, 0, 1⟩)] } with tm := { up.tm with acc := BitVec.ofNat 96 (2 ^ 60 * 16) } }
     d.live = true ∧ ((d.op? 1 1).any fun o => (d.grp? 1).any fun x => o.waits && d.opLacks x o && decide (Int.ofNat x.tmoTicks ≤ d.since o.timer) && !o.upSent) = true) ∧
    ([0xE3, 0xE5, 0xE4].all fun op =>
      let d := ctlD (opD { op1 with launched := true }) (if op = 0xE3 then 1 else 3) op
      let e := ctlD (opD op1) (if op = 0xE3 then 1 else 3) op
      ((d.inboxPkt 3 op).any fun b => !b.replayed) && ((d.op? 1 1).any fun o => o.launched) &&
      (e.inboxPkt 3 op).isSome && ((e.op? 1 1).any fun o => !o.launched)) = true ∧
    (let d := ctlD (homeD.groupWrite 1 1 image1) 3 0xE4
     (d.inboxPkt 3 0xE4).isSome = true ∧ d.op? 1 1 = none ∧ ((d.grp? 1).any fun x => staleSeq x 1) = true) ∧
    (let d := ctlD homeD 1 0xE3
     (d.inboxPkt 3 0xE3).isSome = true ∧ d.grp? 1 = none) := by decide +kernel

/-- GROUP_SET or its DELETE form. -/
def setDesc (g del : Nat) : Bytes := desc 1 0x61 [(16, 2, g), (18, 1, del)]

/-- What it takes. -/
def takesSet (d : Dev) (g : Nat) (del : Bool) (c : Fetched → Dev → Bool) : Bool :=
  ((d.withDesc 0 (setDesc g del.toNat)).takeFetched 0 (fun f => f.ref.op == 0x61 && (bfld f.bytes 18 0 1 == 1) == del)).any (fun x => c x.1 x.2)

theorem wit_GroupSet :
    takesSet homeD 0 true (fun f _ => rdLE f.bytes 16 2 == 0) = true ∧ takesSet homeD 0 false (fun f _ => rdLE f.bytes 16 2 == 0) = true ∧
    takesSet (groupD.sf (aGR 0 + 28) 0 16 1) 1 true (fun _ d => (d.grp? 1).any fun x => x.active != 0) = true ∧
    takesSet groupD 1 true (fun _ d => (d.grp? 1).any fun x => x.active == 0) = true ∧
    takesSet homeD 65535 true (fun _ d => (d.grp? 65535).isNone) = true ∧
    takesSet homeD 1 false (fun f d => d.inWindow 0 (rdLE f.bytes 24 8) 68 && rdLE image1 0 2 == 1 && imgNmemb image1 == 1 && imgNnbr image1 == 0 &&
      padTo 68 image1 == image1 && d.imageOk image1 && (d.grp? 1).isNone && d.groupRoom none image1) = true := by decide +kernel

/-! ## States that meet the hypotheses: Assay, training sets, stacked memory -/

/-- A program image of the words given, without data (R328). -/
def asmImage (ws : List Nat) : Bytes :=
  let n := ws.length
  let im := padTo (cdiv (32 + 4 * n) 8 * 8) (toLE 4 0x59415341 ++ toLE 4 1 ++ toLE 4 n ++ toLE 20 0 ++ ws.flatMap (toLE 4))
  putAt im 16 (toLE 4 (crc32 im))

/-- Four NOPs and END. -/
def nops : Bytes := asmImage [2, 2, 2, 2, 1]

/-- An ASSAY_RUN of slot 63 on the bench given, from word 0; `free` is FLAGS bit 0, and HALT is set with the trap where `halt` is. -/
def runDesc (bench : Nat) (free halt : Bool) : Bytes :=
  desc 2 0x40 [(32, 2, 63), (34, 2, free.toNat), (36, 2, bench), (38, 2, 1), (48, 1, if halt then 0x0C else 0)]

/-- A launch of it. -/
def launch0 (bench : Nat) (free halt running : Bool) : Launch :=
  ⟨0, ⟨0, 0, 0x40, false, 0, 1⟩, runDesc bench free halt, 0, true, running, 0, if running then [bench] else [], [], [], 0, 0, .init⟩

/-- A bench in lane-lockstep or free-running, at word 0, whose lanes 0 and 31 hold `x1` in register 1. -/
def bench0 (free : Bool) (x1 : W32) : Bench :=
  { Bench.init with busy := true, free := free, x := mput 0 1 x1 (mput 0 (64 * 31 + 1) x1 []) }

/-- A device whose bench 127 runs a program that begins with the instruction given. -/
def benchFor (i : Instr) (free : Bool) (x1 : W32) (f : Bench → Bench) : Dev :=
  let d := up.setProg 63 (asmImage (i.asWord.getD 2 :: (i.asWord2.toList ++ [2, 2, 2, 2, 1])))
  let d := { d with as_ := { d.as_ with launches := [launch0 127 free false true] } }
  d.putBench 127 (f (bench0 free x1))

/-- The same with NOPs. -/
def benchD (free : Bool) (x1 : W32) (f : Bench → Bench) : Dev := benchFor (.asNop ⟨127, 31⟩) free x1 f

/-- Its launch has another descriptor. -/
def Dev.withRun (d : Dev) (body : Bytes) : Dev := { d with as_ := { d.as_ with launches := d.as_.launches.map (fun l => { l with body := body }) } }

/-- An ASSAY_RUN whose window 0 is the page below the flow store. -/
def lastPage : Bytes := putAt (runDesc 127 false false) 80 (toLE 8 (0x3FFEFFF + 2 ^ 26 + 2 ^ 52))

/-- What thread 31 of bench 127 sees. -/
def sees31 (d : Dev) (p : AsCtx → Bool) : Bool := (d.asCtx? [] ⟨127, 31⟩).any p

/-- A core that may execute goes on with a result (the premises of `GoesOn`). -/
def coreGoes (i : Instr) (d : Dev) (lane0 : Bool) (r : AsCtx → AsRes) : Bool := sees31 d fun c =>
  c.runs i && (r c).stop == .go && !((d.asNote c 127 lane0 (r c)).2.fired && c.num.halt) &&
    ((r c).b.done || asNextOk ((d.asNote c 127 lane0 (r c)).1.prog (runSlot c.l.body)) (r c))

/-- The core meant. -/
def core31 : Core := ⟨127, 31⟩

theorem wit_AssayControl :
    (let goes := fun i r => coreGoes i (benchFor i false 4 id) false r
     goes (.asNop core31) (fun c => c.goOn 1 c.b) ∧ goes (.asJmp core31 4) (fun c => c.jumpTo c.b (sext 24 4)) ∧
     goes (.asJr core31 1) (fun c => { b := c.b, next := Int.ofNat (c.own 1), jump := true }) ∧
     goes (.asBr core31 ⟨4, 0, 1, 4⟩) (fun c => if c.cond ⟨4, 0, 1, 4⟩ then c.jumpTo c.b (sext 12 4) else c.goOn 1 c.b) ∧
     goes (.asEnd core31) (fun c => { b := { c.b with done := true }, next := c.pc }) ∧
     goes (.asCall core31 4) (fun c => c.jumpTo ((List.range 32).foldl (fun b i => b.setReg i 63 (c.pc + 1) false) c.b) (sext 24 4)) ∧
     goes (.asFork core31) (fun c => c.goOn 1 { c.b with free := true, ended := [], bar := [], joining := [] }) ∧
     goes (.asBar core31) (fun c => c.goOn 1 c.b) ∧ goes (.asGsync core31) (fun c => c.goOn 1 { c.b with gsync := true }) ∧
     coreGoes (.asJoin core31) (benchFor (.asJoin core31) false 4 id).freeNext false (fun c => c.goOn 1 c.b) ∧
     sees31 (benchD false 4 id) (fun c => !c.b.free) = true) ∧
    (let goes := fun i r => coreGoes i (benchFor i true 4 (fun b => { b with ended := List.range 30 })) false r
     sees31 (benchD true 4 (fun b => { b with ended := List.range 30 })) (fun c => c.b.free && decide (c.b.ended.length < 31)) = true ∧
     goes (.asEnd core31) (fun c => { b := ({ c.b with ended := c.thread :: c.b.ended, done := false } : Bench).barCheck, next := c.pc }) ∧
     goes (.asCall core31 4) (fun c => c.jumpTo (c.b.setReg c.thread 63 (c.pc + 1) false) (sext 24 4)) ∧
     goes (.asFork core31) (fun c => c.goOn 1 c.b) ∧
     goes (.asBar core31) (fun c => c.goOn 1 ({ c.b with bar := c.thread :: c.b.bar } : Bench).barCheck)) ∧
    (let d := (benchFor (.asJoin core31) true 4 (fun b => { b with joining := List.range 30 })).freeNext
     sees31 d (fun c => c.b.free && c.b.ended.isEmpty && decide (c.b.joining.length < 31)) = true ∧
     coreGoes (.asJoin core31) d false (fun c => c.goOn 1 { c.b with joining := c.thread :: c.b.joining })) := by decide +kernel

/-- Format R with registers 2, 1, 1 under mask m0. -/
def fmt0 (t : Nat) : FmtR := ⟨2, 1, 1, 0, t⟩

/-- Format I, K and M at the ends of their fields. -/
def fmtI0 : FmtI := ⟨2, 1, 0xFFF⟩
def fmtK0 : FmtK := ⟨7, 6, 5, 63⟩
def fmtM0 : FmtM := ⟨2, 1, 7, 0, 0⟩

/-- Each of these instructions runs where the program has its words, for a core in lane-lockstep, and in free-running where `free`. -/
def asRun (free : Bool) (is : List Instr) : Bool :=
  is.all fun i => sees31 (benchFor i false 4 id) (fun c => c.runs i && !c.b.free) && (!free || sees31 (benchFor i true 4 id) (fun c => c.runs i && c.b.free))

theorem wit_AssayInteger :
    asRun true [.asMov core31 (fmt0 0), .asIadd core31 (fmt0 0), .asIsub core31 (fmt0 0), .asImul core31 (fmt0 0), .asImin core31 (fmt0 0),
      .asImax core31 (fmt0 0), .asAnd core31 (fmt0 0), .asOr core31 (fmt0 0), .asXor core31 (fmt0 0), .asShl core31 (fmt0 0), .asShr core31 (fmt0 0),
      .asSra core31 (fmt0 0), .asAddi core31 fmtI0, .asLi core31 fmtI0 0xFFFFFFFF, .asSel core31 (fmt0 0), .asRng core31 (fmt0 0)] = true ∧
    asRun false [.asShfl core31 (fmt0 0), .asTail core31 fmtK0, .asMovrm core31 fmtK0, .asMovmr core31 fmtK0, .asMand core31 fmtK0,
      .asMor core31 fmtK0, .asMxor core31 fmtK0, .asMandn core31 fmtK0, .asMnot core31 fmtK0] = true ∧
    coreGoes (.asMov core31 (fmt0 0)) (benchFor (.asMov core31 (fmt0 0)) false 4 id) false
      (fun c => c.perLane 1 0 fun l => { ws := [(2, c.b.reg l 1, c.b.der l 1)] }) = true ∧
    coreGoes (.asLi core31 ⟨2, 0, 0⟩ 7) (benchFor (.asLi core31 ⟨2, 0, 0⟩ 7) true 4 id) false (fun c => c.perLane 2 0 fun _ => { ws := [(2, 7, false)] }) = true ∧
    coreGoes (.asMovrm core31 ⟨1, 0, 0, 1⟩) (benchFor (.asMovrm core31 ⟨1, 0, 0, 1⟩) false 4 id) false (fun c => c.goOn 1 (c.b.setMask 1 (c.b.reg 0 1))) = true := by
  decide +kernel

theorem wit_AssayFloat :
    (let f := fmt0 0
     asRun true [.asFadd core31 f, .asFsub core31 f, .asFmul core31 f, .asFma core31 f, .asFnma core31 f, .asFmin core31 f, .asFmax core31 f,
      .asFabs core31 f, .asFneg core31 f, .asDot2 core31 f, .asDot4 core31 f, .asDot4 core31 (fmt0 5), .asDiv core31 f, .asRcp core31 f, .asSqrt core31 f,
      .asRsqrt core31 f, .asExp core31 f, .asExp2 core31 f, .asLog core31 f, .asLog2 core31 f, .asTanh core31 f, .asSigmoid core31 f, .asSin core31 f,
      .asCos core31 f, .asCvt core31 f 34] = true ∧
     asRun false [.asCvt core31 f 8, .asCmp core31 f, .asRed core31 f, .asReds core31 f] = true) ∧
    (let goes := fun i free l r => coreGoes i (benchFor i free 0x3F800000 id) l r
     goes (.asFadd core31 (fmt0 0)) false false (fun c => c.perLane 1 0 (c.elemLane (fmt0 0) ⟨true, false⟩ (fun ff st a b _ => fAdd ff st a b))) ∧
     goes (.asDot2 core31 (fmt0 1)) true false (fun c => c.perLane 1 0 (c.dotLane (fmt0 1) 2)) ∧
     goes (.asDot4 core31 (fmt0 5)) true false (fun c => c.perLane 1 0 (c.dotInt (fmt0 5))) ∧
     coreGoes (.asDiv core31 (fmt0 0)) (benchFor (.asDiv core31 (fmt0 0)) true 0 id) false (fun c => c.perLane 1 0 (c.funcLane (fmt0 0) 0x30)) ∧
     goes (.asCvt core31 (fmt0 0) 34) true false (fun c => c.cvt (fmt0 0) 34) ∧ isMx (fld (BitVec.ofNat 32 34) 0 5) = false ∧
     goes (.asCmp core31 (fmt0 0)) false false (fun c => c.cmp (fmt0 0)) ∧
     goes (.asRed core31 (fmt0 0)) false true (fun c => c.red (fmt0 0) 0) ∧
     goes (.asReds core31 (fmt0 0)) false true (fun c => c.red (fmt0 0) (c.b.mreg 1))) := by decide +kernel

theorem wit_AssayMemory :
    asRun true [.asLd8 core31 fmtM0, .asLd16 core31 fmtM0, .asLd32 core31 fmtM0, .asLd64 core31 fmtM0, .asSt8 core31 fmtM0, .asSt16 core31 fmtM0,
      .asSt32 core31 fmtM0, .asSt64 core31 fmtM0, .asAtomAdd core31 fmtM0, .asAtomMin core31 fmtM0, .asAtomMax core31 fmtM0, .asAtomAnd core31 fmtM0,
      .asAtomOr core31 fmtM0, .asAtomXor core31 fmtM0] = true ∧
    (let goes := fun i d l r => coreGoes i d l r
     goes (.asLd64 core31 fmtM0) (benchFor (.asLd64 core31 fmtM0) false 64 id).freeNext false (fun c => c.load fmtM0 8) ∧
     goes (.asSt64 core31 fmtM0) (benchFor (.asSt64 core31 fmtM0) false 64 id) false (fun c => c.goOn 1 ((c.lanes 0).foldl (c.storeOne fmtM0 8) c.b)) ∧
     sees31 (benchD false 64 id) (fun c => (c.firstBad fmtM0 8 true (c.lanes 0)).isNone) = true ∧
     goes (.asAtomAdd core31 fmtM0) (benchFor (.asAtomAdd core31 fmtM0) true 64 id) false (fun c => c.atom fmtM0 (fun a b => a + b)) ∧
     goes (.asSoftmax core31 (fmt0 0) (1 * 64 + 1 * 2048)) (benchFor (.asSoftmax core31 (fmt0 0) (1 * 64 + 1 * 2048)) false 0 id) true
       (fun c => c.softmax (fmt0 0) (1 * 64 + 1 * 2048))) := by decide +kernel

theorem wit_AssayStops :
    sees31 (benchFor (.asGsync core31) true 0 id) (fun c => c.runs (.asGsync core31) && c.b.free) = true ∧
    sees31 (benchFor (.asSt32 core31 ⟨2, 1, 0, 0, 0⟩) false 0 id) (fun c => c.runs (.asSt32 core31 ⟨2, 1, 0, 0, 0⟩) &&
      decide (c.firstBad ⟨2, 1, 0, 0, 0⟩ 4 true (c.lanes 0) = some (0, 1))) = true ∧
    sees31 (benchFor (.asSt32 core31 fmtM0) false 2 id) (fun c => c.runs (.asSt32 core31 fmtM0) &&
      decide (c.firstBad fmtM0 4 true (c.lanes 0) = some (0, 2))) = true ∧
    (let d := benchFor (.asJmp core31 9) false 0 id
     sees31 d fun c => c.runs (.asJmp core31 9) && !c.b.done && !((d.asNote c 127 false (c.jumpTo c.b (sext 24 9))).2.fired && c.num.halt) &&
       !asNextOk ((d.asNote c 127 false (c.jumpTo c.b (sext 24 9))).1.prog (runSlot c.l.body)) (c.jumpTo c.b (sext 24 9))) = true ∧
    (let d := ((benchFor (.asLd32 core31 ⟨2, 1, 0, 0, 0⟩) true 0 id).withRun lastPage).freeNext
     sees31 { d with me := { d.me with loss := [64 * 0x3FFEFFF] } } fun c => c.runs (.asLd32 core31 ⟨2, 1, 0, 0, 0⟩) && (c.load ⟨2, 1, 0, 0, 0⟩ 4).stop == .lost) = true ∧
    (let d := (benchFor (.asFadd core31 (fmt0 0)) false 0x7FC00000 id).withRun (runDesc 127 false true)
     sees31 d fun c => c.runs (.asFadd core31 (fmt0 0)) && c.num.halt &&
       (d.asNote c 127 false (c.elem (fmt0 0) ⟨true, false⟩ (fun ff st a b _ => fAdd ff st a b))).2.fired) = true ∧
    sees31 (benchFor (.asJmp core31 1) false 0 id) (fun c => !c.runs (.asNop core31)) = true := by decide +kernel

/-- An ASSAY_LOAD into slot 63, or its UNLOAD form. -/
def loadDesc (un len : Nat) : Bytes := desc 1 0x41 [(16, 2, 63), (18, 2, un), (20, 4, len)]

/-- What it takes. -/
def takesLoad (d : Dev) (un len : Nat) (c : Fetched → Dev → Bool) : Bool :=
  ((d.withDesc 0 (loadDesc un len)).takeFetched 0 (fun f => f.ref.op == 0x41 && (bfld f.bytes 18 0 1 == 1) == (un == 1))).any (fun x => c x.1 x.2)

theorem wit_AssayProgramsAndRegisters :
    takesLoad up.windowed 0 nops.length (fun f d => d.inWindow 0 (rdLE f.bytes 24 8) nops.length && !d.slotUsed 63 && asImageOk nops nops.length &&
      decide (nops.length ≤ 65536)) = true ∧
    takesLoad (benchD false 0 id).windowed 0 65536 (fun f d => d.inWindow 0 (rdLE f.bytes 24 8) 65536 && d.slotUsed 63) = true ∧
    takesLoad up.windowed 0 1 (fun _ d => !d.slotUsed 63 && !asImageOk (padTo 1 []) 1) = true ∧
    takesLoad up 1 0 (fun _ d => !d.slotUsed 63) = true ∧
    reached (benchD false 0 id) aAS_PROFILE 0 (fun _ d => !d.as_.launches.isEmpty) = true ∧
    reached up aAS_PROFILE 0 (fun w d => d.as_.launches.isEmpty && !d.updateBusy && !d.ctxInUse && !w.getLsbD 0) = true ∧
    reached { up with cl := { up.cl with ops := [{ op1 with body := clDesc 0x28 1 0 0, launched := true }] } } aAS_RESV 0 (fun _ d => d.updateBusy) = true ∧
    reached up aAS_RESV 0x20200101 (fun w d => (List.range 4).all fun k => decide (0 < fld w (8 * k) 6 ∧ fld w (8 * k) 6 ≤ d.perDeck)) = true ∧
    reached up aREP_COMPAT 97 (fun w _ => fld w 8 8 == 0) = true ∧ reached up aREP_COMPAT 0x6100 (fun w _ => decide (96 < fld w 8 8)) = true ∧
    reached up aREP_COMPAT 0x6000 (fun w d => d.as_.launches.isEmpty && !d.ctxInUse && decide (fld w 8 8 = 96)) = true := by decide +kernel

/-- A device that holds the program and the launch, not yet running. -/
def launchD : Dev := { up.setProg 63 nops with as_ := { (up.setProg 63 nops).as_ with launches := [launch0 5 false false false] } }

/-- One whose benches have all finished. -/
def doneD : Dev := benchD false 0 (fun b => { b with done := true })

/-- The same with a HALL window over the page below the flow store, whose first line is lost. -/
def hallD : Dev :=
  let d := doneD.withRun (putAt (runDesc 127 false false) 80 (toLE 8 (0x3FFEFFF + 2 ^ 26 + 5 * 2 ^ 52)))
  { d with me := { d.me with loss := [64 * 0x3FFEFFF] } }

theorem wit_AssayLaunches :
    takes (up.withDesc 0 (runDesc 5 false false)) 0x40 (fun f d => match d.runJudge f with
      | .inl st => st == stBAD_OPCODE
      | .inr _ => false) = true ∧
    takes ((up.setProg 63 nops).withDesc 0 (runDesc 5 false false)) 0x40 (fun f d => match d.runJudge f with
      | .inl _ => false
      | .inr _ => true) = true ∧
    (launchD.launch? 0).any (fun l => !l.running && l.ready && !launchD.runLost l.body && launchD.startable l (launchD.runBenches l.body) &&
      (codeStarts (launchD.prog (runSlot l.body))).contains (rdLE l.body 40 4)) = true ∧
    ([doneD, hallD].all fun d => (d.launch? 0).any (fun l => l.running && (d.benchesOf l).all (fun b => b.done))) = true ∧
    ((doneD.endPhase [] 0).launch? 0).any (fun l => match (doneD.endPhase [] 0).launchHall [] l with
      | .inr hall => hall == 0
      | .inl _ => false) = true ∧
    ((hallD.endPhase [] 0).launch? 0).any (fun l => match (hallD.endPhase [] 0).launchHall [] l with
      | .inl st => st == stDATA_LOST
      | .inr _ => false) = true ∧
    (let d := { benchD false 0 id with tm := { up.tm with acc := BitVec.ofNat 96 (2 ^ 80) } }
     (d.launch? 0).any (fun l => l.running && decide (Int.ofNat (orOne (d.gf aAS_CFG 0 16) * 2 ^ 20) < d.since l.start)) = true) ∧
    up.benchFenced 135 = false := by decide +kernel

/-- A set of group 1: two parameters on deck 0, one plain block. -/
def setImage : Bytes :=
  toLE 2 4095 ++ toLE 2 1 ++ toLE 4 2 ++ toLE 4 1 ++ toLE 4 1 ++ toLE 4 0x3F666666 ++ toLE 4 0x3F666666 ++ toLE 4 0x3089705F ++ toLE 4 0x3F000000 ++
  toLE 4 0x3089705F ++ toLE 28 0 ++ toLE 4 0 ++ toLE 4 2 ++ toLE 8 0x1F ++ toLE 4 0 ++ toLE 4 2 ++ toLE 4 0 ++ toLE 4 0

/-- A device with the group and room for the set. -/
def roomD : Dev := groupD.sf (aUP_POOL 0) 0 16 1

/-- The set is defined. -/
def setD : Dev := roomD.shardEnter 4095 setImage

/-- A SHARD_DEFINE of set 4095 with FLAGS. -/
def shardDesc (flags : Nat) : Bytes := desc 1 0x30 [(16, 2, 4095), (18, 2, flags), (20, 4, setImage.length)]

theorem wit_ShardDescriptors :
    takes (roomD.withDesc 0 (shardDesc 0)) 0x30 (fun f d => d.inWindow 0 (rdLE f.bytes 24 8) (rdLE f.bytes 20 4) && !d.shBusy 4095 &&
      padTo 96 setImage == setImage && rdLE setImage 0 2 == 4095 && rdLE setImage 8 2 == 1 && rdLE setImage 12 4 == 1 &&
      rdLE f.bytes 20 4 == 64 + 16 * 2 && d.shardImageOk setImage && d.shardRoom 4095 (shardOfImage setImage)) = true ∧
    takes (setD.withDesc 0 (shardDesc 1)) 0x30 (fun _ d => !d.shBusy 4095 && (d.shard? 4095).isSome) = true ∧
    takes (setD.withDesc 0 (shardDesc 2)) 0x30 (fun f _ => rdLE f.bytes 18 2 == 2) = true ∧
    takes (setD.withDesc 0 (desc 1 0x31 [(16, 2, 1)])) 0x31 (fun _ d => (d.shard? 1).isNone) = true ∧
    takes (setD.withDesc 0 (desc 1 0x33 [(16, 2, 4095), (18, 1, 1)])) 0x33 (fun f d => (d.shard? 4095).isSome && decide (rdLE f.bytes 18 1 < 2) &&
      d.shState 4095 != 3) = true := by decide +kernel

/-- A SHARD_IO of set 4095, plane W, both parameters. -/
def ioDesc (op plane : Nat) : Bytes := desc 1 0x32 [(16, 2, 4095), (18, 1, op), (19, 1, plane), (24, 4, 2)]

/-- What it takes, and how it is judged. -/
def takesIo (d : Dev) (op plane : Nat) (ok : Bool) : Bool :=
  ((d.withDesc 0 (ioDesc op plane)).takeShardIo 0 (fun o => o == op)).any (fun x => (x.2.shardIoJudge 0 x.1.bytes).isNone == ok)

theorem wit_ShardTransfers :
    ([0, 1, 2].all fun op => takesIo setD op 0 true && takesIo roomD op 0 false) = true ∧ takesIo setD 0 8 false = true ∧
    (let o := { op1 with body := clDesc 0x28 1 0 0, handoff := [(0, [0])], pieces := [(0, ⟨[], [], [], [0], 0, 0⟩)] }
     let d := opD o
     d.live = true ∧ (d.op? 1 1).isSome = true ∧ (d.grp? 1).isSome = true ∧ mget? 0 o.handoff = some [0] ∧
     (((d.putOp { (o.completePiece 0) with handoff := merase 0 o.handoff }).updPiece 1 1 0 0 [0]).op? 1 1).isSome = true) ∧
    reached up (aUP_POOL 3) 0xFFFF (fun w d => decide (d.poolLimit 3 < fld w 0 16 * 256)) = true ∧
    reached setD (aUP_POOL 0) 0 (fun w d => d.sh.sets.any (fun e => e.2.any (fun x => decide (fld w 0 16 * 256 < x.needAt 0)))) = true ∧
    reached up (aUP_POOL 3) 1 (fun w d => d.cl.ops.isEmpty && d.sh.sets.isEmpty && decide (fld w 0 16 * 256 ≤ d.poolLimit 3)) = true := by decide +kernel

/-- A refresh series runs on stack 7 and is due. -/
def refD : Dev := (dueD (.refresh 7)).wr (aMEM_REF 7) (1 + 2 * 8192)

theorem wit_MemoryErrorsAndRefresh :
    up.live = true ∧ (([0, 7].all fun st => up.holdsLine st (64 * 0x3FFEFFF) && !up.stackShut st) && up.holdsLine 7 (flowStore / 64)) = true ∧
    (let d := { up with me := { up.me with scrubbed := [3], scrubFrom := some 0 } }
     3 ∈ d.scrubTurn.me.scrubbed ∧ 4 ∉ d.scrubTurn.me.scrubbed) ∧
    ((refD.tm.cmps.find? (fun c => c.act == .refresh 7)).any fun c => decide (refD.fires c.id = some c) && c.act == .refresh 7) = true ∧
    (let d := upAt 1536
     let d := { d with me := { d.me with open_ := [(7, some 0)] } }
     d.stackShut 7 = true ∧ mget none 7 d.me.open_ = some 0 ∧ 1536 ≤ d.since 0) ∧
    ((upAt 3800).gb (aMEM_REF 7) 0 = false ∧ (upAt 3800).stackShut 7 = false ∧ mget 0 7 (upAt 3800).me.autoAt + 3800 ≤ (upAt 3800).tm.cycle) ∧
    ((refD.gb (aMEM_REF 7) 0 && !mget false 7 refD.me.series) = true) := by decide +kernel

theorem wit_RefreshAndPartition :
    reached refD (aMEM_REF 7) (3 + 2 * 8192) (fun w d => d.gb (aMEM_REF 7) 0 && refPeriod w != refPeriod (d.rg (aMEM_REF 7))) = true ∧
    reached up (aMEM_REF 7) (1 + 2 * 8192) (fun w d => bitAt w 0 && d.gf aPT_STAT 0 3 == 0) = true ∧
    reached timedD (aMEM_REF 7) (1 + 2 * 8191) (fun w _ => decide (refPeriod w < 8192)) = true ∧
    reached timedD (aMEM_REF 7) (1 + 2 * 16385) (fun w _ => decide (16384 < refPeriod w)) = true ∧
    reached timedD (aMEM_REF 7) (1 + 2 * 8192 + 65536 * 8192) (fun w _ => decide (refPeriod w ≤ refPhase w)) = true ∧
    reached (timedD.wr aPT_CMP_RES 0x08000000) (aMEM_REF 7) (1 + 2 * 16384 + 65536 * 16383) (fun w d => !d.gb (aMEM_REF 7) 0 && bitAt w 0 &&
      d.gf aPT_STAT 0 3 != 0 && decide (8192 ≤ refPeriod w) && decide (refPeriod w ≤ 16384) && decide (refPhase w < refPeriod w) && d.maintRoom) = true ∧
    reached refD (aMEM_REF 7) (2 * 8192) (fun w d => d.gb (aMEM_REF 7) 0 && !bitAt w 0 && refPeriod w == refPeriod (d.rg (aMEM_REF 7)) &&
      refPhase w == refPhase (d.rg (aMEM_REF 7))) = true ∧
    reached up aMEM_WS 0 (fun w d => d.partOk aMEM_WS w) = true ∧ reached up (aMEM_PART 0) 16 (fun w d => d.partOk (aMEM_PART 0) w) = true ∧
    reached up aMEM_WS 0xFF (fun w d => !d.partOk aMEM_WS w) = true ∧ reached up (aMEM_PART 3) 65 (fun w d => !d.partOk (aMEM_PART 3) w) = true := by
  decide +kernel

/-- A copy of 64 bytes from the host to the lowest byte of the weight-store range. -/
def copyDesc (to_ : Nat) : Bytes := desc 1 0x50 [(16, 1, to_), (24, 8, up.wsLo), (40, 8, 64)]

/-- WS_MODEL of model 4095: 4,096 bytes from the lowest page on. -/
def modelDesc (flags len : Nat) : Bytes := desc 1 0x51 [(16, 2, 4095), (18, 2, flags), (24, 8, len)]

/-- Group 1 may be sent model 4095. -/
def modelD : Dev := (groupD.wr (aWS_MODEL 4095) 1).wr64 (aWS_MODEL 4095 + 8) 4096

/-- A WS_SEND of its first 4,096 bytes. -/
def sendDesc (group : Nat) : Bytes := desc 1 0x52 [(32, 2, group), (34, 2, 4095), (48, 8, 4096)]

/-- A send of it. -/
def send0 (running lost : Bool) (todo : List (Option Nat × Nat × Nat)) : WsSend :=
  ⟨0, ⟨0, 0, 0x52, false, 0, 1⟩, sendDesc 1, 0, true, running, [], todo, [], 0, 0, none, lost⟩

/-- A device with that send. -/
def sendD (w : WsSend) : Dev := { modelD with me := { modelD.me with sends := [w] } }

theorem wit_CopiesAndSends :
    takes (up.withDesc 0 (desc 1 0x50 [])) 0x50 (fun f d => (d.memCopyJudge f).isSome) = true ∧
    takes (up.windowed.withDesc 0 (copyDesc 0)) 0x50 (fun f d => (d.memCopyJudge f).isNone) = true ∧
    (let d := { up with me := { up.me with copies := [⟨0, ⟨0, 0, 0x50, false, 0, 1⟩, copyDesc 0⟩] } }
     d.live = true ∧ (takeFirst (fun x : MemXfer => x.id == 0) d.me.copies).isSome = true ∧ bfld (copyDesc 0) 16 0 1 = 0) ∧
    (((up.withDesc 0 (modelDesc 2 0)).takeModel 0 false).any fun x => (x.2.wsModelJudge x.1.bytes).isSome) = true ∧
    (((up.withDesc 0 (modelDesc 0 4096)).takeModel 0 false).any fun x => (x.2.wsModelJudge x.1.bytes).isNone) = true ∧
    (((modelD.withDesc 0 (modelDesc 1 0)).takeModel 0 true).any fun x => x.2.wsModelJudge x.1.bytes == some stOK && x.2.modelState 4095 != 0) = true ∧
    (let d := { up with me := { up.me with defs := [(4095, ⟨0, 0, 0x51, false, 0, 1⟩, modelDesc 0 4096)] } }
     (takeFirst (fun x : Nat × DescRef × Bytes => x.1 == 4095) d.me.defs).isSome = true ∧ d.lostIn (d.defRange (modelDesc 0 4096)).1 4096 = false) ∧
    takes (modelD.withDesc 0 (sendDesc 0)) 0x52 (fun f d => match d.wsSendJudge f [] with
      | .inl _ => true
      | .inr _ => false) = true ∧
    takes (modelD.withDesc 0 (sendDesc 1)) 0x52 (fun f d => match d.wsSendJudge f [] with
      | .inl _ => false
      | .inr _ => true) = true ∧
    ((sendD (send0 false false [])).live = true ∧ (send0 false false []).ready = true ∧
      ((sendD (send0 false false [])).me.sends.filter (fun x => x.running)).length < 64) ∧
    ((sendD (send0 true false [(none, 0, 4096)])).grp? (rdLE (sendDesc 1) 32 2)).isSome = true ∧
    (sendD (send0 true false [(none, 0, 4096)])).lostIn (up.wsLo) 4096 = false ∧
    (sendD (send0 true false [(none, 0, 4096)])).wsBacklog < (sendD (send0 true false [(none, 0, 4096)])).wsRate ∧
    (sendD (send0 true false [])).sendAt (send0 true false []) = false ∧ (send0 true true []).lost = true := by decide +kernel

/-! ## States that meet the hypotheses: host interface, twins, Deputy, boot, control -/

/-- The device polls: a doorbell base is set. -/
def pollD : Dev := (up.wr aDB_BASE_LO 0x1000).sb aHI_CFG 0 true

/-- Ring 8191 runs with `n` slots posted. -/
def ringD (n : Nat) : Dev :=
  let d := pollD.wr (aRING 8191 + 4) 1
  { d with hi := { d.hi with tails := [(8191, some n)], heads := [(8191, some 0)] } }

theorem wit_Polling :
    ((ringD 0).ringState 8191 = 1 ∧ (ringD 0).sqSize 8191 ≤ fld 16 0 16 ∧ fld 15 0 16 < (ringD 0).sqSize 8191) ∧
    (pollD.polling = true ∧ pollD.pollDue = true ∧ pollD.hi.keptTop = 0 ∧ pollD.hi.keptSecond = [] ∧ pollD.hi.tails = []) ∧
    reached pollD aHI_CFG 0 (fun u _ => !bitAt u 0) = true ∧
    reached up aHI_CFG 1 (fun u d => bitAt u 0 && d.rg aDB_BASE_LO == 0 && d.rg aDB_BASE_HI == 0) = true ∧
    reached ((Dev.init.setStage 4).wr aDB_BASE_HI 1) aHI_CFG 1 (fun u d => bitAt u 0 && d.stage != 5 && d.stage != 6) = true ∧
    reached (up.wr aDB_BASE_HI 1) aHI_CFG 1 (fun u d => bitAt u 0 && d.rg aDB_BASE_HI != 0 && d.stage == 5 && !d.gb aHI_STAT 1 && !d.gb aHI_CFG 0) = true := by
  decide +kernel

/-- A NOP with SEQ `q`. -/
def nopDesc (q : Nat) : Bytes := desc 1 1 [(4, 4, q)]

theorem wit_Fetching :
    takes (up.withDesc 0 (nopDesc 0)) 1 (fun _ _ => true) = true ∧
    ((ringD 1).live = true ∧ (ringD 1).stage = 5 ∧ opSlots 1 ≤ (ringD 1).posted 8191 ∧ (ringD 1).roomCq 8191 = true ∧ (ringD 1).servedNow 8191 1 = true ∧ (ringD 1).gf (aRING 8191) 8 4 ≤ 12 ∧
      rdLE (nopDesc 7) 4 4 ≠ ((ringD 1).rg (aRING 8191 + 0x30)).toNat ∧
      (ringD 1).holdOf 8191 (nopDesc 0) = 0 ∧ (ringD 1).holdOf 8191 (nopDesc 7) = 0 ∧
      ((ringD 1).wr (aRING 8191 + 0x34) 1).holdOf 8191 (desc 1 1 [(1, 1, 1)]) ≠ 0 ∧
      rdLE (nopDesc 0) 4 4 = ((ringD 1).rg (aRING 8191 + 0x30)).toNat ∧ opKnown 1 = true ∧ bfld (nopDesc 0) 1 2 6 = 0 ∧
      (ringD 1).gf aTW_CFG 0 2 = 0 ∧ (ringD 1).gf (aRING 8191 + 0x34) 0 17 < 2 ^ 17 - 1) := by decide +kernel

theorem wit_RingControl :
    reached (ringD 0) (aRING 8191) 0x102 (fun w d => d.ringRefuses 8191 w) = true ∧
    reached up (aRING 8191) 1 (fun w d => d.ringRefuses 8191 w) = true ∧
    ([0, 1].all fun v => reached pollD (aRING 8191) v (fun w d => d.ringState 8191 == 0 && !d.ringRefuses 8191 w &&
      (Dev.plainWrite (aRING 8191) w d).ringState 8191 == 0)) = true ∧
    reached (ringD 0) (aRING 8191) 0 (fun w d => d.ringState 8191 == 1 && !d.ringRefuses 8191 w && !bitAt w 0) = true ∧
    ([0, 8].all fun v => reached (pollD.wr (aRING 8191 + 4) 2) (aRING 8191) v (fun w d => d.ringState 8191 == 2 && !d.ringRefuses 8191 w)) = true := by
  decide +kernel

theorem wit_ResetsAndVectors :
    ((ringD 0).live = true ∧ (ringD 0).ringState 8191 = 1 ∧ mget false 2047 up.hi.pend = false) ∧
    mget false 2047 { up.hi with pend := [(2047, true)] }.pend = true ∧
    (let d := (upAt (65535 * 1024)).wr (aMX_MOD 2047) 0xFFFF00
     let d := { d with hi := { d.hi with vecs := [(2047, ⟨1, some 0⟩)] } }
     (mget Vec.init 2047 d.hi.vecs).started = some 0 ∧ 0 < d.gf (aMX_MOD 2047) 8 16 ∧ Int.ofNat (d.gf (aMX_MOD 2047) 8 16 * 1024) ≤ d.since 0) := by
  decide +kernel

/-- A packet from the partner, in a format, is at rest for this device, whose ROLE and pair state are given. -/
def twinF (fmt : Nat) (d : Dev) (role state op arg0 arg1 : Nat) (body : Bytes) : Dev :=
  ((d.sf aTW_CFG 0 2 role).sf aTW_STAT 0 3 state).holding (bpkt (mkPkt 0 1 op 0 0 fmt 1 0 arg0 arg1 body) (some 256) .inbox)

/-- One of no format. -/
def twinD (d : Dev) (role state op arg0 arg1 : Nat) (body : Bytes) : Dev := twinF 0 d role state op arg0 arg1 body

/-- What it takes. -/
def takesTw (d : Dev) (op : Nat) (c : Pkt → Dev → Bool) : Bool := (d.takeTw op).any (fun x => c x.1 x.2)

/-- A pair descriptor with an absolute strike. -/
def twDesc (op : Nat) : Bytes := desc 1 op [(16, 8, 2 ^ 30), (24, 1, 1)]

/-- A member of a pair, as `f` makes its twin unit, that has fetched a pair descriptor. -/
def pairD (role state op : Nat) (f : TwinSt → TwinSt) : Dev :=
  let d := ((timedD.sf aTW_CFG 0 2 role).sf aTW_STAT 0 3 state).withDesc 0 (twDesc op)
  { d with tw := f d.tw }

theorem wit_TwinBatches :
    reached ((up.sf aTW_CFG 0 2 1).sf aTW_STAT 0 3 5) aTW_CFG 2 (fun w d => fld w 0 2 == 2 && d.twRole == 1 && d.twState == 5) = true ∧
    takesTw (twinD up 1 1 0xE7 0 0 []) 0xE7 (fun _ d => d.twRole != 0 && d.twState == 1) = true ∧
    takesTw (twinD up 2 4 0xE8 0 0 (Change.reg 0 0).bytes) 0xE8 (fun p d => d.follower && d.twJoined && p.arg0 == 0 &&
      decide (Change.ofBytes (d.tw.partIn ++ p.body) ≠ .start)) = true ∧
    takesTw (twinD up 2 2 0xE9 3 0 (toLE 8 0)) 0xE9 (fun p d => d.follower && d.twJoined && d.cmpFree 1 1 && p.arg0 / 2 ^ 32 == d.tw.staged.length &&
      p.arg1 == crcChain d.tw.staged) = true ∧
    (let d := twinD up 1 4 0xEA 3 0 []
     takesTw { d with tw := { d.tw with batch := some batch3 } } 0xEA (fun p d => d.lead && p.arg0 % 2 ^ 32 == 3 && decide (d.tw.batch = some batch3)) = true) ∧
    (let d := twinD up 2 4 0xEB 3 0 []
     takesTw { d with tw := { d.tw with prep := some ⟨3, 0, false, none⟩ } } 0xEB (fun p d => d.follower && p.arg0 % 2 ^ 32 == 3 && d.tw.prep.isSome) = true) ∧
    (let d := { up with tw := { up.tw with batch := some batch3 } }
     d.tw.batch = some batch3 ∧ batch3.go = none ∧ d.ahead (d.goBy batch3) ≤ 0) ∧
    takes (pairD 2 4 0x70 id) 0x70 (fun f d => bfld f.bytes 24 0 2 == 1 && !d.lead) = true ∧
    takes (pairD 1 4 0x70 id) 0x70 (fun _ d => d.lead && d.twState == 4 && d.tw.batch.isNone && d.tw.staged.isEmpty) = true ∧
    (let some' := fun (f : Fetched) (d : Dev) => match d.twStrike f with
       | .inl _ => false
       | .inr _ => true
     takes (pairD 1 4 0x70 (fun t => { t with staged := [.start] })) 0x70 (fun f d => !d.tw.staged.isEmpty && some' f d) = true ∧
     takes (pairD 1 2 0x71 id) 0x71 (fun f d => d.lead && d.twState == 2 && d.tw.batch.isNone && !d.twBusy && some' f d) = true ∧
     takes (pairD 2 5 0x72 id) 0x72 (fun f d => d.follower && d.twState == 5 && !d.gb aTW_STAT 7 && !d.gb aTW_STAT 8 && d.tw.promote.isNone && some' f d) = true) := by
  decide +kernel

/-- A paired follower that holds the set READY at step 0. -/
def recompD : Dev := ((setD.setShState 4095 2).sf aPT_STAT 0 3 1)

/-- The bytes of an update's descriptor from byte 32 on: step 1 of set 4095, COMMIT at 2^30. -/
def opBody : Bytes := (putAt (putAt (putAt (putAt (clDesc 0x28 1 2 (1 * 32 + 1 * 1024)) 96 (toLE 8 (2 ^ 30))) 104 (toLE 1 1)) 112 (toLE 4 4095)) 116
  (toLE 4 1)).drop 32

/-- The operation is compared with the twin. -/
def comparedD (d : Dev) (f : TwinOp → TwinOp) : Dev :=
  { d with cl := { d.cl with ops := [{ op1 with twin := f { TwinOp.init with compare := true, waitFrom := some 0 } }] } }

theorem wit_TwinRecomputes :
    takesTw (twinD up 2 4 0xEC 0 1 opBody) 0xEC (fun p d => d.follower && d.twState == 4 && (d.op? p.group p.arg1).isNone && (d.grp? p.group).isNone) = true ∧
    takesTw (twinD recompD 2 4 0xEC 0 1 opBody) 0xEC (fun p d => (d.grp? p.group).any fun x =>
      let o1 := { d.sizeOp x { ClOp.of (d.twFetched p) with group := p.group, opseq := p.arg1 } d.now with
        granted := true, launched := true, need := 0, ctx := 0 }
      d.twCan o1 && (d.twCommit o1).isSome) = true ∧
    (([0, 14].all fun fmt => takesTw (twinF fmt (opD { op1 with body := clDesc 0x28 1 2 (1 * 32 + 1) }) 2 4 0xED 0 1 (toLE 16 0)) 0xED (fun p d =>
      (d.op? p.group p.arg1).any fun o => d.follower && (d.grp? p.group).any fun x => (p.format == accOf o.inFmt) == (fmt == 14) &&
        decide (p.arg0 % 2 ^ 32 < o.pieces_ x.nmemb) && o.updated.isEmpty && o.benched.isEmpty)) = true) ∧
    ([0, 2].all fun a => takesTw (twinD (comparedD up id) 1 4 0xEE a 1 (toLE 16 0)) 0xEE (fun p d => d.lead && (d.op? p.group p.arg1).any fun o =>
      o.twin.compare && !o.twin.settled && o.twin.answer.isNone && p.arg0.testBit 1 == (a == 2))) = true ∧
    (let d := comparedD ((upAt (65535 * 4096)).sf aTW_CFG 0 2 1) id
     d.lead = true ∧ ((d.op? 1 1).any fun o => o.twin.waitFrom == some 0 && !o.twin.settled && o.twin.answer.isNone) = true ∧
     Int.ofNat (orOne (d.gf aTW_CFG 16 16) * 4096) ≤ d.since 0) ∧
    ([0, 4, 8, 12, 1].all fun a => takesTw (twinD (comparedD up id) 2 4 0xEF a 1 []) 0xEF (fun p d => d.follower && (d.op? p.group p.arg1).isSome &&
      p.arg0 == a && p.body.isEmpty)) = true := by decide +kernel

theorem wit_DeputyAndUnits :
    reached up 0xA0020 0x80000200 (fun w _ => bitAt w 31 && fld w 8 2 != 3) = true ∧
    (up.tm.cycle < up.bt.railAt + 1000 ∧ up.bt.railAt + 1000 ≤ (upAt 1000).tm.cycle) ∧
    (∀ i, i < 9 → ([700, 700, 700, 700, 850, 900, 1200, 1100, 1800] : List Nat)[i]?.any (fun m => (upAt 1000).railOk i m) = true) ∧
    up.sorterFenced 67 = false ∧
    (let d := { up with bt := { up.bt with domains := [92] }, as_ := { up.as_ with bmap := [(0, some 135)] } }
     d.bt.domains.contains 92 = true ∧ (92 - 16) % 20 < 17 ∧ (d.benchLogical (34 * 3 + 2 * 16 + 1)).isSome = true ∧
     (d.report 18 0 92 0).benchFenced (34 * 3 + 2 * 16) = false) ∧
    up.bt.pwrGood = true := by decide +kernel

/-- Window 0 of the Surveyor is open for every deck, and a deck's voltage is on its way. -/
def maintD : Dev :=
  let d := ((upAt 4096).wr (aSU_WIN 0) 0x11E).wr (aSU_VDD 3) 0x1817
  { d with dp := { d.dp with windows := [(0, some 0)] } }

theorem wit_HeatAndVoltage :
    (up.live = true ∧ 4096 ≤ (upAt 4096).since (upAt 4096).dp.loadAt) ∧
    (let d := (upAt (2 ^ 24)).setDeck 3 { DeckSurvey.init with band := some 1 }
     2 ^ 24 ≤ d.since (d.deck 3).measAt ∧ (d.deck 3).band = some 1 ∧ (d.deck 3).spoilt = false ∧
       ((d.setDeck 3 { DeckSurvey.init with spoilt := true }).deck 3).spoilt = true) ∧
    (((dueD (.maint 1)).tm.cmps.find? (fun c => c.act == .maint 1)).any fun c => decide ((dueD (.maint 1)).fires c.id = some c)) = true ∧
    (mget none 0 maintD.dp.windows = some 0 ∧ Int.ofNat (orOne (maintD.gf (aSU_WIN 0) 8 8) * 4096) ≤ maintD.since 0) ∧
    (maintD.inMaint 3 = true ∧ maintD.gf (aSU_VDD 3) 0 8 ≠ maintD.gf (aSU_VDD 3) 8 8 ∧ 4096 ≤ maintD.since (maintD.deck 3).vddAt) := by decide +kernel

/-- In stage `n` with every power domain up. -/
def stageD (n : Nat) : Dev := let d := Dev.init.setStage n; { d with bt := { d.bt with domains := List.range 96 } }

/-- Whether an image verifies is uninterpreted (log 19): a bank whose image does may be run. -/
theorem wit_ResetPowerAndBoot :
    ((up.perst = true ∧ { up with perst := false }.perst = false) ∧ { up.bt with pwrGood := false, domains := [] }.domains = []) ∧
    (let d := { upAt 20000 with bt := { up.bt with domains := [6, 14] } }
     d.live = true ∧ d.bt.pwrGood = true ∧ d.nextDomain = some 7 ∧ d.bt.domainAt + 20000 ≤ d.tm.cycle) ∧
    (∀ im, Dev.init.fwImageOk im = true → ∀ d, d = { Dev.init with bt := { Dev.init.bt with bank := [(im, true), ([], false)] } } →
      d.stage = 0 ∧ d.bankOk d.bt.active = true ∧ { d with bt := { d.bt with active := 1 } }.bankOk 1 = false) ∧
    ((stageD 0).bankOk 0 = false ∧ (stageD 0).bankOk (1 - 0) = false ∧ (stageD 0).bt.active = 0) ∧
    ((stageD 1).stage = 1 ∧ (stageD 1).bt.idOff = false ∧ (((stageD 1).setStage 2).topSlot.any fun x => decide (x.2.res < 2 ^ 40)) = true) ∧
    ((stageD 2).stage = 2 ∧ boardOk [] = false) ∧
    ((stageD 3).stage = 3 ∧ (∀ k ∈ romDomains ++ (stageD 3).unitDomains, k ∈ (stageD 3).bt.domains) ∧ (stageD 3).dp.keptB = [] ∧
      (∀ p, p < 68 → (stageD 3).smFenced p = false ∧ (stageD 3).sorterFenced p = false)) ∧ (stageD 4).stage = 4 := by
  refine ⟨by decide +kernel, by decide +kernel, ?_, by decide +kernel, by decide +kernel, by decide +kernel, by decide +kernel, by decide +kernel⟩
  rintro im h d rfl
  have h1 : ({ Dev.init with bt := { Dev.init.bt with bank := [(im, true), ([], false)] } } : Dev).fwImageOk im = true := h
  exact ⟨(by decide +kernel : Dev.init.stage = 0), h1, (by decide +kernel : (([] : List (Bytes × Bool)).getD 0 ([], false)).2 = false)⟩

/-- FW_UPDATE, or its RAISE form. -/
def fwDesc (raise len : Nat) : Bytes := desc 1 0x80 [(24, 4, len), (28, 1, 2 * raise)]

/-- What it takes. -/
def takesFw (d : Dev) (raise len : Nat) (c : Fetched → Dev → Bool) : Bool :=
  ((d.withDesc 0 (fwDesc raise len)).takeFetched 0 (fun f => f.ref.op == 0x80 && bfld f.bytes 28 1 1 == raise)).any (fun x => c x.1 x.2)

/-- An ATTEST waits. -/
def attestD : Dev := { up with bt := { up.bt with attests := [(⟨0, 0, 0x81, false, 0, 1⟩, desc 1 0x81 [(56, 4, 14454)])] } }

theorem wit_FirmwareAndAttest :
    takesFw up 0 0 (fun f d => (d.fwJudge f).isSome) = true ∧ takesFw up.windowed 0 1048576 (fun f d => (d.fwJudge f).isNone) = true ∧
    takesFw up 1 0 (fun f d => d.fwJudge f == some stOK) = true ∧ takesFw up 1 1 (fun f d => d.fwJudge f == some stBAD_OPCODE) = true ∧
    { up.bt with update := some (⟨0, 0, 0x80, false, 0, 1⟩, false, []) }.update.isSome = true ∧
    takes (up.withDesc 0 (desc 1 0x81 [])) 0x81 (fun f d => (d.attestJudge f).isSome) = true ∧
    takes (up.windowed.withDesc 0 (desc 1 0x81 [(56, 4, 14454)])) 0x81 (fun f d => (d.attestJudge f).isNone) = true ∧
    (attestD.live = true ∧ attestD.signDue = true ∧ attestD.bt.attests.length = 1 ∧ attestD.gb aBT_STAT 6 = false ∧ attestD.btRes ≤ attestD.btIdx ∧
      (attestD.topSlot.any fun t => (attestD.reserveIdx attestD.btIdx t.2.gen 4 []).2) = true ∧
      (attestD.wr64 0x1001C 256).btIdx < (attestD.wr64 0x1001C 256).btRes ∧ { attestD with bt := { attestD.bt with slots := [] } }.topSlot = none) := by
  decide +kernel

theorem wit_ControlAndJtag :
    reached up 0xC 0x3FFF (fun _ _ => true) = true ∧ (up.live = true ∧ barSizeOk 0 2 = false ∧ barSizeOk 2 4 = false) := by decide +kernel

theorem wit_CountersCleared :
    ([0x800028, 0x200014, 0x60040, 0xC00014, 0x70048, 0xC0014, 0x100028, 0x40002C, 0x90054, 0xA0024, 0x40034, 0x50004].all fun a =>
      reached up a 1 (fun w _ => w.getLsbD 0) && reached up a 0xFFFFFFFE (fun w _ => !w.getLsbD 0)) = true ∧
    reached up aLN_CNT_CLR 0x80000100 (fun w _ => w.getLsbD 31 && decide (fld w 0 9 ≤ 256)) = true := by decide +kernel

theorem wit_StepTakesFront : State.reset.pending = [] ∧ State.reset.dev.live = true ∧ { up with perst := false }.live = false := by decide +kernel

theorem wit_EveryCommandCompletes : movesBytes .jtagBypass = false := by decide +kernel

/-- A memory with one byte listed has the form. -/
theorem wit_MemoryStaysCanonical : Memory.wf State.reset.mem ∧ Memory.wf ([(2 ^ 38 - 1, 7)] : List Host.Cell) := by decide +kernel

/-- A device that has stopped. -/
def stoppedD : Dev := up.sb aDP_STAT 8 true

theorem wit_StoppedDevice : stoppedD.live = false ∧ stoppedD.stopped = true ∧ { up with perst := false }.live = false := by decide +kernel

theorem wit_RegisterWrites :
    (Dev.init.live = true ∧ Dev.init.follower = false ∧ Dev.init.early 0x10000 = true ∧ Dev.init.early 0xFFFC = false) ∧
    (up.early 0x10000000 = false ∧ regRow 0x10000000 = none) ∧
    (let d := up.sb aCTL_LOCK 0 true
     d.early aPT_CTRL = false ∧ ((regRow aPT_CTRL).any fun r => d.lockedAt aPT_CTRL && r.rwl != 0 && r.rw == 0 && r.w1c == 0 &&
       (0 ^^^ d.rg aPT_CTRL) &&& r.rwl == 0 && (1 ^^^ d.rg aPT_CTRL) &&& r.rwl != 0) = true) ∧
    reached up 0x400008 0x1000 (fun _ _ => (regRow 0x400008).isSome) = true ∧ reached up 0xC00020 0 (fun _ _ => (regRow 0xC00020).isSome) = true := by
  decide +kernel

/-- A write at an address reaches its register whole. -/
def Dev.opens (d : Dev) (a : Nat) : Bool :=
  d.live && !d.early a && !(d.follower && mirroredReg a) && !d.lockedAt a && (regRow a).isSome

theorem opens_open {d : Dev} {a : Nat} (h : d.opens a = true) : d.Open a := by
  simp only [Dev.opens, Bool.and_eq_true, Bool.not_eq_true'] at h
  exact ⟨h.1.1.1.1, h.1.1.1.2, h.1.1.2, h.1.2, h.2⟩

theorem wit_RegisterWritesComplete :
    (up.tm.cmps = [] ∧ up.gf aPT_CTRL 0 3 ∉ [1, 2, 3] ∧ up.gf aPT_CTRL 0 3 = 0 ∧ fld 4 0 3 ≤ 4 ∧ [aPT_STEP_HI, aPT_RATE_LO, aPT_RATE_HI, aPT_CTRL, aPT_CMP_RES,
      aBEAT_STAT, aGE 15, aGE 15 + 0x14, aLN_GROUP_CFG 63, aLN_UNFENCE, aLN_CNT_CLR, aDT_SHADOW 32767 + 12, aSP_SHADOW 63 + 2044, aPOL 16383 + 0xC,
      aQT_PORT_QF 255, aQT_PORT_PC 255, aQT_PORT_RSQ 255, aQT_UNIT 66, aSV_QUANT 255 27, aSV_CLASS_LEN 7, aSV_GATE_BIND 255].all up.opens = true) ∧
    ([aFD_MAP 1023, aRCP 63 + 124, aSM_CFG, aAS_PROFILE, aAS_RESV, aREP_COMPAT, aUP_POOL 3, aMEM_REF 7, aMEM_PART 3, aMEM_WS, aTW_CFG, 0xA0020, 0xA000C, 0xC,
      aHI_CFG, 0x800028, 0x200014, 0x60040, 0xC00014, 0x70048, 0xC0014, 0x100028, 0x40002C, 0x90054, 0xA0024, 0x40034, 0x50004, aRING 8191,
      0x10000, 0xC00020, 0x400008].all up.opens = true) ∧
    (let v : W32 := 0x1F1F0101
     up.cmpHeld 0 = 0 ∧ fld v 0 7 + fld v 8 7 + fld v 16 7 + fld v 24 7 ≤ 64) ∧
    (gateD.opens (aGE 15) = true ∧ ((gateD.glList 15 false (fld 1 1 6 + 1)).map (fun e => e.1)).sum = (gateD.rg (aGE 15 + 0xC)).toNat ∧
      gateD.rg (aGE 15 + 0xC) ≠ 0 ∧ gateD.gateOk (gateD.glList 15 false (fld 1 1 6 + 1)) = true) ∧
    (let d := laneD 6
     d.opens aLN_UNFENCE = true ∧ bitAt (0x8000020F : W32) 31 = true ∧ fld 0x8000020F 0 10 < 528 ∧ d.portOfLane (fld 0x8000020F 0 10) = some 256 ∧
     1 ≤ d.portState 256 ∧ d.portState 256 ≤ 6 ∧ d.sorterLost 256 = false) ∧
    (up.shadowClosed = false ∧ (up.rg (aPOL 16383)).toNat ≤ (up.rg (aPOL 16383 + 4)).toNat ∧ up.gf (aPOL 16383 + 8) 0 24 ≠ 0xFFFFFF ∧
      fld 0x7FFFFFE 0 24 ≠ 0xFFFFFF ∧ fld 0x7FFFFFE 27 5 = 0) ∧
    (up.portState 255 = 0 ∧ 17 ≤ fld 0x110011 0 16 ∧ fld 0x110011 0 16 ≠ 0xFFFF ∧ 17 ≤ fld 0x110011 16 16 ∧ fld 0x110011 16 16 ≠ 0xFFFF) ∧
    (fld 0x1028 0 13 % 8 = 0 ∧ 32 ≤ fld 0x1028 0 13 ∧ fld 0x1028 0 13 ≤ 4136) ∧
    (let d := up.sb (aGE 15) 0 true
     d.opens (aSV_GATE_BIND 255) = true ∧ bitAt 0x1F 4 = true ∧ d.gb (aGE (fld 0x1F 0 4)) 0 = true ∧ d.gb (aSV_GATE_BIND 255) 4 = false) ∧
    (up.cl.ops = [] ∧ up.gb aREP_COMPAT 0 = false ∧ up.ctxInUse = false ∧ up.as_.launches = [] ∧ up.updateBusy = false ∧ bitAt 0 0 = false ∧
      ((List.range 4).all fun k => decide (0 < fld 0x20200101 (8 * k) 6 ∧ fld 0x20200101 (8 * k) 6 ≤ up.perDeck)) = true ∧ fld 0x6000 8 8 = 96) ∧
    (up.sh.sets = [] ∧ fld 1 0 16 * 256 ≤ up.poolLimit 3) ∧
    (let d := timedD.wr aPT_CMP_RES 0x08000000
     let v : W32 := 1 + 2 * 16384 + 65536 * 16383
     d.opens (aMEM_REF 7) = true ∧ d.gb (aMEM_REF 7) 0 = false ∧ bitAt v 0 = true ∧ d.gf aPT_STAT 0 3 ≠ 0 ∧ refPeriod v = 16384 ∧ refPhase v = 16383 ∧
       d.maintRoom = true) ∧
    (up.partOk (aMEM_PART 0) 16 = true ∧ up.partOk aMEM_WS 0 = true) ∧ (up.twState = 0 ∧ up.twRole = 0) ∧
    (let d := up.sb (aDP_FENCE_S + 8) 3 true
     d.opens 0xA0020 = true ∧ bitAt 0x80000143 31 = true ∧ d.unitFenced (fld 0x80000143 8 2) (fld 0x80000143 0 8) = true) ∧
    (let d := (up.sb aDP_PEND 23 true).wr (aDP_OPEN 23) 0xFFFFFF
     d.opens 0xA000C = true ∧ fld 0xFFFFFF17 0 5 = 23 ∧ d.gb aDP_PEND 23 = true ∧ d.gf (aDP_OPEN 23) 0 24 = fld 0xFFFFFF17 8 24) ∧
    ((up.wr aDB_BASE_HI 1).opens aHI_CFG = true ∧ (up.wr aDB_BASE_HI 1).rg aDB_BASE_HI ≠ 0 ∧ up.stage = 5) ∧
    (pollD.ringState 8191 = 0 ∧ pollD.ringRefuses 8191 1 = false ∧ (Dev.plainWrite (aRING 8191) 1 pollD).ringState 8191 = 0 ∧
      (ringD 0).opens (aRING 8191) = true ∧ (ringD 0).ringState 8191 = 1 ∧ (ringD 0).ringRefuses 8191 0 = false ∧
      (pollD.wr (aRING 8191 + 4) 2).opens (aRING 8191) = true ∧ (pollD.wr (aRING 8191 + 4) 2).ringState 8191 = 2 ∧
      (pollD.wr (aRING 8191 + 4) 2).ringRefuses 8191 8 = false) := by
  dsimp only
  and_intros <;> decide +kernel

theorem wit_WritesIgnored :
    (up.sf aTW_CFG 0 2 2).live = true ∧ (up.sf aTW_CFG 0 2 2).follower = true ∧ mirroredReg 0x61800 = true ∧ stoppedD.stopped = true := by decide +kernel

theorem wit_WaitHoldsBack :
    bfld (padTo (64 * opSlots (rdLE (desc 1 1 [(1, 1, 1)]) 0 1)) (desc 1 1 [(1, 1, 1)])) 1 0 1 = 1 ∧
    ((ringD 1).wr (aRING 8191 + 0x34) 1).gf (aRING 8191 + 0x34) 0 17 ≠ 0 := by decide +kernel

theorem wit_TrapLog :
    (let num := NumCtl.read [0x04]
     num.trap = true ∧ Trap.init.fired = false) ∧
    (up.report 7 0 0 0).gb aNT_STAT ((up.report 7 0 0 0).gf aNT_STAT 16 4) = false ∧
    (let d := (up.wr aNT_STAT 0xFF0F8000).report 7 0 0 0
     d.gb aNT_STAT (d.gf aNT_STAT 16 4) = true) := by decide +kernel

theorem wit_FaultClosed :
    (let d := (up.sb aDP_PEND 23 true).wr (aDP_OPEN 23) 0xFFFFFF
     reached d 0xA000C 0xFFFFFF17 (fun w d => fld w 0 5 == 23 && d.gb aDP_PEND 23 && d.gf (aDP_OPEN 23) 0 24 == fld w 8 24) = true ∧
     reached d 0xA000C 0xFFFFFE17 (fun w d => d.gf (aDP_OPEN 23) 0 24 != fld w 8 24) = true) ∧
    reached up 0xA000C 24 (fun w _ => decide (24 ≤ fld w 0 5)) = true ∧ reached up 0xA000C 0 (fun w d => !d.gb aDP_PEND (fld w 0 5)) = true := by
  decide +kernel

theorem wit_CompletionRecords :
    (let ref : DescRef := ⟨8191, 0, 1, false, 0, 1⟩
     ref.gen = up.hi.gen ∧ up.stopped = false ∧ (up.gb (aRING 8191) 2 && !ref.quiet) = false ∧ up.gf (aRING 8191) 12 4 ≤ 12 ∧
     up.gf (aRING 8191 + 0x2C) 0 16 < up.cqSize 8191) ∧
    ((⟨0, 0, 1, false, 1, 1⟩ : DescRef).gen ≠ up.hi.gen ∧ stoppedD.stopped = true) ∧
    0 < ((ringD 1).wr (aRING 8191 + 0x34) 1).gf (aRING 8191 + 0x34) 0 17 := by decide +kernel

/-! ## Figures of the manual -/

/-- The figures of *values into narrow formats* (R182, R185, R187). -/
theorem test_narrow_formats :
    (deliver 2 false none (fp32.decode 0x3F808000)).code = 0x3F80 ∧ (deliver 2 false none (fp32.decode 0x3F818000)).code = 0x3F82 ∧
    (deliver 3 false none (.ofInt 65519)).code = 0x7BFF ∧ (let r := deliver 3 false none (.ofInt 65520)
      r.code = 0x7C00 ∧ r.ovf = true) ∧
    (let r := deliver 4 false none (.ofInt 450)
     r.code = 0x7E ∧ r.ovf = false) ∧ (let r := deliver 4 false none (.ofInt 500)
     r.code = 0x7E ∧ r.ovf = true) ∧ (deliver 4 false none (fp32.decode 0x3A83126F)).code = 1 := by decide +kernel

/-- The MX block of the same table (R189): 1000, 0.3 and 0.001. -/
theorem test_mx_block :
    ((deliverBlock 6 false (fun _ => none) ([0x447A0000, 0x3E99999A, 0x3A83126F].map fp32.decode)).map fun r => (r.code, r.ovf)) =
      [(0x8178, false), (0x811A, false), (0x8100, false)] := by decide +kernel

/-- *An MXFP8 block requantised* (R189, R240): two members' first elements, their sums, and the block written. -/
theorem test_mxfp8_requantised :
    (let sum := fun (a b : Nat) => (combine 1 0 false (expandRaw 6 1 false (0x7F00 + a)).code (expandRaw 6 1 false (0x8200 + b)).code).code
     ((deliverBlock 6 false (fun _ => none) ([sum 0x7E 0x7E, sum 0x3C 0x30, sum 0x81 0x01, sum 0 0].map fp32.decode)).map fun r => (r.code, r.ovf)) =
      [(0x8378, false), (0x832B, false), (0x8300, false), (0x8300, false)]) := by decide +kernel

/-- *Three terms, two orders* (R217): 2^24 + 1 + 1, and 1 + 1 + 2^24. -/
theorem test_three_terms :
    (let add := fun (a b : Nat) => (combine 1 0 false a b).code
     add (add 0x4B800000 0x3F800000) 0x3F800000 = 0x4B800000 ∧ add (add 0x3F800000 0x3F800000) 0x4B800000 = 0x4B800001) := by decide +kernel

/-- *A trap record decoded* (R197). -/
theorem test_trap_record :
    trapRecord ⟨291, 2684, 0x40, false, 0, 1⟩ true false ⟨2, 2, 0, 2, 0x7F80, true, 65, 1843, true, 77, 19, none, 0⟩ 0x4280000000 =
      [0x12400123, 0xA7C, 0x733, 0, 0x134D01, 0x412202, 0, 0, 0x7F80, 0, 0x80000000, 0x42, 0, 0, 0, 0] := by decide +kernel

/-- *One bias-corrected step by hand* (R342, R343): the corrections, m, v, u and w. -/
theorem test_bias_corrected_step :
    (biasCorr false 0x3F600000 1).code = 0x3E700000 ∧ (biasCorr false 0x3F7E0000 1).code = 0x3C7F0000 ∧
    (let c : URule := ⟨false, 0x3F600000, 0x3F7E0000, 0x35800000, 0x3A800000, 0x3C800000, (oneMinus false 0x3F600000).code, (oneMinus false 0x3F7E0000).code, 0x3E700000, 0x3C7F0000, 0⟩
     let r := c.moments 70000 0x40000000 0x3E800000 0x3D000000 {}
     r.1 = 0x3EF00000 ∧ r.2.1 = 0x3D7F0000 ∧ r.2.2.1 = 0x3F7FFFF8 ∧ (c.weight 70000 0x3F800000 r.2.2.1 r.2.2.2).1 = 0x3F7FBF00) := by decide +kernel

/-- *A protected window* (R159): the guard bands of a class at 8, 4 and 2 lanes at the default LEN. -/
theorem test_guard_band : up.guardBand 3 8 = 159 ∧ up.guardBand 3 4 = 318 ∧ up.guardBand 3 2 = 636 := by decide +kernel

/-- *Soft maximum over a masked row* (R201, R202, R322): entries 3, 17, 34 and 38 hold 0.75 and 20 holds -∞, in strict mode, where R293 leaves the
quotient no choice; with +∞ at 20 and 38 those two share. -/
theorem test_soft_row :
    (let r : SoftRow := ⟨0x2000, 0x1000, 0x3000, 40, 2, 2, false⟩
     let e := fun (j c : Nat) => (⟨j, ⟨2, c, false⟩, bf16.decode c⟩ : Entry)
     (softStrict r [e 3 0x3F40, e 17 0x3F40, e 20 0xFF80, e 34 0x3F40, e 38 0x3F40]).outs =
       [(3, 0x3E80), (17, 0x3E80), (20, 0), (34, 0x3E80), (38, 0x3E80)] ∧
     softLoose r [e 3 0x3F40, e 17 0x3F40, e 20 0x7F80, e 34 0x3F40, e 38 0x7F80] =
       { outs := [(20, 0x3F00), (38, 0x3F00)], flags := asINF_ROW }) := by decide +kernel

/-- *A scaled add over a tail* (R306): every word of the program is the first of an instruction. -/
theorem test_scaled_add_words :
    ([0x0020091C, 0x0091CA19, 0x00A08B11, 0x00A0CC11, 0x08000D1C, 0x00020141, 0x00F2D462, 0x00F31562, 0x05411523, 0x00F31566, 0x00D2CB11, 0x00D30C11,
      0xFE00411C, 0xFF804403, 1].all fun w => asWordOk w 0) = true := by decide +kernel

/-- *A scaled add over a tail* (R307, R312 to R324): its words are those of the instructions it names, and of no other of them. -/
theorem test_scaled_add_spelt :
    (let c := core31
     let is : List (Instr × Nat) := [(.asAddi c ⟨9, 0, 2⟩, 0x0020091C), (.asShl c ⟨10, 7, 9, 0, 0⟩, 0x0091CA19), (.asIadd c ⟨11, 2, 10, 0, 0⟩, 0x00A08B11),
       (.asTail c ⟨1, 0, 0, 1⟩, 0x00020141), (.asLd32 c ⟨20, 11, 7, 1, 0⟩, 0x00F2D462), (.asFma c ⟨21, 4, 20, 1, 0⟩, 0x05411523),
       (.asSt32 c ⟨21, 12, 7, 1, 0⟩, 0x00F31566), (.asAddi c ⟨1, 1, 0xFE0⟩, 0xFE00411C), (.asBr c ⟨4, 0, 1, 0xFF8⟩, 0xFF804403), (.asEnd c, 1)]
     is.all fun x => is.all fun y => x.1.spelt y.2 0 == decide (x = y)) = true := by decide +kernel

/-- *A gate set up and locked, then changed* (R491, R496): step 7 locks blocks 0 and 4, and step 8's write to GE_CYCLE of engine 3 is ignored. -/
theorem test_locked_gate :
    (let d := (up.barWrite 0xC 0x11 ctlLockEffect)
     d.rg aCTL_LOCK = 0x11 ∧
     (let e := d.barWrite 0x210CC 0x60000 (Dev.plainWrite 0x210CC)
      e.rg 0x210CC = d.rg 0x210CC ∧ e.rg aCTL_STAT = 1 ∧ e.rg aCTL_BAD_ADDR = 0x210CC)) := by decide +kernel

end Sys2Proof.Machine
end

section
/-! The trap log (R195, R199): what the first event of an armed trap does to NT_STAT, to the entry NEXT and to every other register. -/

namespace Sys2Proof.Machine

/-! ## Reading registers after a field, a bit or a run of words is written -/

theorem Dev.gb_eq_gf (d : Dev) (a i : Nat) : d.gb a i = (d.gf a i 1 == 1) := bitAt_fld ..

/-- Writing a field leaves the bits outside it. -/
theorem Dev.gb_sf_other (d : Dev) (a lo w x i : Nat) (h : lo + w ≤ 32) (hd : i < lo ∨ lo + w ≤ i) : (d.sf a lo w x).gb a i = d.gb a i := by
  rw [Dev.gb_eq_gf, Dev.gb_eq_gf, Dev.gf_sf_other _ _ _ _ _ _ _ h (by omega)]

/-- Writing a bit leaves the fields that do not hold it. -/
theorem Dev.gf_sb_other (d : Dev) (a i : Nat) (b : Bool) (lo w : Nat) (h : i < 32) (hd : i < lo ∨ lo + w ≤ i) :
    (d.sb a i b).gf a lo w = d.gf a lo w := Dev.gf_sf_other _ _ _ _ _ _ _ (by omega) (by omega)

theorem Dev.gf_lt (d : Dev) (a lo w : Nat) : d.gf a lo w < 2 ^ w := Nat.mod_lt _ (Nat.two_pow_pos w)

/-- A run of words reaches just the registers of the run. -/
theorem Dev.rg_wrs_ne (d : Dev) {a b : Nat} (vs : List W32) (h : ∀ j, j < vs.length → b ≠ a + 4 * j) : (d.wrs a vs).rg b = d.rg b := by
  induction vs generalizing d a with
  | nil => rfl
  | cons v vs ih =>
    have hhead : b ≠ a := h 0 (by simp)
    have htail : ∀ j, j < vs.length → b ≠ a + 4 + 4 * j := fun j hj => by
      have := h (j + 1) (by simpa using hj)
      omega
    rw [Dev.wrs, ih _ htail, d.rg_wr_ne v hhead]

/-- Each register of a run holds its word. -/
theorem Dev.rg_wrs_at (d : Dev) {a : Nat} (vs : List W32) {j : Nat} (h : j < vs.length) : (d.wrs a vs).rg (a + 4 * j) = vs.getD j 0 := by
  induction vs generalizing d a j with
  | nil => simp at h
  | cons v vs ih =>
    cases j with
    | zero =>
      rw [Dev.wrs, Dev.rg_wrs_ne _ _ (fun i _ => by omega)]
      simp
    | succ j =>
      have haddr : a + 4 * (j + 1) = a + 4 + 4 * j := by omega
      rw [Dev.wrs, haddr, ih _ (by simpa using h)]
      simp

/-! ## The entries of the log -/

@[simp] theorem trapRecord_length (ref : DescRef) (halt strict : Bool) (e : TrapEv) (t : W64) : (trapRecord ref halt strict e t).length = 16 := rfl

/-- No word of the log is NT_STAT. -/
theorem aNT_LOG_ne_aNT_STAT (n k : Nat) : aNT_LOG n + k ≠ aNT_STAT := by
  unfold aNT_LOG aNT_STAT
  omega

/-- The registers once a record is written at entry `n` of the log: its words, VALID `n` set and NEXT one further (R199). -/
def Dev.logTrap (d : Dev) (n : Nat) (rec : List W32) : Dev := ((d.wrs (aNT_LOG n) rec).sb aNT_STAT n true).sf aNT_STAT 16 4 (n + 1)

section
variable (d : Dev) (n : Nat) (rec : List W32)

/-- Beside NT_STAT, the registers are those that the record's words leave. -/
theorem Dev.rg_logTrap_ne {a : Nat} (h : a ≠ aNT_STAT) : (d.logTrap n rec).rg a = (d.wrs (aNT_LOG n) rec).rg a := by
  rw [Dev.logTrap, Dev.rg_sf_ne _ _ _ _ h, Dev.rg_sb_ne _ _ _ h]

/-- The words of the record leave NT_STAT. -/
theorem Dev.rg_wrs_aNT_LOG_aNT_STAT : (d.wrs (aNT_LOG n) rec).rg aNT_STAT = d.rg aNT_STAT :=
  d.rg_wrs_ne rec fun j _ => (aNT_LOG_ne_aNT_STAT n (4 * j)).symm

theorem Dev.rg_logTrap_entry {j : Nat} (h : j < rec.length) : (d.logTrap n rec).rg (aNT_LOG n + 4 * j) = rec.getD j 0 := by
  rw [Dev.rg_logTrap_ne _ _ _ (aNT_LOG_ne_aNT_STAT n (4 * j)), Dev.rg_wrs_at _ _ h]

theorem Dev.rg_logTrap_outside {a : Nat} (hs : a ≠ aNT_STAT) (he : ∀ j, j < rec.length → a ≠ aNT_LOG n + 4 * j) :
    (d.logTrap n rec).rg a = d.rg a := by
  rw [Dev.rg_logTrap_ne _ _ _ hs, Dev.rg_wrs_ne _ _ he]

theorem Dev.next_logTrap : (d.logTrap n rec).gf aNT_STAT 16 4 = (n + 1) % 16 := Dev.gf_sf_self _ _ _ _ _ (by omega)

variable (hn : n < 16)
include hn

theorem Dev.valid_logTrap_self : (d.logTrap n rec).gb aNT_STAT n = true := by
  rw [Dev.logTrap, Dev.gb_sf_other _ _ _ _ _ _ (by omega) (by omega), Dev.gb_sb_self _ _ _ _ (by omega)]

theorem Dev.valid_logTrap_other {k : Nat} (hk : k < 16) (hkn : k ≠ n) : (d.logTrap n rec).gb aNT_STAT k = d.gb aNT_STAT k := by
  rw [Dev.logTrap, Dev.gb_sf_other _ _ _ _ _ _ (by omega) (by omega), Dev.gb_sb_other _ _ _ _ _ (by omega) hkn, Dev.gb, Dev.gb,
    Dev.rg_wrs_aNT_LOG_aNT_STAT]

theorem Dev.lost_logTrap : (d.logTrap n rec).gf aNT_STAT 24 8 = d.gf aNT_STAT 24 8 := by
  rw [Dev.logTrap, Dev.gf_sf_other _ _ _ _ _ _ _ (by omega) (by omega), Dev.gf_sb_other _ _ _ _ _ _ (by omega) (by omega), Dev.gf, Dev.gf,
    Dev.rg_wrs_aNT_LOG_aNT_STAT]

end

/-! ## The first event of an armed trap -/

section
variable {d : Dev} {t : Trap} {ref : DescRef} {num : NumCtl} {e : TrapEv} (harm : num.trap = true) (hfirst : t.fired = false)
include harm hfirst

/-- Where the entry at NEXT is free, the first event leaves the registers with its record logged there. -/
theorem Dev.rg_trapTake_logged {d1 : Dev} (hd1 : d1 = d.report 7 0 0 0) (hfree : d1.gb aNT_STAT (d1.gf aNT_STAT 16 4) = false) (a : Nat) :
    (d.trapTake t ref num e).1.rg a = (d1.logTrap (d1.gf aNT_STAT 16 4) (trapRecord ref num.halt num.strict e d1.now)).rg a := by
  subst hd1
  simp [Dev.trapTake, harm, hfirst, hfree, Dev.logTrap, Dev.rg]

/-- Where the entry at NEXT still holds a record, the first event leaves nothing but LOST one higher. -/
theorem Dev.trapTake_dropped {d1 : Dev} (hd1 : d1 = d.report 7 0 0 0) (hheld : d1.gb aNT_STAT (d1.gf aNT_STAT 16 4) = true) :
    (d.trapTake t ref num e).1 = d1.sf aNT_STAT 24 8 (min 255 (d1.gf aNT_STAT 24 8 + 1)) := by
  subst hd1
  simp [Dev.trapTake, harm, hfirst, hheld]

end

/-- Settles O57: an event that is logged leaves the registers of `Dev.logTrap`, one that is dropped changes LOST alone, and a plain write of
NT_STAT reaches no other register. -/
theorem trapLog : Obligations.TrapLog := by
  unfold Obligations.TrapLog
  intro d t ref num e harm hfirst d1 n r
  have hn : n < 16 := d1.gf_lt aNT_STAT 16 4
  refine ⟨fun hfree => ?_, fun hheld => ?_, fun v i j _ _ => ?_⟩
  · have hrg (a : Nat) : r.1.rg a = (d1.logTrap n (trapRecord ref num.halt num.strict e d1.now)).rg a :=
      Dev.rg_trapTake_logged harm hfirst rfl hfree a
    simp only [Dev.gb, Dev.gf, hrg]
    exact ⟨fun j hj => Dev.rg_logTrap_entry _ _ _ hj, Dev.valid_logTrap_self _ _ _ hn, Dev.next_logTrap ..,
      fun k hk hkn => Dev.valid_logTrap_other _ _ _ hn hk hkn, Dev.lost_logTrap _ _ _ hn,
      fun a hs he => Dev.rg_logTrap_outside _ _ _ hs he⟩
  · have hr : r.1 = d1.sf aNT_STAT 24 8 (min 255 (d1.gf aNT_STAT 24 8 + 1)) := Dev.trapTake_dropped harm hfirst rfl hheld
    rw [hr]
    refine ⟨?_, fun a ha => Dev.rg_sf_ne _ _ _ _ ha, Dev.gf_sf_other _ _ _ _ _ _ _ (by omega) (by omega)⟩
    have hfits : min 255 (d1.gf aNT_STAT 24 8 + 1) < 2 ^ 8 := by omega
    rw [Dev.gf_sf_self _ _ _ _ _ (by omega), Nat.mod_eq_of_lt hfits]
  · exact (plainWrite_same aNT_STAT v d).2 _ (by simpa using aNT_LOG_ne_aNT_STAT i (4 * j))

end Sys2Proof.Machine
end

section
/-! WAIT (R391, R395): what holds a descriptor back, and that the fetch of a ring held back only notes it. -/

namespace Sys2Proof.Machine

variable {d : Dev} {r : Nat} {bytes : Bytes}

/-- A WAIT descriptor is held back while its ring has one in flight (R395), its second slot posted or not. -/
theorem Dev.holdOf_ne_zero_of_wait (hwait : bfld bytes 1 0 1 = 1) (hinflight : d.gf (aRING r + 0x34) 0 17 ≠ 0) : d.holdOf r bytes ≠ 0 := by
  by_cases hslots : d.posted r < opSlots (rdLE bytes 0 1)
  · simp [Dev.holdOf, hslots]
  · simp [Dev.holdOf, hslots, hwait, hinflight]

/-- A ring that the fetch passes over whatever its next descriptor holds, which takes `n` slots (R391, R394). -/
def Dev.passesOver (d : Dev) (r n : Nat) : Bool :=
  !(d.live && (d.stage == 5 || d.stage == 6)) || d.ringState r != 1 || d.posted r == 0 || !d.roomCq r || !d.servedNow r n

/-- The fetch leaves a ring that it passes over as it was. -/
theorem Dev.fetch_of_passesOver (hpass : d.passesOver r (opSlots (rdLE bytes 0 1)) = true) : d.fetch r bytes = d := if_pos hpass

/-- The fetch notes what holds back the descriptor of a ring that it does not pass over. -/
theorem Dev.fetch_of_held (hserved : d.passesOver r (opSlots (rdLE bytes 0 1)) = false)
    (hheld : d.holdOf r (padTo (64 * opSlots (rdLE bytes 0 1)) bytes) ≠ 0) :
    d.fetch r bytes =
      { d with hi := { d.hi with blocked := mput 0 r (d.holdOf r (padTo (64 * opSlots (rdLE bytes 0 1)) bytes)) d.hi.blocked } } :=
  (if_neg (ne_true_of_eq_false hserved)).trans (if_pos hheld)

/-- Settles O56: INFLIGHT other than zero holds a WAIT descriptor back, and the fetch of one held back changes at most its ring's note. -/
theorem waitHoldsBack : Obligations.WaitHoldsBack := by
  unfold Obligations.WaitHoldsBack
  intro s r bytes hwait hinflight
  refine gives_dev (f := fun d => d.when (decide (r < 8192)) (fun d => d.fetch r bytes)) rfl ?_
  by_cases hr : r < 8192
  · simp only [hr, decide_true, Dev.when_true]
    cases hpass : s.dev.passesOver r (opSlots (rdLE bytes 0 1)) with
    | true => rw [Dev.fetch_of_passesOver hpass]
    | false => rw [Dev.fetch_of_held hpass (Dev.holdOf_ne_zero_of_wait hwait hinflight)]
  · simp only [hr, decide_false, Dev.when_false]

end Sys2Proof.Machine
end

section
/-! DP_ACK (R448): it closes the open fault that its CLASS and SEQ name, and is rejected otherwise. -/

namespace Sys2Proof.Machine

/-- The open fault of class `c` is closed (R448): its PEND bit is cleared, and no fault of the class is kept as open. -/
def Dev.closeFault (d : Dev) (c : Nat) : Dev :=
  { d.sb aDP_PEND c false with dp := { d.dp with opens := mput none c none d.dp.opens } }

section
variable (d : Dev) (c : Nat)

/-- The registers are those that the cleared PEND bit leaves. -/
theorem Dev.rg_closeFault (a : Nat) : (d.closeFault c).rg a = (d.sb aDP_PEND c false).rg a := rfl

theorem Dev.pend_closeFault_self (hc : c < 32) : (d.closeFault c).gb aDP_PEND c = false := Dev.gb_sb_self d _ _ _ hc

theorem Dev.pend_closeFault_other (hc : c < 32) {k : Nat} (hk : k ≠ c) : (d.closeFault c).gb aDP_PEND k = d.gb aDP_PEND k :=
  Dev.gb_sb_other d _ _ _ _ hc hk

theorem Dev.opens_closeFault : mget none c (d.closeFault c).dp.opens = none := mget_mput_self none c none d.dp.opens

theorem Dev.rg_closeFault_ne {a : Nat} (h : a ≠ aDP_PEND) : (d.closeFault c).rg a = d.rg a := by
  rw [Dev.rg_closeFault, Dev.rg_sb_ne _ _ _ h]

end

section
variable {d : Dev} {w : W32} {c : Nat} (hcls : fld w 0 5 = c)
include hcls

/-- An acknowledgement that names the open fault of its class closes it. -/
theorem dpAckEffect_of_match (hc : c < 24) (hpend : d.gb aDP_PEND c = true) (hseq : d.gf (aDP_OPEN c) 0 24 = fld w 8 24) :
    dpAckEffect w d = d.closeFault c := by
  subst hcls
  exact if_pos ⟨hc, hpend, hseq⟩

/-- An acknowledgement of no class, of a class without an open fault or of another fault leaves nothing but ACK_REJ. -/
theorem dpAckEffect_of_mismatch (h : 24 ≤ c ∨ d.gb aDP_PEND c = false ∨ d.gf (aDP_OPEN c) 0 24 ≠ fld w 8 24) :
    dpAckEffect w d = d.sb aDP_STAT 9 true := by
  subst hcls
  refine if_neg fun ⟨hc, hpend, hseq⟩ => ?_
  rcases h with hclass | hclosed | hother
  · omega
  · exact ne_true_of_eq_false hclosed hpend
  · exact hother hseq

end

/-- Settles O58: a write of DP_ACK that names the open fault of its class leaves the device of `Dev.closeFault`, any other only ACK_REJ. -/
theorem faultClosed : Obligations.FaultClosed := by
  unfold Obligations.FaultClosed
  intro s v w d0 hsees c
  refine ⟨fun hc hpend hseq => gives_bar rfl hsees ?_, fun hreject => gives_bar rfl hsees (dpAckEffect_of_mismatch rfl hreject)⟩
  have hc32 : c < 32 := by omega
  rw [dpAckEffect_of_match rfl hc hpend hseq]
  exact ⟨d0.pend_closeFault_self c hc32, fun k _ hk => d0.pend_closeFault_other c hc32 hk, d0.opens_closeFault c,
    fun a ha => d0.rg_closeFault_ne c ha⟩

end Sys2Proof.Machine
end

section
/-! Host writes that are stopped whatever the locks (R497): a 4-byte write that brings its register no value leaves just its marks beside it. -/

namespace Sys2Proof.Machine

variable {d : Dev} {a : Nat} {v : W32}

theorem exec_registerWrite (s : State) : exec (.registerWrite a v) s = execRegisterWrite a v s := rfl

/-- The address of a RING_CTRL is that of the ring which its number gives. -/
theorem aRING_of_ringCtrl (hlo : 0x500000 ≤ a) (hctrl : a % 0x40 = 0) : aRING ((a - 0x500000) / 0x40) = a := by
  unfold aRING
  omega

/-- No register that a follower keeps from the host lies in BAR2. -/
theorem lt_bar2_of_mirroredReg (h : mirroredReg a = true) : a < 0x10000000 := by
  simp only [mirroredReg, Bool.or_eq_true, Bool.and_eq_true, decide_eq_true_eq] at h
  omega

/-! ## A write that brings its register no value -/

section
variable {s : State} (hnone : s.dev.barSees a v = none)
include hnone

/-- Of a write of RING_CTRL that brings no value just the marks are left. -/
theorem ringWrite_of_barSees_none {r : Nat} (hr : r < 8192) (ha : aRING r = a) :
    ringWrite r v s = .next { s with dev := s.dev.barMarks a v } := by
  subst ha
  simp [ringWrite, memStep, hr, hnone]

/-- Of a write of the partition that brings no value just the marks are left. -/
theorem partWrite_of_barSees_none : partWrite a v s = .next { s with dev := s.dev.barMarks a v } := by
  simp [partWrite, memStep, hnone]

/-- REGISTER_WRITE of BAR0 leaves just the marks of a write that brings its register no value, whichever register it is. -/
theorem exec_registerWrite_of_barSees_none (halign : a % 4 = 0) (hbar0 : a < 0x10000000) :
    exec (.registerWrite a v) s = .next { s with dev := s.dev.barMarks a v } := by
  rw [exec_registerWrite, execRegisterWrite, if_neg (by omega), if_neg (by omega)]
  split_ifs with hring hpart
  · obtain ⟨hlo, hhi, hctrl⟩ := hring
    exact ringWrite_of_barSees_none hnone (by omega) (aRING_of_ringCtrl hlo hctrl)
  · exact partWrite_of_barSees_none hnone
  · rw [devStep, barWrite_none hnone]

end

/-! ## A device that is not live -/

section
variable (hdead : d.live = false)
include hdead

theorem Dev.barSees_of_not_live : d.barSees a v = none := by simp [Dev.barSees, hdead]

theorem Dev.barMarks_of_not_live : d.barMarks a v = d := by simp [Dev.barMarks, hdead]

theorem Dev.barWrite_of_not_live (eff : W32 → Dev → Dev) : d.barWrite a v eff = d := by
  rw [barWrite_none (Dev.barSees_of_not_live hdead), Dev.barMarks_of_not_live hdead]

end

theorem Dev.not_live_of_stopped (h : d.stopped = true) : d.live = false := by simp [Dev.live, h]

/-- REGISTER_WRITE does nothing on a device that is not live, be it of BAR0 or of the MSI-X table in BAR2. -/
theorem exec_registerWrite_of_not_live {s : State} (hdead : s.dev.live = false) (halign : a % 4 = 0) :
    exec (.registerWrite a v) s = .next s := by
  by_cases hbar2 : 0x10000000 ≤ a
  · rw [exec_registerWrite, execRegisterWrite, if_pos hbar2, devStep, hdead, Bool.false_and, Dev.when_false]
  · rw [exec_registerWrite_of_barSees_none (Dev.barSees_of_not_live hdead) halign (by omega), Dev.barMarks_of_not_live hdead]

/-! ## A follower -/

section
variable (hfollows : d.follower = true) (hmirrored : mirroredReg a = true)
include hfollows hmirrored

theorem Dev.barSees_of_mirrored : d.barSees a v = none := by simp [Dev.barSees, hfollows, hmirrored]

/-- What a follower is left with of a write to a mirrored register is WR_IGN (R427). -/
theorem Dev.barMarks_of_mirrored (hlive : d.live = true) : d.barMarks a v = d.sb aTW_STAT 9 true := by
  simp [Dev.barMarks, hlive, hfollows, hmirrored]

end

/-- Settles O55: neither write brings its register a value, so that its marks are all it leaves, WR_IGN on a follower and none on a stopped device. -/
theorem writesIgnored : Obligations.WritesIgnored := by
  unfold Obligations.WritesIgnored
  intro s a v halign
  refine ⟨fun hlive hfollows hmirrored => ?_, fun hlive hfollows hmirrored eff => ?_, fun hstopped eff => ?_, fun hstopped => ?_⟩
  · have hmarks : s.dev.barMarks a v = s.dev.sb aTW_STAT 9 true := Dev.barMarks_of_mirrored hfollows hmirrored hlive
    have hctl : (s.dev.sb aTW_STAT 9 true).rg aCTL_STAT = s.dev.rg aCTL_STAT := s.dev.rg_sb_ne 9 true (by decide)
    refine ⟨s.dev.sb aTW_STAT 9 true, ?_, rfl, hctl⟩
    rw [exec_registerWrite_of_barSees_none (Dev.barSees_of_mirrored hfollows hmirrored) halign (lt_bar2_of_mirroredReg hmirrored), hmarks]
  · rw [barWrite_none (Dev.barSees_of_mirrored hfollows hmirrored), Dev.barMarks_of_mirrored hfollows hmirrored hlive]
  · exact Dev.barWrite_of_not_live (Dev.not_live_of_stopped hstopped) eff
  · exact exec_registerWrite_of_not_live (Dev.not_live_of_stopped hstopped) halign

end Sys2Proof.Machine
end

section
/-! What a command may touch (chapter 13): the device alone, or also the bytes of stacked memory, whose canonical form it then keeps. -/

namespace Sys2Proof.Machine

/-- An outcome of a command in a state that answers a next one: with the queue kept and another device alone, or, of a command that may move
bytes, with stacked memory still in its canonical form. -/
def Acts (c : Instr) (s : State) (o : Host.Outcome State Fault Refusal) : Prop :=
  (∃ f, o = devStep f s) ∨ (movesBytes c = true ∧ ∃ f, o = memStep f s ∧ (Memory.wf s.mem → Memory.wf (f s.dev s.mem).2))

section
variable {c : Instr} {s : State}

theorem acts_devStep (f : Dev → Dev) : Acts c s (devStep f s) := .inl ⟨f, rfl⟩

section
variable (hmoves : movesBytes c = true)
include hmoves

theorem acts_memStep (f : Dev → List Host.Cell → Dev × List Host.Cell) (hwf : ∀ d {m}, Memory.wf m → Memory.wf (f d m).2) :
    Acts c s (memStep f s) := .inr ⟨hmoves, f, rfl, hwf s.dev⟩

theorem acts_asCmd (i : Instr) (core : Core) (lock : Bool) (f : AsCtx → AsRes) : Acts c s (asCmd i core lock f s) :=
  acts_memStep hmoves _ fun _ _ h => wf_asExec _ _ _ _ _ _ h

theorem acts_asRow (i : Instr) (core : Core) (f : AsCtx → AsRes) : Acts c s (asRow i core f s) :=
  acts_memStep hmoves _ fun _ _ h => wf_asExec _ _ _ _ _ _ h

theorem acts_liveAsExec (i : Instr) (core : Core) (f : AsCtx → AsRes) :
    Acts c s (memStep (fun d m => if d.live then d.freeNext.asExec m i core false false f else (d, m)) s) := by
  refine acts_memStep hmoves _ fun d m h => ?_
  split_ifs
  · exact wf_asExec _ _ _ _ _ _ h
  · exact h

theorem acts_ringWrite (r : Nat) (v : W32) : Acts c s (ringWrite r v s) := by
  refine acts_memStep hmoves _ fun d m h => ?_
  split_ifs
  · split
    · exact h
    · exact wf_ringCtrlEffect _ _ _ h
  · exact h

theorem acts_partWrite (a : Nat) (v : W32) : Acts c s (partWrite a v s) := by
  refine acts_memStep hmoves _ fun d m h => ?_
  split
  · exact h
  · dsimp only
    split_ifs
    · exact mwf_nil 0
    · exact h

end

/-! ## Beats and strikes -/

theorem acts_beatInEdge (rising : Bool) : Acts (.beatInEdge rising) s (execBeatInEdge rising s) := by
  refine acts_memStep rfl _ fun d m h => ?_
  dsimp only
  split_ifs
  · exact h
  · exact h
  · exact wf_takeBeat _ _ _ h

theorem acts_beatMarker (p : Nat) : Acts (.beatMarker p) s (execBeatMarker p s) := by
  refine acts_memStep rfl _ fun d m h => ?_
  dsimp only
  split
  · exact h
  · split_ifs
    · exact h
    · exact wf_takeBeat _ _ _ h
    · exact h

theorem acts_strikeDeadline (k : Nat) : Acts (.strikeDeadline k) s (execStrikeDeadline k s) := by
  refine acts_memStep rfl _ fun d m h => ?_
  split
  · exact h
  · split_ifs
    · exact wf_strikeLate _ _ h
    · exact h

theorem acts_twinCommitStrike (k : Nat) : Acts (.twinCommitStrike k) s (execTwinCommitStrike k s) := by
  refine acts_memStep rfl _ fun d m h => ?_
  dsimp only
  split
  · exact h
  · split
    · split
      · split_ifs <;> exact h
      · split_ifs
        · exact wf_followerStrike _ _ h
        · exact h
      · exact h
    · exact h

theorem acts_twStage : Acts .twStage s (execTwStage s) := by
  refine acts_memStep rfl _ fun d m h => ?_
  dsimp only
  split
  · exact h
  · split_ifs
    · exact h
    · exact h
    · exact wf_filter _ h
    · exact h

/-! ## Launches, benches and copies -/

theorem acts_assayLaunchStart (id : Nat) : Acts (.assayLaunchStart id) s (execAssayLaunchStart id s) := by
  refine acts_memStep rfl _ fun d m h => ?_
  dsimp only
  split
  · exact h
  · split_ifs
    · exact h
    · exact wf_launchFail _ _ _ h
    · exact wf_launchStart _ _ _ h
    · exact h

theorem acts_assayLaunchComplete (id : Nat) : Acts (.assayLaunchComplete id) s (execAssayLaunchComplete id s) := by
  refine acts_memStep rfl _ fun d m h => ?_
  dsimp only
  split
  · exact h
  · split_ifs
    · exact h
    · split
      · exact h
      · split
        · exact wf_launchFail _ _ _ h
        · exact wf_stores _ h

theorem acts_assayRunLimit (id : Nat) : Acts (.assayRunLimit id) s (execAssayRunLimit id s) := by
  refine acts_memStep rfl _ fun d m h => ?_
  dsimp only
  split
  · exact h
  · split_ifs
    · exact wf_launchFault _ _ _ _ _ _ _ _ _ h
    · exact h

theorem acts_benchFault (e : EccError) : Acts (.benchFault e) s (execBenchFault e s) := by
  refine acts_memStep rfl _ fun d m h => ?_
  split_ifs
  · exact h
  · exact wf_benchOut _ _ h
  · exact h

theorem acts_benchDomainPowerLoss (dom : Nat) : Acts (.benchDomainPowerLoss dom) s (execBenchDomainPowerLoss dom s) := by
  refine acts_memStep rfl _ fun d m h => ?_
  dsimp only
  split
  · refine wf_fold _ _ _ h fun r p hr => ?_
    split_ifs
    · exact hr
    · exact wf_benchOut _ _ hr
  · exact h

theorem acts_memCopyDone (id : Nat) (data : Bytes) : Acts (.memCopyDone id data) s (execMemCopyDone id data s) := by
  refine acts_memStep rfl _ fun d m h => ?_
  split_ifs
  · exact wf_copyEnd _ _ _ _ h
  · exact h

/-! ## The partition, boot, rings and writes by address -/

theorem acts_memPartWrite (k : Nat) (v : W32) : Acts (.memPartWrite k v) s (execMemPartWrite k v s) := by
  unfold execMemPartWrite
  split_ifs
  · exact acts_partWrite rfl _ _
  · exact acts_devStep id

theorem acts_memoryStageDone : Acts .memoryStageDone s (execMemoryStageDone s) := by
  refine acts_memStep rfl _ fun d m h => ?_
  dsimp only
  split_ifs
  · exact mwf_nil 0
  · exact h

theorem acts_hostReadError (r : Nat) (slot : Option Nat) : Acts (.hostReadError r slot) s (execHostReadError r slot s) := by
  refine acts_memStep rfl _ fun d m h => ?_
  cases slot with
  | none =>
    dsimp only
    split_ifs <;> exact h
  | some i =>
    dsimp only
    split_ifs
    · exact h
    · exact wf_hostDataLost _ _ _ h

theorem acts_functionLevelReset : Acts .functionLevelReset s (execFunctionLevelReset s) := by
  refine acts_memStep rfl _ fun d m h => ?_
  dsimp only
  split_ifs
  · exact h
  · exact wf_abortDesc _ _ h

theorem acts_registerWrite (a : Nat) (v : W32) : Acts (.registerWrite a v) s (execRegisterWrite a v s) := by
  unfold execRegisterWrite
  split_ifs
  · exact acts_devStep _
  · exact acts_devStep _
  · exact acts_ringWrite rfl _ _
  · exact acts_partWrite rfl _ _
  · exact acts_devStep _

end

/-- Every command answers a next state; those of `movesBytes` keep the form of memory, all others act on the device alone. -/
theorem exec_acts (c : Instr) (s : State) : Acts c s (exec c s) := by
  cases c <;> dsimp only [exec]
  case beatInEdge rising => exact acts_beatInEdge rising
  case beatMarker p => exact acts_beatMarker p
  case strikeDeadline k => exact acts_strikeDeadline k
  case twinCommitStrike k => exact acts_twinCommitStrike k
  case twStage => exact acts_twStage
  case assayLaunchStart id => exact acts_assayLaunchStart id
  case assayLaunchComplete id => exact acts_assayLaunchComplete id
  case assayRunLimit id => exact acts_assayRunLimit id
  case benchFault e => exact acts_benchFault e
  case benchDomainPowerLoss dom => exact acts_benchDomainPowerLoss dom
  case memCopyDone id data => exact acts_memCopyDone id data
  case memPartWrite k v => exact acts_memPartWrite k v
  case memWsWrite v => exact acts_partWrite rfl aMEM_WS v
  case memoryStageDone => exact acts_memoryStageDone
  case ringEnable r v | ringDrain r v | ringAbort r v => exact acts_ringWrite rfl r v
  case hostReadError r slot => exact acts_hostReadError r slot
  case functionLevelReset => exact acts_functionLevelReset
  case registerWrite a v => exact acts_registerWrite a v
  case asRed core f | asReds core f | asSoftmax core f w => exact acts_asRow rfl _ _ _
  case asJoin core | asLd8 core f | asLd16 core f | asLd32 core f | asLd64 core f => exact acts_liveAsExec rfl _ _ _
  case asEnd | asNop | asBr | asJmp | asCall | asJr | asFork | asBar | asGsync | asMov | asIadd | asIsub | asImul | asImin | asImax | asAnd
    | asOr | asXor | asShl | asShr | asSra | asAddi | asLi | asShfl | asSel | asFadd | asFsub | asFmul | asFma | asFnma | asFmin | asFmax
    | asFabs | asFneg | asDot2 | asDot4 | asDiv | asRcp | asSqrt | asRsqrt | asExp | asExp2 | asLog | asLog2 | asTanh | asSigmoid | asSin
    | asCos | asCvt | asCmp | asTail | asMovrm | asMovmr | asMand | asMor | asMxor | asMandn | asMnot | asRng | asSt8 | asSt16 | asSt32
    | asSt64 | asAtomAdd | asAtomMin | asAtomMax | asAtomAnd | asAtomOr | asAtomXor => exact acts_asCmd rfl _ _ _ _
  case bufferEccError p q e =>
    unfold execBufferEccError
    exact acts_devStep _
  case atomicSwapError top0 top1 read =>
    unfold execAtomicSwapError
    exact acts_devStep _
  all_goals exact acts_devStep _

/-- Settles O50: the outcome of `exec_acts`, which keeps the queue, and keeps memory where the command is not one of `movesBytes`. -/
theorem everyCommandCompletes : Obligations.EveryCommandCompletes := by
  unfold Obligations.EveryCommandCompletes
  intro c s
  rcases exec_acts c s with ⟨f, hdev⟩ | ⟨hmoves, f, hmem, -⟩
  · exact ⟨_, hdev, rfl, fun _ => rfl⟩
  · exact ⟨_, hmem, rfl, fun hno => absurd hmoves (by simp [hno])⟩

/-- Settles O51: a cycle of the clock leaves memory alone, and a command acts as `exec_acts` says. -/
theorem memoryStaysCanonical : Obligations.MemoryStaysCanonical := by
  unfold Obligations.MemoryStaysCanonical
  intro s hwf
  unfold step
  cases s.pending with
  | nil => exact ⟨_, rfl, hwf⟩
  | cons c rest =>
    rcases exec_acts c { s with pending := rest } with ⟨f, hdev⟩ | ⟨-, f, hmem, hkeeps⟩
    · exact ⟨_, hdev, hwf⟩
    · exact ⟨_, hmem, hkeeps hwf⟩

/-- Settles O49: the cases of `step` and of `Dev.idle`. -/
theorem stepTakesFront : Obligations.StepTakesFront := by
  unfold Obligations.StepTakesFront
  intro s c rest
  refine ⟨rfl, fun hempty => ?_, fun hlive => ?_, fun hdead => ?_⟩
  · simp only [step, hempty]
  · simp [Dev.idle, hlive]
  · simp [Dev.idle, hdead]

end Sys2Proof.Machine
end

section
/-! A device that is in reset or has stopped (R452, R471): what has no effect on it. -/

namespace Sys2Proof.Machine

/-- The commands that act in reset or on a stopped device: reset and power, the JTAG port, the local clock's source, the DRAM's own refresh, and
the accesses of BAR0 that are answered or marked (R452, R471). -/
def actsWhileDead : Instr → Bool
  | .resetAssert | .resetRelease | .powerLoss _ | .pwrGoodRise | .pwrGoodFall | .pt10mInPresence _ | .autoRefresh _ | .refreshWindowClose _
  | .jtagBypass | .jtagIdcode | .jtagSamplePreload _ | .jtagExtest _ | .jtagExtestPulse _ | .ptNowLoRead | .beatStampLoRead | .polLastLoRead _
  | .smQheadLoRead | .bar0BadAccess _ _ _ | .registerWrite _ _ => true
  | _ => false

section
variable {s : State}

theorem next_of_dev {f : Dev → Dev} (h : f s.dev = s.dev) : devStep f s = .next s := by simp [devStep, h]

theorem next_of_mem {f : Dev → List Host.Cell → Dev × List Host.Cell} (h : f s.dev s.mem = (s.dev, s.mem)) : memStep f s = .next s := by
  simp [memStep, h]

theorem next_of_when {b : Dev → Bool} {f : Dev → Dev → Dev} (h : b s.dev = false) : devStep (fun d => d.when (b d) (f d)) s = .next s :=
  next_of_dev (by simp [h])

end

/-! ## What the operations that commands share do on a device that is not live -/

section
variable {d : Dev} (hdead : d.live = false)
include hdead

theorem Dev.takeFetched_of_not_live (r : Nat) (p : Fetched → Bool) : d.takeFetched r p = none := by simp [Dev.takeFetched, hdead]

theorem Dev.takeTw_of_not_live (op : Nat) : d.takeTw op = none := by
  unfold Dev.takeTw
  split <;> simp [hdead]

theorem Dev.takeFlowCtx_of_not_live (r op : Nat) : d.takeFlowCtx r op = none := Dev.takeFetched_of_not_live hdead _ _

theorem Dev.takeShardIo_of_not_live (r : Nat) (p : Nat → Bool) : d.takeShardIo r p = none := Dev.takeFetched_of_not_live hdead _ _

theorem Dev.takeModel_of_not_live (r : Nat) (undef : Bool) : d.takeModel r undef = none := Dev.takeFetched_of_not_live hdead _ _

theorem Dev.groupSetDesc_of_not_live (r : Nat) (del : Bool) (im : Bytes) : d.groupSetDesc r del im = d := by
  simp [Dev.groupSetDesc, Dev.takeFetched_of_not_live hdead]

theorem Dev.loadDesc_of_not_live (r : Nat) (unload : Bool) (im : Bytes) : d.loadDesc r unload im = d := by
  simp [Dev.loadDesc, Dev.takeFetched_of_not_live hdead]

theorem Dev.shardDesc_of_not_live (r kind : Nat) (im : Bytes) : d.shardDesc r kind im = d := by
  simp [Dev.shardDesc, Dev.takeFetched_of_not_live hdead]

theorem Dev.srCommand_of_not_live (g op : Nat) (f : SrFields) : d.srCommand g op f = d := by simp [Dev.srCommand, hdead]

theorem Dev.rcStep_of_not_live (sm : Nat) (f : RcRun → RcRun) : d.rcStep sm f = d := by simp [Dev.rcStep, hdead]

theorem Dev.clDesc_of_not_live (r op : Nat) : d.clDesc r op = d := by simp [Dev.clDesc, Dev.takeFetched_of_not_live hdead]

theorem Dev.asExec_of_not_live (m : List Host.Cell) (i : Instr) (core : Core) (lock lane0 : Bool) (f : AsCtx → AsRes) :
    d.asExec m i core lock lane0 f = (d, m) := asExec_none (by simp [Dev.asCtx?, hdead]) lock lane0 f

theorem Dev.polling_of_not_live : d.polling = false := by simp [Dev.polling, hdead]

theorem Dev.lineReads_of_not_live (stack line : Nat) : d.lineReads stack line = false := by simp [Dev.lineReads, hdead]

theorem Dev.fetch_of_not_live (r : Nat) (bytes : Bytes) : d.fetch r bytes = d := Dev.fetch_of_passesOver (by simp [Dev.passesOver, hdead])

end

section
variable {s : State} (hdead : s.dev.live = false)
include hdead

theorem next_of_barWrite {a : Nat} {v : W32} {eff : W32 → Dev → Dev} : devStep (fun d => d.barWrite a v eff) s = .next s :=
  next_of_dev (Dev.barWrite_of_not_live hdead eff)

theorem next_of_whenBarWrite {b : Bool} {a : Nat} {v : W32} {eff : W32 → Dev → Dev} :
    devStep (fun d => d.when b (fun d => d.barWrite a v eff)) s = .next s :=
  next_of_dev (by simp [Dev.when, Dev.barWrite_of_not_live hdead])

theorem next_of_asCmd {i : Instr} {core : Core} {lock : Bool} {f : AsCtx → AsRes} : asCmd i core lock f s = .next s :=
  next_of_mem (Dev.asExec_of_not_live hdead _ _ _ _ _ _)

theorem next_of_asRow {i : Instr} {core : Core} {f : AsCtx → AsRes} : asRow i core f s = .next s :=
  next_of_mem (Dev.asExec_of_not_live hdead _ _ _ _ _ _)

theorem next_of_liveAsExec {i : Instr} {core : Core} {f : AsCtx → AsRes} :
    memStep (fun d m => if d.live then d.freeNext.asExec m i core false false f else (d, m)) s = .next s := next_of_mem (by simp [hdead])

theorem ringWrite_of_not_live (r : Nat) (v : W32) : ringWrite r v s = .next s :=
  next_of_mem (by simp [Dev.barSees_of_not_live hdead, Dev.barMarks_of_not_live hdead])

theorem partWrite_of_not_live (a : Nat) (v : W32) : partWrite a v s = .next s := by
  rw [partWrite_of_barSees_none (Dev.barSees_of_not_live hdead), Dev.barMarks_of_not_live hdead]

theorem execMemPartWrite_of_not_live (k : Nat) (v : W32) : execMemPartWrite k v s = .next s := by
  simp [execMemPartWrite, partWrite_of_not_live hdead]

theorem execSourceLost_of_not_live : execSourceLost s = .next s := by
  simp only [execSourceLost, devStep, hdead, Bool.false_and, Dev.when_false]

theorem execWsDataEmit_of_not_live (id : Nat) : execWsDataEmit id s = .next s := by
  refine next_of_dev ?_
  dsimp only
  split
  · rfl
  · split
    · simp [hdead]
    · rfl

theorem execBufferEccError_of_not_live (p q : Nat) (e : EccError) : execBufferEccError p q e s = .next s := by
  unfold execBufferEccError
  refine next_of_dev ?_
  dsimp only
  split
  · simp [hdead]
  · split <;> simp [hdead]

/-- A device that is in reset or has stopped does nothing on any other command. -/
theorem exec_of_not_live (c : Instr) : exec c s = .next s ∨ actsWhileDead c = true := by
  cases c <;> dsimp only [exec]
  case resetAssert | resetRelease | powerLoss | pwrGoodRise | pwrGoodFall | pt10mInPresence | autoRefresh | refreshWindowClose | jtagBypass
    | jtagIdcode | jtagSamplePreload | jtagExtest | jtagExtestPulse | ptNowLoRead | beatStampLoRead | polLastLoRead | smQheadLoRead
    | bar0BadAccess | registerWrite => exact .inr rfl
  all_goals apply Or.inl
  case ptStep | ptRateLoWrite | ptRateHiWrite | ptCtrlWrite | ptCmpResWrite | beatStatClr | lnUnfence | lnCntClr | rtCntClr | lrCntClr | svCntClr
    | ntClr | smCfgWrite | smCntClr | clCntClr | asProfileWrite | asResvWrite | asCntClr | upCntClr | memCntClr | pollEnable | hiCntClr
    | repCompatWrite | twCfgWrite | twCntClr | dpAck | dpFenceClr | dpCntClr | ctlLockSet => exact next_of_barWrite hdead
  case geCtrlWrite | geSwapHiWrite | lnGroupCfgWrite | dtShadowWrite | spShadowWrite | qtPortQfWrite | qtPortPcWrite | qtPortRsqWrite | qtUnitWrite
    | fdMapWrite | policerCommit | svQuantWrite | svClassLenWrite | svGateBindWrite | rcpWrite | upPoolWrite | memRefWrite =>
    exact next_of_whenBarWrite hdead
  case ppsEdge | timeMarker | timeMarkerSend | gateCycleStart | gateEntryBoundary | ppsOutPulse | canaryToggle | canaryGapToggle
    | blockLockGained | blockLockLost | alignSend | align | elasticIdleAdjust | flitReceive | flitSend | retryReq | retryStart | retryReqTimeout
    | ackTimeout | train | lossOfSignal | lossOfLock | laneLossFence | laneLockTimeout | bringupTimeout | qualifyDone | packetArrive
    | sorterClassify | rsqGapTimeout | heldPacketTimeout | fencedNak | pruned | oldBankRetire | unitCellTake | flowCtxFetch | packetDepart | smPart
    | smGrant | tallyGrant | smAbort | smelterFault | clData | clCount | clDone | updatePiece | deputyWatchdogExpiry | thermalThrottleStep
    | loadSample | surveyorMeasurement | vddStep | slackAlarm | railCheck | clockLockLoss | sorterFault | switchTableError | codeDigestCheck
    | powerDomainUp | romStageDone | firmwareStageDone | boardStageDone | unitsStageDone | signalAndLockRegained | msixVectorUnmask | shardIoDone
    | wsModelReadDone => exact next_of_when (by simp [hdead])
  case srEnd | srDrop | srLdh | srLdi | srLui | srAdd | srSub | srAnd | srOr | srXor | srShl | srShr | srHash | srLut | srJeq | srJne | srJlt
    | srJge | srJmp | srOut => exact next_of_dev (Dev.srCommand_of_not_live hdead _ _ _)
  case rcNop | rcLdin | rcLdacc | rcStacc | rcRed | rcAdd | rcMul | rcMax | rcMin | rcAbs | rcNeg | rcLdk | rcEmit =>
    exact next_of_dev (Dev.rcStep_of_not_live hdead _ _)
  case allreduce | reduce | reduceScatter | allgather | broadcast | alltoall | alltoallv | barrier | reduceUpdateGather =>
    exact next_of_dev (Dev.clDesc_of_not_live hdead _ _)
  case asEnd | asNop | asBr | asJmp | asCall | asJr | asFork | asBar | asGsync | asMov | asIadd | asIsub | asImul | asImin | asImax | asAnd | asOr
    | asXor | asShl | asShr | asSra | asAddi | asLi | asShfl | asSel | asFadd | asFsub | asFmul | asFma | asFnma | asFmin | asFmax | asFabs | asFneg
    | asDot2 | asDot4 | asDiv | asRcp | asSqrt | asRsqrt | asExp | asExp2 | asLog | asLog2 | asTanh | asSigmoid | asSin | asCos | asCvt | asCmp
    | asTail | asMovrm | asMovmr | asMand | asMor | asMxor | asMandn | asMnot | asRng | asSt8 | asSt16 | asSt32
    | asSt64 | asAtomAdd | asAtomMin | asAtomMax | asAtomAnd | asAtomOr | asAtomXor => exact next_of_asCmd hdead
  case tableSwap | assayRun | shardSched | shardResolve | memCopy | wsSend | nop | twinCommit | twinSync | twinPromote | fwUpdate
    | fwUpdateRaise | attest =>
    exact next_of_dev (by simp [Dev.takeFetched_of_not_live hdead])
  case twHello | twPrep | twReady | twGo | twOp | twPiece | twHall | twDecide => exact next_of_dev (by simp [Dev.takeTw_of_not_live hdead])
  case launchStrike | commitStrike | tableDrainStrike | tableSwapStrike | twinPromoteStrike | refreshWindowOpen | twinGoDeadline | twinHallTimeout =>
    exact next_of_dev (by simp [hdead])
  case fenceRelease | msixModTimer =>
    refine next_of_dev ?_
    dsimp only
    split <;> simp [hdead]
  case tallyTimeout | orderTimeout | wsSendStart | wsSendComplete | maintWindowOpen | maintWindowClose | attestSign
    | fwUpdateDone =>
    refine next_of_dev ?_
    split <;> simp [hdead]
  case beatInEdge | beatMarker | strikeDeadline | twinCommitStrike | assayLaunchStart | assayLaunchComplete | assayRunLimit | benchFault
    | hostReadError | functionLevelReset | benchDomainPowerLoss | memoryStageDone | memCopyDone =>
    exact next_of_mem (by simp [hdead])
  case asRed | asReds | asSoftmax => exact next_of_asRow hdead
  case asJoin | asLd8 | asLd16 | asLd32 | asLd64 => exact next_of_liveAsExec hdead
  case flowCtxWrite | flowCtxRead | flowCtxZero => exact next_of_dev (by simp [Dev.takeFlowCtx_of_not_live hdead])
  case shardIoWrite | shardIoRead | shardIoSeal => exact next_of_dev (by simp [Dev.takeShardIo_of_not_live hdead])
  case wsModel | wsModelUndefine => exact next_of_dev (by simp [Dev.takeModel_of_not_live hdead])
  case groupSet | groupDelete => exact next_of_dev (Dev.groupSetDesc_of_not_live hdead _ _ _)
  case assayLoad | assayUnload => exact next_of_dev (Dev.loadDesc_of_not_live hdead _ _ _)
  case shardDefine | shardDelete | shardFlagsOnly => exact next_of_dev (Dev.shardDesc_of_not_live hdead _ _ _)
  case bufferEccError p q e => exact execBufferEccError_of_not_live hdead p q e
  case redMemEccError e owner =>
    unfold execRedMemEccError
    exact next_of_when (by simp [hdead])
  case sourceLost => exact execSourceLost_of_not_live hdead
  case scrubLine | stackEccError => exact next_of_when (by simp [Dev.lineReads_of_not_live hdead])
  case wsDataEmit id => exact execWsDataEmit_of_not_live hdead id
  case memPartWrite k v => exact execMemPartWrite_of_not_live hdead k v
  case memWsWrite v => exact partWrite_of_not_live hdead aMEM_WS v
  case doorbellPoll top0 top1 seconds doorbells =>
    unfold execDoorbellPoll
    exact next_of_when (by simp [Dev.polling_of_not_live hdead])
  case atomicSwapError top0 top1 read =>
    unfold execAtomicSwapError
    exact next_of_when (by simp [Dev.polling_of_not_live hdead])
  case descriptorFetch => exact next_of_dev (by simp [Dev.when, Dev.fetch_of_not_live hdead])
  case ringEnable r v | ringDrain r v | ringAbort r v => exact ringWrite_of_not_live hdead r v
  case twStage => exact next_of_mem (by simp [Dev.takeTw_of_not_live hdead])

end

/-! ## What a stopped device answers -/

@[simp] theorem Dev.stopped_emit (d : Dev) (o : Out) : (d.emit o).stopped = d.stopped := rfl

theorem Dev.badAccess_of_stopped {d : Dev} (hstopped : d.stopped = true) (write : Bool) (a : Nat) :
    d.badAccess write a = if write then d else d.emit (.readValue a 0) := by
  cases write <;> simp [Dev.badAccess, hstopped]

section
variable {s : State} (hstopped : s.dev.stopped = true)
include hstopped

/-- A stopped device answers a read of a latched pair with the value at most: nothing is latched. -/
theorem gives_out_of_read {c : Instr} {b : Dev → Bool} {o : Dev → Out} {f : Dev → Dev}
    (h : exec c s = devStep (fun d => d.when (b d) fun d => if (d.emit (o d)).stopped then d.emit (o d) else f d) s) :
    Gives c s fun d => d = { s.dev with out := d.out } := by
  refine gives_dev h ?_
  cases b s.dev
  · rfl
  · simp only [Dev.when_true, Dev.stopped_emit, hstopped, if_true]
    rfl

theorem gives_out_of_badAccess (c : Instr) (b : Bool) (write : Bool) (a : Nat)
    (h : exec c s = devStep (fun d => d.when b fun d => d.badAccess write a) s) : Gives c s fun d => d = { s.dev with out := d.out } := by
  refine gives_dev h ?_
  cases b
  · rfl
  · rw [Dev.when_true, Dev.badAccess_of_stopped hstopped]
    cases write <;> rfl

theorem gives_out_of_registerWrite (a : Nat) (v : W32) : Gives (.registerWrite a v) s fun d => d = { s.dev with out := d.out } := by
  have hdead := Dev.not_live_of_stopped hstopped
  by_cases halign : a % 4 = 0
  · exact ⟨s.dev, exec_registerWrite_of_not_live hdead halign, rfl⟩
  · by_cases hbar2 : 0x10000000 ≤ a
    · refine ⟨s.dev, ?_, rfl⟩
      rw [exec_registerWrite, execRegisterWrite, if_pos hbar2]
      exact next_of_dev (by simp [hdead])
    · refine gives_out_of_badAccess hstopped _ s.dev.perst true a ?_
      rw [exec_registerWrite, execRegisterWrite, if_neg hbar2, if_pos halign]
      rfl

end

/-- Settles O53: a command that acts on a device that is not live is one of those named, and what a stopped device does on the others is in
`gives_out_of_read`, `gives_out_of_badAccess` and `gives_out_of_registerWrite`. -/
theorem stoppedDevice : Obligations.StoppedDevice := by
  unfold Obligations.StoppedDevice
  intro s c hdead
  constructor
  · intro hassert hrelease hloss hrise hfall h10m hrefresh hclose hbypass hidcode hsample hextest hpulse hnow hstamp hpol hqhead hbad hwrite
    refine (exec_of_not_live hdead c).resolve_right fun hacts => ?_
    unfold actsWhileDead at hacts
    split at hacts
    · exact hassert rfl
    · exact hrelease rfl
    · exact hloss _ rfl
    · exact hrise rfl
    · exact hfall rfl
    · exact h10m _ rfl
    · exact hrefresh _ rfl
    · exact hclose _ rfl
    · exact hbypass rfl
    · exact hidcode rfl
    · exact hsample _ rfl
    · exact hextest _ rfl
    · exact hpulse _ rfl
    · exact hnow rfl
    · exact hstamp rfl
    · exact hpol _ rfl
    · exact hqhead rfl
    · exact hbad _ _ _ rfl
    · exact hwrite _ _ rfl
    · exact Bool.false_ne_true hacts
  · rintro hstopped (rfl | rfl | ⟨i, rfl⟩ | rfl | ⟨w, a, n, rfl⟩ | ⟨a, v, rfl⟩)
    · exact gives_out_of_read hstopped rfl
    · exact gives_out_of_read hstopped rfl
    · exact gives_out_of_read hstopped (show execPolLastLoRead i s = _ from rfl)
    · exact gives_out_of_read hstopped rfl
    · exact gives_out_of_badAccess hstopped _ (s.dev.perst && !barSizeOk a n) w a rfl
    · exact gives_out_of_registerWrite hstopped a v

end Sys2Proof.Machine
end

section
/-! Devices that differ in some registers alone, and the bits that a write of a register stores. -/

namespace Sys2Proof.Machine

/-! ## Devices that differ in some registers alone -/

/-- Devices with the same registers read the same. -/
theorem Dev.rg_congr {d d1 : Dev} (h : d1.regs = d.regs) (a : Nat) : d1.rg a = d.rg a := by rw [Dev.rg, Dev.rg, h]

theorem Dev.SameBut.refl (d : Dev) (as : List Nat) : d.SameBut d as := ⟨rfl, fun _ _ => rfl⟩

theorem Dev.SameBut.trans {d d1 d2 : Dev} {as : List Nat} (h : d2.SameBut d1 as) (h1 : d1.SameBut d as) : d2.SameBut d as := by
  obtain ⟨hdev, hregs⟩ := h
  obtain ⟨hdev1, hregs1⟩ := h1
  refine ⟨?_, fun a ha => (hregs a ha).trans (hregs1 a ha)⟩
  rw [hdev, hdev1]

theorem Dev.SameBut.mono {d d1 : Dev} {as bs : List Nat} (h : d1.SameBut d as) (hsub : ∀ a ∈ as, a ∈ bs) : d1.SameBut d bs :=
  ⟨h.1, fun a ha => h.2 a fun hmem => ha (hsub a hmem)⟩

/-- The unit's own state beside the registers. -/
theorem Dev.SameBut.withTm {d d1 : Dev} {as : List Nat} (h : d1.SameBut d as) (t : TimeSt) :
    Dev.SameBut { d1 with tm := t } { d with tm := t } as := by
  obtain ⟨hdev, hregs⟩ := h
  refine ⟨?_, hregs⟩
  rw [hdev]

theorem Dev.SameBut.of_eq {d d1 : Dev} {as : List Nat} (h : d1 = d) : d1.SameBut d as := h ▸ Dev.SameBut.refl d1 as

section
variable {as : List Nat} {a : Nat} (h : a ∈ as) (d : Dev)
include h

theorem Dev.sameBut_wr (v : W32) : (d.wr a v).SameBut d as := ⟨rfl, fun _ hb => d.rg_wr_ne v fun e => hb (e ▸ h)⟩

theorem Dev.sameBut_sf (lo w x : Nat) : (d.sf a lo w x).SameBut d as := d.sameBut_wr h _

theorem Dev.sameBut_sb (i : Nat) (b : Bool) : (d.sb a i b).SameBut d as := d.sameBut_wr h _

theorem Dev.sameBut_plainWrite (v : W32) : (Dev.plainWrite a v d).SameBut d as :=
  (plainWrite_same a v d).mono fun b hb => by
    obtain rfl := List.mem_singleton.mp hb
    exact h

end

/-! ## The bits that a write stores -/

/-- A field that a mask covers comes from the value written. -/
theorem fld_stored {old new m : W32} {lo w : Nat} (h : ∀ i, i < w → m.getLsbD (lo + i) = true) :
    fld ((old &&& ~~~m) ||| (new &&& m)) lo w = fld new lo w := by
  refine fld_congr fun i hi => ?_
  have hbit := h i hi
  have hlt : lo + i < 32 := BitVec.lt_of_getLsbD hbit
  simp only [BitVec.getLsbD_or, BitVec.getLsbD_and, BitVec.getLsbD_not, hbit, hlt, decide_true, Bool.not_true, Bool.and_false, Bool.false_or,
    Bool.and_true]

/-- A register that stores all its bits. -/
theorem stored_all (old new : W32) : (old &&& ~~~0xFFFFFFFF) ||| (new &&& 0xFFFFFFFF) = new := by
  simp [and_all1]

/-- A register of which software writes bits, none of them RW1C, takes the field that its row lets through. -/
theorem Dev.gf_plainWrite {a : Nat} {r : RegRow} (hrow : regRow a = some r) (hw1c : r.w1c = 0) {lo w : Nat}
    (hmask : ∀ i, i < w → (r.rw ||| r.rwl).getLsbD (lo + i) = true) (v : W32) (d : Dev) : (Dev.plainWrite a v d).gf a lo w = fld v lo w := by
  rw [plainWrite_eq hrow hw1c, Dev.gf, Dev.rg_wr_self, fld_stored hmask]

theorem Dev.gb_plainWrite {a : Nat} {r : RegRow} (hrow : regRow a = some r) (hw1c : r.w1c = 0) {i : Nat}
    (hmask : (r.rw ||| r.rwl).getLsbD i = true) (v : W32) (d : Dev) : (Dev.plainWrite a v d).gb a i = bitAt v i := by
  rw [Dev.gb_eq_gf, bitAt_fld, Dev.gf_plainWrite hrow hw1c fun j hj => by
    obtain rfl : j = 0 := by omega
    exact hmask]

/-- A register of which software writes every bit holds what is written. -/
theorem Dev.rg_plainWrite_all {a : Nat} {r : RegRow} (hrow : regRow a = some r) (hw1c : r.w1c = 0) (hall : r.rw ||| r.rwl = 0xFFFFFFFF) (v : W32)
    (d : Dev) : (Dev.plainWrite a v d).rg a = v := by
  rw [plainWrite_eq hrow hw1c, Dev.rg_wr_self, hall, stored_all]

end Sys2Proof.Machine
end

section
/-! Plant time (chapter 2): the count after a step, PT_STAT as a state leaves it, and the writes of the plant-time registers. -/

namespace Sys2Proof.Machine

/-! ## Words and the accumulator -/

/-- Two words as one number of 64 bits, the low one first. -/
theorem ofNat_lo_hi (lo hi : W32) : BitVec.ofNat 64 (lo.toNat + 2 ^ 32 * hi.toNat) = hi ++ lo := by
  apply BitVec.eq_of_toNat_eq
  rw [BitVec.toNat_append, BitVec.toNat_ofNat, Nat.shiftLeft_eq, Nat.mul_comm hi.toNat, ← Nat.two_pow_add_eq_or_of_lt lo.isLt]
  omega

/-- A rate of 40 bits from its low word and the byte above it. -/
theorem toNat_rate (lo v : W32) : lo.toNat + 2 ^ 32 * fld v 0 8 = (v.setWidth 8 ++ lo : BitVec 40).toNat := by
  rw [BitVec.toNat_append, Nat.shiftLeft_eq, Nat.mul_comm (v.setWidth 8).toNat, ← Nat.two_pow_add_eq_or_of_lt lo.isLt, BitVec.toNat_setWidth]
  simp only [fld, nfld, pow_zero, Nat.div_one]
  omega

/-- A signed number of ticks is added above the fraction of the accumulator. -/
theorem stepped_acc (a : BitVec 96) (t : BitVec 64) :
    BitVec.ofInt 96 (Int.ofNat a.toNat + t.toInt * Int.ofNat (2 ^ 32)) = a + t.signExtend 96 <<< 32 := by
  have hscale : BitVec.ofInt 96 (Int.ofNat (2 ^ 32)) = BitVec.twoPow 96 32 := by decide
  rw [BitVec.ofInt_add, BitVec.ofInt_mul, hscale, BitVec.shiftLeft_eq_mul_twoPow, Int.ofNat_eq_natCast, BitVec.ofInt_natCast, BitVec.ofNat_toNat,
    BitVec.setWidth_eq, BitVec.signExtend]

/-- Plant time after a step of the count. -/
theorem now_stepped (a : BitVec 96) (t : BitVec 64) :
    BitVec.ofNat 64 ((BitVec.ofInt 96 (Int.ofNat a.toNat + t.toInt * Int.ofNat (2 ^ 32))).toNat / 2 ^ 32) =
      BitVec.ofNat 64 (a.toNat / 2 ^ 32) + t := by
  apply BitVec.eq_of_toNat_eq
  rw [BitVec.toNat_add, BitVec.toNat_ofNat, BitVec.toNat_ofNat, BitVec.toNat_ofInt, BitVec.toInt_eq_toNat_cond]
  have ha := a.isLt
  have ht := t.isLt
  simp only [Int.ofNat_eq_natCast]
  split <;> omega

/-! ## PT_STAT -/

theorem Dev.sameBut_ptState (d : Dev) (st : Nat) : (d.ptState st).SameBut d [aPT_STAT] :=
  (Dev.sameBut_sf (by simp) _ _ _ _).trans (Dev.sameBut_sf (by simp) _ _ _ _)

theorem Dev.state_ptState (d : Dev) (st : Nat) : (d.ptState st).gf aPT_STAT 0 3 = st % 8 := by
  rw [Dev.ptState, Dev.gf_sf_other _ _ _ _ _ _ _ (by omega) (by omega), Dev.gf_sf_self _ _ _ _ _ (by omega)]
  rfl

theorem Dev.tm_ptState (d : Dev) (st : Nat) : (d.ptState st).tm = d.tm := rfl

/-! ## PT_STEP (R25) -/

/-- The count stepped by a signed number of ticks, its lock to be gained anew (R20, R25). -/
def Dev.stepped (d : Dev) (ticks : W64) : Dev :=
  { d with tm := { d.tm with acc := BitVec.ofInt 96 (Int.ofNat d.tm.acc.toNat + ticks.toInt * Int.ofNat (2 ^ 32)), leftUnset := true, lockRun := 0 } }

theorem Dev.rg_stepped (d : Dev) (ticks : W64) (a : Nat) : (d.stepped ticks).rg a = d.rg a := Dev.rg_congr rfl a

theorem Dev.now_stepped (d : Dev) (ticks : W64) : (d.stepped ticks).now = d.now + ticks := by
  rw [Dev.now, Dev.now, ← Sys2Proof.Machine.now_stepped]
  rfl

theorem ptStepEffect_of_armed {w : W32} {d : Dev} (h : d.tm.cmps ≠ []) : ptStepEffect w d = (d.sb aPT_STAT 9 true).report 0 1 0 0 :=
  if_pos (by simp [h])

/-- What PT_STEP_HI leaves while no comparator is armed. -/
theorem ptStepEffect_of_unarmed {w : W32} {d : Dev} (h : d.tm.cmps = []) :
    ptStepEffect w d = (d.stepped (w ++ d.tm.stepLo)).ptState ((d.stepped (w ++ d.tm.stepLo)).stateOf (d.gf aPT_CTRL 0 3)) := by
  unfold ptStepEffect Dev.stepped
  rw [if_neg (by simp [h]), ofNat_lo_hi]
  rfl

/-- The state after a step or a choice of source once the count has left UNSET (R20, R21, R26). -/
theorem Dev.stateOf_of_leftUnset {d : Dev} (h : d.tm.leftUnset = true) (src : Nat) :
    d.stateOf src = if src = 0 ∨ src = 4 then 1 else if d.tm.lost then 4 else 2 := by
  by_cases h0 : src = 0
  · simp [Dev.stateOf, h0]
  · simp [Dev.stateOf, h, h0]

theorem Dev.stateOf_lt (d : Dev) (src : Nat) : d.stateOf src < 8 := by
  unfold Dev.stateOf
  split_ifs <;> omega

/-! ## Which source is selected -/

/-- The servo writes the rate under the three sources that it disciplines (R22, R49). -/
theorem ptRateLoEffect_eq (w : W32) (d : Dev) :
    ptRateLoEffect w d = if d.gf aPT_CTRL 0 3 ∈ [1, 2, 3] then d else { d with tm := { d.tm with loHeld := some w } } := by
  simp [ptRateLoEffect]

/-- The 40-bit rate that PT_RATE_HI takes: with the held low word, or with that of the rate in force (R49). -/
def Dev.wantedRate (d : Dev) (w : W32) : BitVec 40 := w.setWidth 8 ++ d.tm.loHeld.getD (d.tm.rate.setWidth 32)

theorem Dev.toNat_wantedRate (d : Dev) (w : W32) :
    (d.tm.loHeld.getD (BitVec.ofNat 32 d.tm.rate.toNat)).toNat + 2 ^ 32 * fld w 0 8 = (d.wantedRate w).toNat := toNat_rate _ w

theorem ptRateHiEffect_disciplined {w : W32} {d : Dev} (h : d.gf aPT_CTRL 0 3 ∈ [1, 2, 3]) : ptRateHiEffect w d = d := by
  have : d.gf aPT_CTRL 0 3 = 1 ∨ d.gf aPT_CTRL 0 3 = 2 ∨ d.gf aPT_CTRL 0 3 = 3 := by simpa using h
  simp [ptRateHiEffect, this]

section
variable {w : W32} {d : Dev}

theorem ptRateHiEffect_free (h : d.gf aPT_CTRL 0 3 = 0) : ptRateHiEffect w d = { d with tm := d.tm.setRate (d.wantedRate w).toNat 0 } := by
  simp only [ptRateHiEffect, Dev.toNat_wantedRate]
  rw [if_neg (by omega), if_neg (by omega)]

variable (h : d.gf aPT_CTRL 0 3 = 4)
include h

/-- Under HOST the rate stays within the servo's bound (R25). -/
theorem ptRateHiEffect_host (hlo : nominalRate - d.slewDelta ≤ (d.wantedRate w).toNat)
    (hhi : (d.wantedRate w).toNat ≤ nominalRate + d.slewDelta) :
    ptRateHiEffect w d = { d with tm := d.tm.setRate (d.wantedRate w).toNat 0 } := by
  simp only [ptRateHiEffect, Dev.toNat_wantedRate]
  rw [if_neg (by omega), if_neg (by omega)]

theorem ptRateHiEffect_below (hlow : (d.wantedRate w).toNat < nominalRate - d.slewDelta) :
    ptRateHiEffect w d = ({ d with tm := d.tm.setRate (nominalRate - d.slewDelta) 0 }.sb aPT_STAT 10 true).report 0 1 0 0 := by
  simp only [ptRateHiEffect, Dev.toNat_wantedRate]
  rw [if_neg (by omega), if_pos ⟨h, .inl hlow⟩, if_pos (by omega)]

theorem ptRateHiEffect_above (hhigh : nominalRate + d.slewDelta < (d.wantedRate w).toNat) :
    ptRateHiEffect w d = ({ d with tm := d.tm.setRate (nominalRate + d.slewDelta) 0 }.sb aPT_STAT 10 true).report 0 1 0 0 := by
  simp only [ptRateHiEffect, Dev.toNat_wantedRate]
  rw [if_neg (by omega), if_pos ⟨h, .inr hhigh⟩, if_neg (by omega)]

end

/-! ## PT_CTRL and PT_CMP_RES (R22, R42) -/

theorem regRow_aPT_CTRL : regRow aPT_CTRL = some (r1 0x20008 0 0xff07 0 0) := by decide

theorem regRow_aPT_CMP_RES : regRow aPT_CMP_RES = some (r1 0x20044 0x7f7f7f7f 0 0 0xa020800) := by decide

theorem ptCtrlEffect_reserved {w : W32} {d : Dev} (h : 4 < fld w 0 3) : ptCtrlEffect w d = d.sb aPT_STAT 11 true := if_pos h

/-- A source that can be selected: the two fields are stored; beside them PT_STAT and the unit's own discipline change. -/
theorem ptCtrlEffect_selects {w : W32} (d : Dev) (h : fld w 0 3 ≤ 4) :
    (ptCtrlEffect w d).SameBut { d with tm := (ptCtrlEffect w d).tm } [aPT_CTRL, aPT_STAT] ∧
    (ptCtrlEffect w d).rg aPT_CTRL = (Dev.plainWrite aPT_CTRL w d).rg aPT_CTRL ∧
    (ptCtrlEffect w d).tm.acc = d.tm.acc ∧ (ptCtrlEffect w d).tm.cmps = d.tm.cmps ∧ (ptCtrlEffect w d).tm.rate = d.tm.rate := by
  have hplain : (Dev.plainWrite aPT_CTRL w d).SameBut d [aPT_CTRL, aPT_STAT] := d.sameBut_plainWrite (by simp) w
  have htm : (Dev.plainWrite aPT_CTRL w d).tm = d.tm := by rw [hplain.1]
  unfold ptCtrlEffect
  rw [if_neg (by omega)]
  dsimp only
  split_ifs
  · refine ⟨(Dev.SameBut.mono (Dev.sameBut_ptState _ _) (by simp)).trans (hplain.withTm _), ?_, ?_⟩
    · exact (Dev.sameBut_ptState _ _).2 _ (by decide)
    · simp [Dev.tm_ptState, htm]
  · exact ⟨hplain.trans (.of_eq (by rw [htm])), rfl, by simp [htm]⟩
  · refine ⟨(Dev.SameBut.mono (Dev.sameBut_ptState _ _) (by simp)).trans ((Dev.sameBut_sb (by simp) _ _ _).trans (hplain.withTm _)), ?_, ?_⟩
    · rw [(Dev.sameBut_ptState _ _).2 _ (by decide), Dev.rg_sb_ne _ _ _ (by decide)]
      rfl
    · simp [Dev.tm_ptState, htm]

/-- PT_CMP_RES as R42 judges it: the four reservations, and what the users hold beyond them. -/
theorem ptCmpResEffect_eq (w : W32) (d : Dev) :
    let n := fun u => fld w (8 * u) 7
    ptCmpResEffect w d =
      if 64 < n 0 + n 1 + n 2 + n 3 ∨
        64 - (n 0 + n 1 + n 2 + n 3) < (d.cmpHeld 0 - n 0) + (d.cmpHeld 1 - n 1) + (d.cmpHeld 2 - n 2) + (d.cmpHeld 3 - n 3)
      then d else d.wr aPT_CMP_RES ((d.rg aPT_CMP_RES &&& ~~~0x7F7F7F7F) ||| (w &&& 0x7F7F7F7F)) := by
  have hsum (f : Nat → Nat) : ((List.range 4).map f).sum = f 0 + f 1 + f 2 + f 3 := by
    simp [List.range_succ, Nat.add_assoc]
  simp only [ptCmpResEffect, hsum, plainWrite_eq regRow_aPT_CMP_RES rfl]
  rfl

/-- Settles O1: each clause is the effect of its register on the value that reaches it. -/
theorem plantTimeWritesAct : Obligations.PlantTimeWritesAct := by
  unfold Obligations.PlantTimeWritesAct
  intro s v w d0
  refine ⟨fun hsees hunarmed => gives_bar rfl hsees ?_, fun hsees harmed => gives_bar rfl hsees (ptStepEffect_of_armed harmed),
    fun hsees => gives_bar rfl hsees (ptRateLoEffect_eq w d0), fun hsees hfree => gives_bar rfl hsees ?_,
    fun hsees hhost => ⟨fun hlo hhi => gives_bar rfl hsees (ptRateHiEffect_host hhost hlo hhi),
      fun hlow => gives_bar rfl hsees (ptRateHiEffect_below hhost hlow), fun hhigh => gives_bar rfl hsees (ptRateHiEffect_above hhost hhigh)⟩,
    fun hsees hsrc => gives_bar rfl hsees (ptRateHiEffect_disciplined hsrc), fun hsees hres => gives_bar rfl hsees (ptCtrlEffect_reserved hres),
    fun hsees hsel => gives_bar rfl hsees ?_, fun hsees => gives_bar rfl hsees (ptCmpResEffect_eq w d0), fun hsees => gives_bar rfl hsees rfl⟩
  · rw [ptStepEffect_of_unarmed hunarmed, Dev.state_ptState, Nat.mod_eq_of_lt (Dev.stateOf_lt _ _)]
    have hsame := Dev.sameBut_ptState (d0.stepped (w ++ d0.tm.stepLo)) ((d0.stepped (w ++ d0.tm.stepLo)).stateOf (d0.gf aPT_CTRL 0 3))
    refine ⟨?_, ?_, ?_, fun a ha => ?_⟩
    · rw [← stepped_acc]
      exact hsame.1
    · exact Dev.now_stepped d0 (w ++ d0.tm.stepLo)
    · exact Dev.stateOf_of_leftUnset rfl _
    · rw [hsame.2 a (by simpa using ha), Dev.rg_stepped]
  · rw [ptRateHiEffect_free hfree]
    simp [TimeSt.setRate, Dev.wantedRate]
  · obtain ⟨hsame, hctrl, hacc, hcmps, hrate⟩ := ptCtrlEffect_selects d0 hsel
    refine ⟨hsame, ?_, ?_, hacc, hcmps, hrate⟩
    · rw [Dev.gf, hctrl]
      exact Dev.gf_plainWrite regRow_aPT_CTRL rfl (by decide) w d0
    · rw [Dev.gf, hctrl]
      exact Dev.gf_plainWrite regRow_aPT_CTRL rfl (by decide) w d0

end Sys2Proof.Machine
end

section
/-! What the Deputy leaves alone when it takes an event (R442 to R451). -/

namespace Sys2Proof.Machine

/-- A device as an event may leave it: registers, what is sent out, the Deputy, pending interrupts and the operations' suspicion differ at most,
and PT_PPS_OUT may have been ended by a stop (R451). -/
def Dev.AfterEvent (d e : Dev) : Prop :=
  e = { d with regs := e.regs, out := e.out, hi := { d.hi with pend := e.hi.pend }, dp := e.dp, cl := e.cl,
               tm := { d.tm with ppsHigh := e.tm.ppsHigh } }

theorem Dev.AfterEvent.refl (d : Dev) : d.AfterEvent d := rfl

theorem Dev.AfterEvent.trans {d e f : Dev} (h : d.AfterEvent e) (h1 : e.AfterEvent f) : d.AfterEvent f := by
  unfold Dev.AfterEvent at *
  rw [h1, h]

section
variable (d : Dev)

theorem Dev.afterEvent_wr (a : Nat) (v : W32) : d.AfterEvent (d.wr a v) := rfl

theorem Dev.afterEvent_dp (x : DeputySt) : d.AfterEvent { d with dp := x } := rfl

theorem Dev.afterEvent_wrs (a : Nat) (vs : List W32) : d.AfterEvent (d.wrs a vs) := by
  induction vs generalizing d a with
  | nil => rfl
  | cons v vs ih => exact (d.afterEvent_wr a v).trans (ih _ _)

theorem Dev.afterEvent_sendVec (v : Nat) : d.AfterEvent (d.sendVec v) := by
  unfold Dev.sendVec
  split <;> rfl

theorem Dev.afterEvent_eventMsg : d.AfterEvent d.eventMsg := by
  unfold Dev.eventMsg
  split
  · exact d.afterEvent_sendVec _
  · rfl

theorem Dev.afterEvent_markSuspect (cls lvl : Nat) : d.AfterEvent (d.markSuspect cls lvl) := by
  unfold Dev.markSuspect
  split <;> rfl

theorem Dev.afterEvent_levelMax (lvl : Nat) : d.AfterEvent (d.levelMax lvl) := by
  unfold Dev.levelMax
  split <;> rfl

theorem Dev.afterEvent_writeRecord (cls lvl base : Nat) (esc : Bool) (site src aux : Nat) :
    d.AfterEvent (d.writeRecord cls lvl base esc site src aux).1 :=
  (d.afterEvent_dp _).trans ((Dev.afterEvent_wrs _ _ _).trans (Dev.afterEvent_wr _ _ _))

theorem Dev.afterEvent_lowRecord (cls lvl site src aux : Nat) : d.AfterEvent (d.lowRecord cls lvl site src aux).1 := by
  unfold Dev.lowRecord
  split
  · have hrec := d.afterEvent_writeRecord cls lvl lvl false site src aux
    dsimp only
    split
    · exact (hrec.trans (Dev.afterEvent_dp _ _)).trans (Dev.afterEvent_eventMsg _)
    · exact hrec.trans (Dev.afterEvent_dp _ _)
  · rfl

theorem Dev.afterEvent_passedOver (n : Nat) : d.AfterEvent (d.passedOver n) := by
  unfold Dev.passedOver
  split
  · rfl
  · exact (d.afterEvent_lowRecord 22 0 0 1 0).trans (Dev.afterEvent_wr _ _ _)

theorem Dev.afterEvent_stopNow (rec : List W32) : d.AfterEvent (d.stopNow rec) := by
  unfold Dev.stopNow
  refine Dev.AfterEvent.trans ?_ ((Dev.afterEvent_eventMsg _).trans (Dev.afterEvent_wr _ _ _))
  rfl

theorem Dev.afterEvent_openFault (cls lvl base site src aux : Nat) : d.AfterEvent (d.openFault cls lvl base site src aux) := by
  have hrec := d.afterEvent_writeRecord cls lvl base (decide (base < lvl)) site src aux
  unfold Dev.openFault
  dsimp only
  split
  · refine ((hrec.trans ?_).trans (Dev.afterEvent_passedOver _ _)).trans (Dev.afterEvent_stopNow _ _)
    exact ((Dev.afterEvent_wr _ _ _).trans (Dev.afterEvent_wr _ _ _)).trans (Dev.afterEvent_dp _ _)
  · refine ((hrec.trans ?_).trans (Dev.afterEvent_passedOver _ _)).trans (Dev.afterEvent_eventMsg _)
    exact ((Dev.afterEvent_wr _ _ _).trans (Dev.afterEvent_wr _ _ _)).trans (Dev.afterEvent_dp _ _)

theorem Dev.afterEvent_event (cls src lvl site aux : Nat) : d.AfterEvent (d.event cls src lvl site aux) := by
  unfold Dev.event
  split
  · rfl
  · have hmark : d.AfterEvent ((d.count (aDP_CNT cls)).markSuspect cls lvl) := (d.afterEvent_wr _ _).trans (Dev.afterEvent_markSuspect _ _ _)
    dsimp only
    generalize (d.count (aDP_CNT cls)).markSuspect cls lvl = m at hmark ⊢
    refine hmark.trans ?_
    split
    · exact (m.afterEvent_levelMax _).trans ((Dev.afterEvent_lowRecord _ _ _ _ _ _).trans (Dev.afterEvent_passedOver _ _))
    · split
      · split
        · exact (m.afterEvent_levelMax _).trans (Dev.afterEvent_openFault _ _ _ _ _ _ _)
        · split
          · exact (m.afterEvent_levelMax _).trans (Dev.afterEvent_wr _ _ _)
          · exact (m.afterEvent_levelMax _).trans (Dev.afterEvent_openFault _ _ _ _ _ _ _)
      · exact (m.afterEvent_levelMax _).trans (Dev.afterEvent_openFault _ _ _ _ _ _ _)

theorem Dev.afterEvent_report (cls src site aux : Nat) : d.AfterEvent (d.report cls src site aux) := d.afterEvent_event _ _ _ _ _

/-! ## What an event leaves of the units -/

section
variable (cls src site aux : Nat)

theorem Dev.tm_report : (d.report cls src site aux).tm = { d.tm with ppsHigh := (d.report cls src site aux).tm.ppsHigh } := by
  conv_lhs => rw [d.afterEvent_report cls src site aux]

@[simp] theorem Dev.ports_report : (d.report cls src site aux).ports = d.ports := by rw [d.afterEvent_report cls src site aux]
@[simp] theorem Dev.lanes_report : (d.report cls src site aux).lanes = d.lanes := by rw [d.afterEvent_report cls src site aux]
@[simp] theorem Dev.fb_report : (d.report cls src site aux).fb = d.fb := by rw [d.afterEvent_report cls src site aux]
@[simp] theorem Dev.sm_report : (d.report cls src site aux).sm = d.sm := by rw [d.afterEvent_report cls src site aux]
@[simp] theorem Dev.sh_report : (d.report cls src site aux).sh = d.sh := by rw [d.afterEvent_report cls src site aux]
@[simp] theorem Dev.tw_report : (d.report cls src site aux).tw = d.tw := by rw [d.afterEvent_report cls src site aux]
@[simp] theorem Dev.as_report : (d.report cls src site aux).as_ = d.as_ := by rw [d.afterEvent_report cls src site aux]
@[simp] theorem Dev.me_report : (d.report cls src site aux).me = d.me := by rw [d.afterEvent_report cls src site aux]
@[simp] theorem Dev.bt_report : (d.report cls src site aux).bt = d.bt := by rw [d.afterEvent_report cls src site aux]

end

end

end Sys2Proof.Machine
end

section
/-! Pulses, the loss of a source, CANARY and the latched reads of the plant-time unit (chapter 2). -/

namespace Sys2Proof.Machine

/-- A command on the device alone that acts under a condition, as the device stands. -/
theorem gives_whenAt {i : Instr} {s : State} {b : Dev → Bool} {f : Dev → Dev → Dev} {P : Dev → Prop}
    (h : exec i s = devStep (fun d => d.when (b d) (f d)) s) (hb : b s.dev = true) (hp : P (f s.dev s.dev)) : Gives i s P :=
  ⟨_, h, by simpa [hb] using hp⟩

/-! ## Measurements (R23) -/

/-- The low half of a count as a signed number. -/
theorem sext_low_half (n : BitVec 64) : sext 32 (n.toNat % 2 ^ 32) = (n.setWidth 32).toInt := by
  rw [BitVec.toInt_eq_toNat_cond, BitVec.toNat_setWidth]
  simp only [sext, Int.ofNat_eq_natCast]
  split <;> split <;> omega

theorem Dev.quiet_servo (d : Dev) (e : Int) : (d.servo e).tm.quiet = d.tm.quiet := by
  unfold Dev.servo
  split_ifs <;> rfl

/-- A measurement ends the quiet of the source (R26). -/
theorem Dev.quiet_measure (d : Dev) (e : Int) (depth : Nat) (hold : Bool) : (d.measure e depth hold).tm.quiet = 0 := by
  unfold Dev.measure
  dsimp only
  split_ifs <;> simp [Dev.tm_ptState, Dev.quiet_servo]

/-! ## The loss of a source (R26) -/

/-- A source is lost: HOLDOVER of the rate, with PT_STAT.LOST and its event. -/
def Dev.sourceGone (d : Dev) : Dev :=
  ({ d with tm := { d.tm with lost := true, lockRun := 0, slew := 0 } }.sb aPT_STAT 8 true).report 0 0 0 0

theorem Dev.tm_sourceGone (d : Dev) :
    d.sourceGone.tm = { d.tm with lost := true, lockRun := 0, slew := 0, ppsHigh := d.sourceGone.tm.ppsHigh } := Dev.tm_report _ _ _ _ _

/-- The pulse per second is lost once 1.5 s have run without an edge (R26). -/
theorem exec_sourceLost {s : State} (hlive : s.dev.live = true) (hfirst : s.dev.tm.lost = false) (hpps : s.dev.gf aPT_CTRL 0 3 = 1)
    (hquiet : 3 * 2 ^ 31 ≤ s.dev.tm.quiet / 2 ^ 32) :
    exec .sourceLost s =
      devStep (fun _ => if s.dev.sourceGone.tm.leftUnset then s.dev.sourceGone.ptState 4 else s.dev.sourceGone) s := by
  have hdue : (s.dev.gf aPT_CTRL 0 3 == 1 && decide (3 * 2 ^ 31 ≤ s.dev.tm.quiet / 2 ^ 32)) = true := by
    rw [hpps, decide_eq_true hquiet]
    rfl
  show execSourceLost s = _
  simp only [execSourceLost, devStep, hlive, hfirst, hdue, Bool.true_or, Bool.true_and, Bool.not_false, Dev.when_true]
  rfl

/-- Settles O2: a pulse is measured against the low half of the count, a source that goes leaves the count running, and a read of a low half
latches the high one while the device has not stopped. -/
theorem timePinsAndReads : Obligations.TimePinsAndReads := by
  unfold Obligations.TimePinsAndReads
  refine ⟨fun s => ⟨fun hlive hpps => ?_, fun hlive hfirst hpps hquiet => ?_, fun hlive hen hedge hsec => ?_, fun b => ⟨_, rfl, rfl⟩,
    fun hlive hon hms => ?_, fun hlive hon hgap => ?_⟩, fun s hperst => ⟨?_, ?_⟩⟩
  · refine gives_whenAt (show execPpsEdge s = _ from rfl) ?_ ?_
    · simp [hlive, hpps]
    · exact ⟨by rw [← sext_low_half], Dev.quiet_measure _ _ _ _⟩
  · refine gives_dev (exec_sourceLost hlive hfirst hpps hquiet) ?_
    have htm := Dev.tm_sourceGone s.dev
    split_ifs with hleft
    · rw [Dev.tm_ptState, Dev.state_ptState, htm]
      exact ⟨rfl, rfl, rfl, rfl, fun _ => rfl⟩
    · rw [htm] at hleft ⊢
      exact ⟨rfl, rfl, rfl, rfl, fun h => absurd h hleft⟩
  · refine gives_whenAt (show execPpsOutPulse s = _ from rfl) ?_ ?_
    · simpa [hlive, hen] using ⟨hedge, hsec⟩
    · exact ⟨⟨rfl, fun _ _ => rfl⟩, rfl, rfl, rfl⟩
  · refine gives_whenAt (show execCanaryToggle s = _ from rfl) ?_ ?_
    · simp [hlive, hon, hms]
    · rfl
  · refine gives_whenAt (show execCanaryGapToggle s = _ from rfl) ?_ ?_
    · simp [hlive, hon, hgap]
    · rfl
  · refine gives_whenAt (b := Dev.perst) (show execPtNowLoRead s = _ from rfl) hperst ?_
    cases hstopped : s.dev.stopped <;> simp [hstopped] <;> rfl
  · refine gives_whenAt (b := Dev.perst) (show execBeatStampLoRead s = _ from rfl) hperst ?_
    cases hstopped : s.dev.stopped <;> simp [hstopped] <;> rfl

end Sys2Proof.Machine
end

section
/-! Instructions of a core (chapters 10 and 11): the result with which each goes on, what an instruction on lanes leaves in the registers of its
bench, and how an instruction stops its launch. -/

namespace Sys2Proof.Machine

section
variable {i : Instr} {s : State} {core : Core} {c : AsCtx} {g : AsCtx → AsRes} {r : AsRes} (hc : s.dev.asCtx? s.mem core = some c)
include hc

/-- An instruction for both modes goes on with its own result. -/
theorem goesOn_cmd (h : exec i s = asCmd i core false g s) (hr : g c = r) : GoesOn i s s.dev core c false r :=
  goesOn_of (dd := fun d => d) (lock := false) h rfl hc rfl hr

/-- An instruction that may be lockstep only goes on where its bench is in LOCKSTEP. -/
theorem goesOn_lock {lock : Bool} (hlock : c.b.free = false) (h : exec i s = asCmd i core lock g s) (hr : g c = r) :
    GoesOn i s s.dev core c false r :=
  goesOn_of (dd := fun d => d) h rfl hc (by rw [hlock, Bool.and_false]) hr

/-- A lockstep-only instruction whose trap names lane 0 goes on where its bench is in LOCKSTEP. -/
theorem goesOn_row (hlock : c.b.free = false) (h : exec i s = asRow i core g s) (hr : g c = r) : GoesOn i s s.dev core c true r :=
  goesOn_of (dd := fun d => d) h rfl hc (by rw [hlock, Bool.and_false]) hr

end

/-! ## Control -/

theorem AsCtx.finish_lockstep {c : AsCtx} (h : c.b.free = false) : c.finish = { b := { c.b with done := true }, next := c.pc } := by
  simp [AsCtx.finish, h]

theorem AsCtx.finish_free {c : AsCtx} (h : c.b.free = true) (hmore : c.b.ended.length < 31) :
    c.finish = { b := ({ c.b with ended := c.thread :: c.b.ended, done := false } : Bench).barCheck, next := c.pc } := by
  have hnot : decide (32 ≤ (c.thread :: c.b.ended).length) = false := by simp only [List.length_cons, decide_eq_false_iff_not]; omega
  rw [AsCtx.finish, if_pos h]
  simp only [hnot]

theorem AsCtx.join_lockstep {c : AsCtx} (h : c.b.free = false) : c.join = c.goOn 1 c.b := by simp [AsCtx.join, h]

theorem AsCtx.join_waits {c : AsCtx} (h : c.b.free = true) (hended : c.b.ended = []) (hmore : c.b.joining.length < 31) :
    c.join = c.goOn 1 { c.b with joining := c.thread :: c.b.joining } := by
  have hnot : ¬ 32 ≤ (c.thread :: c.b.joining).length := by simp only [List.length_cons]; omega
  simp only [AsCtx.join, h, hended, Bool.not_true, Bool.false_eq_true, if_false, List.isEmpty_nil, if_neg hnot]

/-- Taking the next free value leaves the benches as they are. -/
theorem AsCtx.freeNext_bench {d : Dev} {m : List Host.Cell} {core : Core} {c c1 : AsCtx} (hc : d.asCtx? m core = some c)
    (hc1 : d.freeNext.asCtx? m core = some c1) : c1.b = c.b := by
  have hbench : d.freeNext.bench? core.bench = d.bench? core.bench := rfl
  simp only [Dev.asCtx?] at hc hc1
  rw [hbench] at hc1
  split at hc
  case h_2 => cases hc
  case h_1 _ b hl hb =>
    split at hc1
    case h_2 => cases hc1
    case h_1 _ b1 hl1 hb1 =>
      obtain rfl : b = b1 := Option.some.inj (hb.symm.trans hb1)
      simp only [Option.ite_none_right_eq_some, Option.some.injEq] at hc hc1
      rw [← hc.2, ← hc1.2]

/-- Settles O24: each control instruction is its command's own result, in the two modes that FORK, JOIN, BAR and END tell apart. -/
theorem assayControl : Obligations.AssayControl := by
  intro s core c c1 f rel a hc hc1 goes joins br
  have hb : c1.b = c.b := AsCtx.freeNext_bench hc hc1
  refine ⟨goesOn_cmd hc rfl rfl, goesOn_cmd hc rfl rfl, goesOn_cmd hc rfl rfl, fun hcond => ?_, fun hlock => ?_, fun hfree => ?_⟩
  · exact goesOn_of (dd := fun d => d) (lock := decide (5 ≤ f.cond % 8)) (g := fun c => c.br f) rfl rfl hc (by simp [hcond]) rfl
  · have hlock1 : c1.b.free = false := by rw [hb, hlock]
    exact ⟨goesOn_cmd hc rfl (AsCtx.finish_lockstep hlock), goesOn_lock hc hlock rfl rfl,
      goesOn_cmd hc rfl (by simp only [AsCtx.call, hlock, Bool.false_eq_true, if_false]),
      goesOn_cmd hc rfl (by simp only [AsCtx.fork, hlock, Bool.false_eq_true, if_false]),
      goesOn_free rfl hc1 (AsCtx.join_lockstep hlock1),
      goesOn_cmd hc rfl (by simp only [AsCtx.barrier, hlock, Bool.false_eq_true, if_false]), goesOn_lock hc hlock rfl rfl⟩
  · have hfree1 : c1.b.free = true := by rw [hb, hfree]
    exact ⟨fun hmore => goesOn_cmd hc rfl (AsCtx.finish_free hfree hmore),
      goesOn_cmd hc rfl (by simp only [AsCtx.call, hfree, if_true, List.foldl_cons, List.foldl_nil]),
      goesOn_cmd hc rfl (by simp only [AsCtx.fork, hfree, if_true]),
      fun hended hmore => goesOn_free rfl hc1 (AsCtx.join_waits hfree1 hended hmore),
      goesOn_cmd hc rfl (by simp only [AsCtx.barrier, hfree, if_true])⟩

/-! ## Integer, float and memory instructions -/

/-- Settles O25: the row of each instruction names the operation that the statement spells out. -/
theorem assayInteger : Obligations.AssayInteger := by
  intro s core c f fi k w1 hc goes int mask
  refine ⟨goesOn_cmd hc rfl rfl, goesOn_cmd hc rfl rfl, goesOn_cmd hc rfl rfl, goesOn_cmd hc rfl rfl, goesOn_cmd hc rfl rfl, goesOn_cmd hc rfl rfl, goesOn_cmd hc rfl rfl,
    goesOn_cmd hc rfl rfl, goesOn_cmd hc rfl rfl, goesOn_cmd hc rfl rfl, goesOn_cmd hc rfl rfl, goesOn_cmd hc rfl rfl, goesOn_cmd hc rfl rfl, goesOn_cmd hc rfl rfl,
    goesOn_cmd hc rfl rfl, goesOn_cmd hc rfl rfl, fun hlock => ?_⟩
  exact ⟨goesOn_lock hc hlock rfl rfl, goesOn_lock hc hlock rfl rfl, goesOn_lock hc hlock rfl rfl, goesOn_lock hc hlock rfl rfl, goesOn_lock hc hlock rfl rfl,
    goesOn_lock hc hlock rfl rfl, goesOn_lock hc hlock rfl rfl, goesOn_lock hc hlock rfl rfl, goesOn_lock hc hlock rfl rfl⟩

/-- Settles O26: the row of each instruction names its arithmetic; DOT4 parts by the element format, CVT by whether its target is an MX format. -/
theorem assayFloat : Obligations.AssayFloat := by
  intro s core c f w1 hc goes elem func
  refine ⟨goesOn_cmd hc rfl rfl, goesOn_cmd hc rfl rfl, goesOn_cmd hc rfl rfl, goesOn_cmd hc rfl rfl, goesOn_cmd hc rfl rfl, goesOn_cmd hc rfl rfl, goesOn_cmd hc rfl rfl,
    goesOn_cmd hc rfl rfl, goesOn_cmd hc rfl rfl, goesOn_cmd hc rfl rfl, fun hint => ?_, fun hfloat => ?_,
    goesOn_cmd hc rfl rfl, goesOn_cmd hc rfl rfl, goesOn_cmd hc rfl rfl, goesOn_cmd hc rfl rfl, goesOn_cmd hc rfl rfl, goesOn_cmd hc rfl rfl, goesOn_cmd hc rfl rfl,
    goesOn_cmd hc rfl rfl, goesOn_cmd hc rfl rfl, goesOn_cmd hc rfl rfl, goesOn_cmd hc rfl rfl, goesOn_cmd hc rfl rfl, fun hmx => ?_, fun hlock => ?_⟩
  · exact goesOn_cmd hc rfl (by simp only [if_pos hint])
  · exact goesOn_cmd hc rfl (by simp only [if_neg hfloat])
  · exact goesOn_of (dd := fun d => d) (lock := isMx (fld w1 0 5)) (g := fun c => c.cvt f w1.toNat) rfl rfl hc (by rw [hmx]; rfl) rfl
  · exact ⟨goesOn_lock hc hlock rfl rfl, goesOn_lock hc hlock rfl rfl, goesOn_row hc hlock rfl rfl,
      goesOn_row hc hlock rfl rfl⟩

theorem AsCtx.store_of_good {c : AsCtx} {f : FmtM} {n : Nat} (h : c.firstBad f n true (c.lanes f.m) = none) :
    c.store f n = c.goOn 1 ((c.lanes f.m).foldl (c.storeOne f n) c.b) := by simp [AsCtx.store, h]

theorem AsCtx.store_of_bad {c : AsCtx} {f : FmtM} {n lane cause : Nat} (h : c.firstBad f n true (c.lanes f.m) = some (lane, cause)) :
    c.store f n = c.memFault f n true lane cause := by simp [AsCtx.store, h]

/-- Settles O27: a load goes on from the device that has drawn its free value, a store whose accesses are all allowed with each lane's bytes. -/
theorem assayMemory : Obligations.AssayMemory := by
  intro s core c c1 f fr w1 hc hc1 ld st atom
  have store : ∀ {i : Instr} {n : Nat}, exec i s = asCmd i core false (fun c => c.store f n) s → st i n := fun h hgood =>
    goesOn_cmd hc h (AsCtx.store_of_good hgood)
  exact ⟨goesOn_free rfl hc1 rfl, goesOn_free rfl hc1 rfl, goesOn_free rfl hc1 rfl, goesOn_free rfl hc1 rfl, store rfl, store rfl, store rfl, store rfl,
    goesOn_cmd hc rfl rfl, goesOn_cmd hc rfl rfl, goesOn_cmd hc rfl rfl, goesOn_cmd hc rfl rfl, goesOn_cmd hc rfl rfl, goesOn_cmd hc rfl rfl,
    fun hlock => goesOn_row hc hlock rfl rfl⟩

/-! ## What lanes leave in the registers -/

section
variable (b : Bench) (i d v lane q : Nat) (der : Bool)

/-- A register of one lane is no register of another. -/
theorem key_eq_iff {lane i q d : Nat} : 64 * lane + q % 64 = 64 * i + d % 64 ↔ q % 64 = d % 64 ∧ lane = i := by omega

theorem Bench.setReg_frame : b.setReg i d v der = { b with x := (b.setReg i d v der).x, xd := (b.setReg i d v der).xd } := by
  unfold Bench.setReg; split <;> rfl

theorem Bench.reg_setReg :
    (b.setReg i d v der).reg lane q = if d % 64 ≠ 0 ∧ q % 64 = d % 64 ∧ lane = i then v % 2 ^ 32 else b.reg lane q := by
  by_cases hzero : d % 64 = 0
  · simp [Bench.setReg, hzero]
  by_cases hsame : q % 64 = d % 64 ∧ lane = i
  · obtain ⟨hq, rfl⟩ := hsame
    simp [Bench.setReg, Bench.reg, hzero, hq]
  · rw [if_neg fun h => hsame h.2]
    simp only [Bench.setReg, Bench.reg, if_neg hzero, mget_mput_ne _ _ _ _ (fun h => hsame (key_eq_iff.mp h))]

theorem Bench.der_setReg :
    (b.setReg i d v der).der lane q = if d % 64 ≠ 0 ∧ q % 64 = d % 64 ∧ lane = i then der else b.der lane q := by
  by_cases hzero : d % 64 = 0
  · simp [Bench.setReg, hzero]
  by_cases hsame : q % 64 = d % 64 ∧ lane = i
  · obtain ⟨hq, rfl⟩ := hsame
    simp [Bench.setReg, Bench.der, hzero, hq]
  · rw [if_neg fun h => hsame h.2]
    simp only [Bench.setReg, Bench.der, if_neg hzero, mget_mput_ne _ _ _ _ (fun h => hsame (key_eq_iff.mp h))]

end

/-- Register `d` written in each of some lanes with that lane's word, the derived bits cleared. -/
def Bench.setLanes (b : Bench) (d : Nat) (v : Nat → W32) (lanes : List Nat) : Bench := lanes.foldl (fun b i => b.setReg i d (v i).toNat false) b

theorem Bench.setLanes_cons (b : Bench) (d : Nat) (v : Nat → W32) (i : Nat) (is : List Nat) :
    b.setLanes d v (i :: is) = (b.setReg i d (v i).toNat false).setLanes d v is := rfl

theorem Bench.setLanes_frame (b : Bench) (d : Nat) (v : Nat → W32) (lanes : List Nat) :
    b.setLanes d v lanes = { b with x := (b.setLanes d v lanes).x, xd := (b.setLanes d v lanes).xd } := by
  induction lanes generalizing b with
  | nil => rfl
  | cons i is ih => rw [Bench.setLanes_cons, ih, Bench.setReg_frame]

theorem Bench.reg_setLanes (b : Bench) (d : Nat) (v : Nat → W32) (lanes : List Nat) (lane q : Nat) :
    (b.setLanes d v lanes).reg lane q = if d % 64 ≠ 0 ∧ q % 64 = d % 64 ∧ lane ∈ lanes then (v lane).toNat else b.reg lane q := by
  induction lanes generalizing b with
  | nil => simp [Bench.setLanes]
  | cons i is ih =>
    rw [Bench.setLanes_cons, ih, Bench.reg_setReg, Nat.mod_eq_of_lt (v i).isLt]
    by_cases hi : lane = i
    · subst hi
      by_cases hmem : lane ∈ is <;> simp +contextual [hmem]
    · simp [hi]

theorem Bench.der_setLanes (b : Bench) (d : Nat) (v : Nat → W32) (lanes : List Nat) (lane q : Nat) :
    (b.setLanes d v lanes).der lane q = if d % 64 ≠ 0 ∧ q % 64 = d % 64 ∧ lane ∈ lanes then false else b.der lane q := by
  induction lanes generalizing b with
  | nil => simp [Bench.setLanes]
  | cons i is ih =>
    rw [Bench.setLanes_cons, ih, Bench.der_setReg]
    by_cases hi : lane = i
    · subst hi
      by_cases hmem : lane ∈ is <;> simp [hmem]
    · simp [hi]

/-- An operation on two registers writes register D of its lanes and does nothing else. -/
theorem AsCtx.int2_eq (c : AsCtx) (f : FmtR) (op : W32 → W32 → W32) :
    c.int2 f op = c.goOn 1 (c.b.setLanes f.d (fun l => op (BitVec.ofNat 32 (c.b.reg l f.a)) (BitVec.ofNat 32 (c.b.reg l f.b))) (c.lanes f.m)) := by
  simp [AsCtx.int2, AsCtx.perLane, AsCtx.deliverLanes, AsCtx.goOn, Bench.setLanes, List.foldl_map]

/-- Settles O28, by induction on the lanes that are written. -/
theorem assayLaneResults : Obligations.AssayLaneResults := by
  intro c f op r
  have hr : r = c.goOn 1 _ := c.int2_eq f op
  rw [hr]
  exact ⟨rfl, rfl, rfl, rfl, rfl, rfl, Bench.setLanes_frame _ _ _ _, fun lane q => ⟨Bench.reg_setLanes _ _ _ _ _ _, Bench.der_setLanes _ _ _ _ _ _⟩⟩

/-! ## How an instruction stops its launch -/

/-- A command of a core that executes is its run on the device and memory as they stand. -/
theorem yields_asCmd {i : Instr} {s : State} {core : Core} {c : AsCtx} {lock : Bool} {g : AsCtx → AsRes} {P : Dev → List Host.Cell → Prop}
    (hc : s.dev.asCtx? s.mem core = some c) (h : exec i s = asCmd i core lock g s) (hi : c.runs i = true)
    (hp : P (s.dev.asRun c core.bench lock false (g c)).1 (s.dev.asRun c core.bench lock false (g c)).2) : Yields i s P :=
  yields_mem h (by rw [asExec_some hc hi]; exact hp)

/-- Settles O29: each stop is a branch of the run, taken by the hypotheses of its clause. -/
theorem assayStops : Obligations.AssayStops := by
  intro s core c c1 f rel hc hc1 fault
  obtain ⟨hm, -⟩ := asCtx?_sees hc
  obtain ⟨hm1, -⟩ := asCtx?_sees hc1
  refine ⟨fun hi hfree => ?_, fun lane cause hi hbad => ?_, fun hi hlost => ?_, fun r hi hr hdone hhalt hnext => ?_,
    fun g hi => ?_, fun hi => ?_⟩
  · refine yields_asCmd hc rfl hi ?_
    simp only [Dev.asRun, hfree, hm, Bool.and_self, if_true, fault]
  · refine yields_asCmd hc rfl hi ?_
    rw [AsCtx.store_of_bad hbad]
    simp only [Dev.asRun, AsCtx.memFault, hm, Bool.false_and, Bool.false_eq_true, if_false, fault]
  · have hlive : s.dev.live = true := asCtx?_live hc
    refine yields_mem (show exec (.asLd32 core f) s = asLoad (.asLd32 core f) core f 4 s from rfl) ?_
    simp only [hlive, if_true, asExec_some hc1 hi, Dev.asRun, hlost, hm1, Bool.false_and, Bool.false_eq_true, if_false]
  · refine yields_asCmd hc rfl hi ?_
    have hgo : r.stop = .go := by rw [hr]; rfl
    have hnot : r.b.done = false := by rw [hr]; exact hdone
    rw [← hr]
    simp only [Dev.asRun, Dev.asGo, hgo, hhalt, hnot, hnext, hm, Bool.false_and, Bool.false_eq_true, Bool.false_or, if_false, fault]
  · intro r hfired hhalt
    refine yields_asCmd hc (g := fun c => c.elem g ⟨true, false⟩ (fun ff st a b _ => fAdd ff st a b)) rfl hi ?_
    have hgo : r.stop = .go := rfl
    change (s.dev.asRun c core.bench false false r) = _
    simp only [Dev.asRun, Dev.asGo, hgo, hfired, hhalt, hm, Bool.and_self, Bool.false_and, Bool.false_eq_true, if_false, if_true]
  · refine yields_mem (show exec (.asNop core) s = asCmd (.asNop core) core false (fun c => c.goOn 1 c.b) s from rfl) ?_
    simp [Dev.asExec, hc, hi]

end Sys2Proof.Machine
end

section
/-! Recipes and INT64 combination (chapters 7 and 8). -/

namespace Sys2Proof.Machine

/-! ## A sequencer's operations -/

theorem Dev.rcStep_of_stands {d : Dev} {sm : Nat} (hlive : d.live = true) (hsm : sm < 64) (hphys : (d.smPhys sm).isSome = true)
    (f : RcRun → RcRun) : d.rcStep sm f =
      { d with sm := { d.sm with runs := mmod RcRun.init sm (fun x => { f x with pc := x.pc + 1 }) d.sm.runs } } := by
  simp [Dev.rcStep, Dev.when, hlive, hsm, hphys]

section
variable {s : State} {sm : Nat} {x : RcRun} (hlive : s.dev.live = true) (hsm : sm < 64) (hphys : (s.dev.smPhys sm).isSome = true)
  (hx : mget RcRun.init sm s.dev.sm.runs = x)
include hlive hsm hphys hx

/-- A recipe's operation puts its own run in the place of the sequencer's and goes on to the next word. -/
theorem gives_rcStep {i : Instr} {f : RcRun → RcRun} {P : RcRun → Prop} (h : exec i s = devStep (fun d => d.rcStep sm f) s)
    (hp : P { f x with pc := x.pc + 1 }) : Gives i s fun d => ∃ y,
      d = { s.dev with sm := { s.dev.sm with runs := mput RcRun.init sm y s.dev.sm.runs } } ∧ y.pc = x.pc + 1 ∧ P y :=
  gives_dev h ⟨_, by rw [Dev.rcStep_of_stands hlive hsm hphys, mmod, hx], rfl, hp⟩

end

section
variable (x : RcRun) (f : RcFields)

theorem RcRun.lanes2_v (op : Nat → Nat → NRes) :
    (x.lanes2 f op).v = lset f.d (List.zipWith (fun a b => (op a b).code) (x.reg f.a) (x.reg f.b)) x.v := by
  simp [RcRun.lanes2, RcRun.write, List.zip, List.map_zipWith]

theorem RcRun.ldin_final (h : x.final = true) : x.ldin f = x := by simp [RcRun.ldin, h]

theorem RcRun.ldin_arrive (h : x.final = false) :
    (x.ldin f).acc = x.acc ∧ (x.ldin f).v = lset f.d (x.inp.map (fun c => (expandRaw x.inFmt x.accFmt x.strict c).code)) x.v := by
  simp [RcRun.ldin, RcRun.write, h, Function.comp_def]

theorem RcRun.stacc_arrive (h : x.final = false) : x.stacc f = { x with acc := x.reg f.a } := by simp [RcRun.stacc, h]

theorem RcRun.emit_final (h : x.final = true) : x.emit f = { x with out := x.reg f.a, emitted := true } := by simp [RcRun.emit, h]

theorem RcRun.emit_arrive (h : x.final = false) : x.emit f = x := by simp [RcRun.emit, h]

theorem RcRun.red_fresh (h : x.fresh = true) : x.red f = { x with v := lset f.d (x.reg f.b) x.v } := by simp [RcRun.red, h]

theorem RcRun.red_stale (h : x.fresh = false) : x.red f = x.lanes2 f (combine x.accFmt x.opr x.strict) := by simp [RcRun.red, h]

end

/-- Settles O16: each operation acts on the run of its sequencer alone, and its own lemma says what the run then holds. -/
theorem recipeOperations : Obligations.RecipeOperations := by
  intro s sm f x hlive hsm hphys hx runs lanes
  have step : ∀ {i : Instr} {g : RcRun → RcRun} {P : RcRun → Prop}, exec i s = devStep (fun d => d.rcStep sm g) s →
      P { g x with pc := x.pc + 1 } → runs i P := fun h hp => gives_rcStep hlive hsm hphys hx h hp
  have two : ∀ opr, lanes opr { x.lanes2 f (combine x.accFmt opr x.strict) with pc := x.pc + 1 } := fun opr =>
    ⟨rfl, rfl, x.lanes2_v f _⟩
  refine ⟨step (g := fun x => x.exec 0 f) rfl rfl, fun h => step (g := fun x => x.exec 1 f) rfl (x.ldin_arrive f h), fun h => ?_,
    step (g := fun x => x.exec 2 f) rfl rfl, fun h => ?_, fun h => ?_, fun h => ?_, step (g := fun x => x.exec 5 f) rfl (two 0),
    step (g := fun x => x.exec 6 f) rfl (two 1), step (g := fun x => x.exec 7 f) rfl (two 2), step (g := fun x => x.exec 8 f) rfl (two 3),
    step (g := fun x => x.exec 9 f) rfl ?_, step (g := fun x => x.exec 10 f) rfl ?_, step (g := fun x => x.exec 11 f) rfl ?_,
    fun h => ?_, fun h => ?_⟩
  · refine step (g := fun x => x.exec 1 f) rfl ?_
    rw [show x.exec 1 f = x.ldin f from rfl, x.ldin_final f h]
  · refine step (g := fun x => x.exec 3 f) rfl ?_
    rw [show x.exec 3 f = x.stacc f from rfl, x.stacc_arrive f h]
  · refine step (g := fun x => x.exec 4 f) rfl ?_
    rw [show x.exec 4 f = x.red f from rfl, x.red_fresh f h]
  · refine step (g := fun x => x.exec 4 f) rfl ?_
    rw [show x.exec 4 f = x.red f from rfl, x.red_stale f h]
    exact two x.opr
  · simp [RcRun.exec, RcRun.abs, RcRun.write, Function.comp_def]
  · simp [RcRun.exec, RcRun.neg, RcRun.write, Function.comp_def]
  · simp [RcRun.exec, RcRun.ldk, RcRun.write]
  · refine step (g := fun x => x.exec 12 f) rfl ?_
    rw [show x.exec 12 f = x.emit f from rfl, x.emit_final f h]
  · refine step (g := fun x => x.exec 12 f) rfl ?_
    rw [show x.exec 12 f = x.emit f from rfl, x.emit_arrive f h]

/-! ## INT64 combination -/

theorem sext_toNat (a : BitVec 64) : sext 64 a.toNat = a.toInt := by
  rw [sext, BitVec.toInt_eq_toNat_cond, Nat.mod_eq_of_lt a.isLt]
  simp only [Int.ofNat_eq_natCast]
  split <;> split <;> omega

theorem ofInt_eq_toNat (a : BitVec 64) (z : Int) (h : BitVec.ofInt 64 z = a) : ofInt 64 z = a.toNat := by
  rw [← h, BitVec.toNat_ofInt]; rfl

theorem ofInt_toInt (a : BitVec 64) : ofInt 64 a.toInt = a.toNat := ofInt_eq_toNat a _ (BitVec.ofInt_toInt)

theorem ofInt_add (a b : BitVec 64) : ofInt 64 (a.toInt + b.toInt) = (a + b).toNat :=
  ofInt_eq_toNat _ _ (by rw [BitVec.ofInt_add, BitVec.ofInt_toInt, BitVec.ofInt_toInt])

theorem satInt_within {z : Int} (hlo : -2 ^ 63 ≤ z) (hhi : z < 2 ^ 63) : satInt 64 z = { code := ofInt 64 z } := by
  simp only [satInt]
  rw [if_neg (by simp; omega), if_neg (by simp; omega)]

theorem satInt_above {z : Int} (h : 2 ^ 63 ≤ z) : satInt 64 z = { code := 2 ^ 63 - 1, ovf := true } := by
  simp only [satInt]
  rw [if_neg (by simp; omega), if_pos (by simp; omega)]

theorem satInt_below {z : Int} (h : z < -2 ^ 63) : satInt 64 z = { code := 2 ^ 63, ovf := true } := by
  simp only [satInt]
  rw [if_pos (by simp; omega)]

/-- Settles O17: a sum is its saturated value, MAX and MIN are those of the signed numbers. -/
theorem int64Combine : Obligations.Int64Combine := by
  intro a b strict r
  have hsum : r 0 = satInt 64 (a.toInt + b.toInt) := by simp only [r, combine, if_true, sext_toNat]
  refine ⟨fun z hz => ⟨fun h => ?_, fun h => ?_, fun h => ?_⟩, ?_, ?_, ?_, ?_, ?_⟩
  · rw [hsum, ← hz, satInt_within h.1 h.2, hz]
    exact ⟨ofInt_add a b, rfl⟩
  · rw [hsum, ← hz, satInt_above h]; exact ⟨rfl, rfl⟩
  · rw [hsum, ← hz, satInt_below h]; exact ⟨rfl, rfl⟩
  · simp only [r, combine, if_true, sext_toNat]
    split
    · next h => rw [max_eq_right h.le, ofInt_toInt]
    · next h => rw [max_eq_left (not_lt.mp h), ofInt_toInt]
  · simp only [r, combine, if_true, sext_toNat]
    split
    · next h => rw [min_eq_left h.le, ofInt_toInt]
    · next h => rw [min_eq_right (not_lt.mp h), ofInt_toInt]
  · exact (BitVec.toNat_and ..).symm
  · exact (BitVec.toNat_or ..).symm
  · exact (BitVec.toNat_xor ..).symm

end Sys2Proof.Machine
end

section
/-! Descriptors taken from a ring; TABLE_SWAP and the shadow tables, FLOW_CTX, quotas and service (chapters 4 to 6). -/

namespace Sys2Proof.Machine

/-! ## A descriptor taken up -/

theorem takeFirst_accepts {α : Type} {p : α → Bool} {xs : List α} {x : α} {rest : List α} (h : takeFirst p xs = some (x, rest)) : p x = true := by
  induction xs generalizing x rest with
  | nil => cases h
  | cons y ys ih =>
    unfold takeFirst at h
    split at h
    · next hy => cases h; exact hy
    · split at h
      case h_1 => cases h
      case h_2 z zs hz => cases h; exact ih hz

/-- A descriptor that is taken up passes the test, belongs to its ring, and leaves the device but for the queue of the fetched. -/
theorem Dev.takeFetched_some {d d1 : Dev} {r : Nat} {p : Fetched → Bool} {f : Fetched} (h : d.takeFetched r p = some (f, d1)) :
    p f = true ∧ f.ref.ring = r ∧ d1 = { d with hi := { d.hi with fetched := d1.hi.fetched } } := by
  unfold Dev.takeFetched at h
  split at h
  case h_2 => cases h
  case h_1 g rest hg =>
    split at h
    case isFalse => cases h
    case isTrue hp =>
      cases h
      have hfirst := takeFirst_accepts (Option.ite_none_right_eq_some.mp hg).2
      exact ⟨hp, by simpa using hfirst, rfl⟩

/-! ## What a plain write leaves -/

section
variable (a : Nat) (v : W32) (d : Dev)

@[simp] theorem Dev.fb_plainWrite : (Dev.plainWrite a v d).fb = d.fb := by rw [(plainWrite_same a v d).1]
@[simp] theorem Dev.tm_plainWrite : (Dev.plainWrite a v d).tm = d.tm := by rw [(plainWrite_same a v d).1]
@[simp] theorem Dev.hi_plainWrite : (Dev.plainWrite a v d).hi = d.hi := by rw [(plainWrite_same a v d).1]
@[simp] theorem Dev.tw_plainWrite : (Dev.plainWrite a v d).tw = d.tw := by rw [(plainWrite_same a v d).1]
@[simp] theorem Dev.out_plainWrite : (Dev.plainWrite a v d).out = d.out := by rw [(plainWrite_same a v d).1]

end

/-! ## TABLE_SWAP -/

/-- Settles O12: the checks of TABLE_SWAP come in the order of the branches, and a shadow write parts on whether the shadow bank is closed. -/
theorem tablesAndShadows : Obligations.TablesAndShadows := by
  refine ⟨fun s r f d1 htake => ?_, fun s e g w v u d0 => ⟨fun he hw hsees hclosed => ?_, fun he hw hsees hopen => ?_,
    fun hg hw hsees hclosed => ?_, fun hg hw hsees hopen => ?_, fun hlive hold hdue => ?_⟩⟩
  · intro time flags
    obtain ⟨-, -, hd1⟩ := Dev.takeFetched_some htake
    have row : ∀ {P : Dev → Prop}, P (d1.tableSwap f) → Gives (.tableSwap r) s P := fun hp =>
      gives_dev (show exec (.tableSwap r) s = execTableSwap r s from rfl) (by simp only [htake]; exact hp)
    refine ⟨fun hmode => row ?_, fun hdrain hswap hdrain0 hswap0 => ⟨fun horder => row ?_, fun horder htd hts =>
      ⟨fun hbusy => row ?_, fun hfree hold hflags hcmp => row ?_⟩⟩⟩
    · simp only [Dev.tableSwap, if_pos hmode]
    · simp only [Dev.tableSwap]
      rw [if_neg (by simp [hdrain, hswap]), if_neg (by simp [hdrain0, hswap0]), if_pos horder]
    · simp only [Dev.tableSwap]
      rw [if_neg (by simp [hdrain, hswap]), if_neg (by simp [hdrain0, hswap0]), if_neg (by simpa using horder)]
      rw [htd, hts]
      simp only [if_pos hbusy]
    · simp only [Dev.tableSwap]
      rw [if_neg (by simp [hdrain, hswap]), if_neg (by simp [hdrain0, hswap0]), if_neg (by simpa using horder)]
      rw [htd, hts]
      simp only [hfree, hold, Option.isSome_none, Bool.false_eq_true, or_self, if_false]
      have hone : bfld f.bytes 48 0 2 = 1 := hflags
      have hout : d1.out = s.dev.out := by rw [hd1]
      have hregs : d1.regs = s.dev.regs := by rw [hd1]
      rw [if_neg (by rw [hone]; simp), if_neg (by rw [hone]; decide), if_neg (by simp [hcmp]), hone]
      refine ⟨rfl, by simp [Dev.takeCmp], Dev.gb_sb_self _ _ _ _ (by decide), by simp [hout], fun a ha => ?_⟩
      rw [Dev.rg_sb_ne _ _ _ ha]
      exact Dev.rg_congr (by simp [hregs]) a
  · exact gives_whenBar rfl (by simp [he, hw]) hsees (if_pos hclosed)
  · exact gives_whenBar rfl (by simp [he, hw]) hsees (if_neg (by simp [hopen]))
  · exact gives_whenBar rfl (by simp [hg, hw]) hsees (if_pos hclosed)
  · refine gives_whenBar rfl (by simp [hg, hw]) hsees ?_
    simp only [spShadowEffect, hopen, Bool.false_eq_true, if_false, Dev.fb_plainWrite]
  · refine gives_whenAt (show exec .oldBankRetire s = execOldBankRetire s from rfl) (by simp [hlive, hold, hdue]) ⟨?_, rfl, rfl⟩
    exact Dev.gb_sb_self _ _ _ _ (by decide)

/-- Settles O13: each form of FLOW_CTX takes its descriptor, and one that no check stops does its work. -/
theorem flowContexts : Obligations.FlowContexts := by
  intro s r op f d1 htake first n
  refine ⟨fun hop hjudge => ?_, fun hop hjudge => ?_, fun hop hjudge images d2 hwrite => ?_, fun hop hjudge images hwrite => ?_⟩ <;> subst hop
  · exact gives_dev (show exec (.flowCtxRead r) s = execFlowCtxRead r s from rfl) (by simp only [htake, hjudge]; rfl)
  · exact gives_dev (show exec (.flowCtxZero r) s = execFlowCtxZero r s from rfl) (by simp only [htake, hjudge]; rfl)
  · exact gives_dev (show exec (.flowCtxWrite r images) s = execFlowCtxWrite r images s from rfl) (by simp only [htake, hjudge]; simp only [first, n] at hwrite ⊢; rw [hwrite])
  · exact gives_dev (show exec (.flowCtxWrite r images) s = execFlowCtxWrite r images s from rfl) (by simp only [htake, hjudge]; simp only [first, n] at hwrite ⊢; rw [hwrite])

/-- Settles O14: each write is refused where the rule of its register refuses it and stored or committed where it does not. -/
theorem serviceAndReservations : Obligations.ServiceAndReservations := by
  refine ⟨fun s i p u t v w d0 => ⟨fun hi hsees hless => ?_, fun hi hsees hrate hcbs hpbs hres => ?_, fun hperst hi => ?_, fun hp hsees hbad => ?_,
    fun hp hsees hq hf hq1 hf1 hoff => ?_, fun hp hsees hq hq1 hf1 hoff => ?_, fun hp hsees hq1 hoff => ?_, fun hu hsees hle hq1 hf1 => ?_,
    fun hp ht hsees => ?_, fun ht hsees => ?_, fun hp hsees => ?_⟩, fun d a v keys => rfl⟩
  · exact gives_whenBar rfl (decide_eq_true hi) hsees (if_pos (.inl hless))
  · exact gives_whenBar rfl (decide_eq_true hi) hsees (if_neg (by omega))
  · refine gives_whenAt (show exec (.polLastLoRead i) s = execPolLastLoRead i s from rfl) (by simp [hperst, hi]) ?_
    dsimp only
    rw [Dev.stopped_emit]
    split
    · next h => exact ⟨rfl, rfl, by simp⟩
    · next h => exact ⟨rfl, rfl, by simp⟩
  · exact gives_whenBar rfl (decide_eq_true hp) hsees (if_pos (by omega))
  · exact gives_whenBar rfl (decide_eq_true hp) hsees (if_neg (by omega))
  · exact gives_whenBar rfl (decide_eq_true hp) hsees (if_neg (by omega))
  · exact gives_whenBar rfl (decide_eq_true hp) hsees (if_neg (by omega))
  · exact gives_whenBar rfl (decide_eq_true hu) hsees (if_neg (by omega))
  · exact gives_whenBar rfl (by simp [hp, ht]) hsees rfl
  · exact gives_whenBar rfl (decide_eq_true ht) hsees rfl
  · exact gives_whenBar rfl (decide_eq_true hp) hsees (by simp [svGateBindEffect])

end Sys2Proof.Machine
end

section
/-! Rows of the register table at indexed addresses; endpoint fences; Smelter registers, packets of a reduction, tallies and faults
(chapters 5 and 8). -/

namespace Sys2Proof.Machine

/-! ## Rows of the register table -/

section
variable {base n st n2 st2 a : Nat} {rw rwl w1c reset : W32}

theorem RegRow.covers_single : (r1 base rw rwl w1c reset).covers a = true ↔ a = base := by
  by_cases h : a < base <;> simp [RegRow.covers, r1, h] <;> omega

theorem RegRow.covers_array : (rn base n st rw rwl w1c reset).covers a = true ↔ base ≤ a ∧ (a - base) % st = 0 ∧ (a - base) / st < n := by
  by_cases h : a < base
  · simp [RegRow.covers, rn, h]
  · simp [RegRow.covers, rn, h, Nat.le_of_not_lt h]

theorem blockRows_lamp (hlo : 0x40000 ≤ a) (hhi : a < 0x50000) : blockRows a = regsLamp := by
  unfold blockRows
  repeat rw [if_neg (by omega)]
  rw [if_pos (by omega)]

theorem blockRows_time (hlo : 0x20000 ≤ a) (hhi : a < 0x30000) : blockRows a = regsTime := by
  unfold blockRows
  repeat rw [if_neg (by omega)]
  rw [if_pos (by omega)]

end

/-- FD_MAP words take a write whole. -/
theorem regRow_aFD_MAP {i : Nat} (h : i < 1024) : regRow (aFD_MAP i) = some (rn 0x43000 1024 0x4 0xffffffff 0 0 0) := by
  rw [regRow, blockRows_lamp (by unfold aFD_MAP; omega) (by unfold aFD_MAP; omega)]
  simp (disch := (simp only [RegRow.covers_array, RegRow.covers_single, aFD_MAP]; omega)) only [regsLamp, List.find?_cons_of_neg,
    List.find?_cons_of_pos]

/-- A register whose every bit software writes stores the word. -/
theorem plainWrite_all {a : Nat} {r : RegRow} (hrow : regRow a = some r) (hw1c : r.w1c = 0) (hall : r.rw ||| r.rwl = 0xFFFFFFFF) (v : W32)
    (d : Dev) : Dev.plainWrite a v d = d.wr a v := by
  rw [plainWrite_eq hrow hw1c, hall, stored_all]

theorem fdMapEffect_eq {i : Nat} (h : i < 1024) (w : W32) (d : Dev) : fdMapEffect i w d = (d.wr (aFD_MAP i) w).afterFence := by
  rw [fdMapEffect, plainWrite_all (regRow_aFD_MAP h) rfl (by decide)]

/-- Settles O15: the row of FD_MAP stores the word whole, and the fence's effects follow. -/
theorem endpointsFenced : Obligations.EndpointsFenced := fun _ _ _ _ _ hi hsees =>
  gives_whenBar rfl (decide_eq_true hi) hsees (fdMapEffect_eq hi _ _)

/-! ## Packets for an operation -/

section
variable {d : Dev} {b : BPkt} {x : Grp} {f : Dev → Grp → ClOp → Dev} (hx : d.grp? b.pkt.group = some x)
include hx

/-- A launched operation takes the packet that names it. -/
theorem Dev.forOp_launched {o : ClOp} (ho : d.op? b.pkt.group b.pkt.arg1 = some o) (hrun : o.launched = true) (hfirst : b.replayed = false) :
    d.forOp b f = f d x o := by
  simp only [Dev.forOp, hx, ho]
  rw [if_pos hrun]
  simp only [hfirst, Bool.false_eq_true, if_false]

/-- A packet that comes before the launch is held. -/
theorem Dev.forOp_early {o : ClOp} (ho : d.op? b.pkt.group b.pkt.arg1 = some o) (hwait : o.launched = false) :
    d.forOp b f = d.modPkt b.id (fun b => { b with place := .early }) := by
  simp only [Dev.forOp, hx, ho, hwait, Bool.false_eq_true, if_false]

/-- A packet of a stale OPSEQ is dropped. -/
theorem Dev.forOp_stale (ho : d.op? b.pkt.group b.pkt.arg1 = none) (hstale : staleSeq x b.pkt.arg1 = true) :
    d.forOp b f = d.dropPkt b.id := by
  simp only [Dev.forOp, hx, ho, hstale, Bool.true_or, if_true]

end

/-- Settles O18: register writes part on what their rules forbid, and a packet of a reduction on the operation that it names. -/
theorem smelterRegistersAndPackets : Obligations.SmelterRegistersAndPackets := by
  refine ⟨fun s r w v u d0 => ⟨fun hr hw hsees => ?_, fun hr hr1 hw hsees => ?_, fun hsees => ?_, fun hperst hrun o ho => ?_⟩,
    fun s p b x hlive hx => ⟨fun o hb ho hrun hfirst => ?_, fun o hb ho hwait => ?_, fun o hb ho hrun hfirst => ?_, fun o hb hx1 ho => ?_⟩⟩
  · exact gives_whenBar rfl (by simp [hw, Nat.lt_trans hr (by decide : 16 < 64)]) hsees (by simp only [rcpEffect, if_pos hr])
  · exact gives_whenBar rfl (by simp [hw, hr1]) hsees (by simp only [rcpEffect, if_neg (Nat.not_lt.mpr hr)])
  · exact gives_bar rfl hsees (by simp only [smCfgEffect, Bool.or_eq_true])
  · refine gives_when (show exec .smQheadLoRead s = execSmQheadLoRead s from rfl) hperst ?_
    dsimp only
    rw [ho, Dev.stopped_emit, if_neg (by simp [hrun])]
    exact ⟨rfl, rfl, rfl⟩
  · refine gives_when (show exec (.smPart p) s = execSmPart p s from rfl) hlive ?_
    simp only [hb, hx, ho, hrun, if_true, Dev.forOp_launched hx ho hrun hfirst]
  · refine gives_when (show exec (.smPart p) s = execSmPart p s from rfl) hlive ?_
    simp only [hb, hx, ho, hwait, Bool.false_eq_true, if_false, Dev.ungranted]
  · refine gives_when (show exec (.smGrant p) s = execSmGrant p s from rfl) hlive ?_
    simp only [hb, Dev.forOp_launched hx ho hrun hfirst]
  · refine gives_when (show exec (.smAbort p) s = execSmAbort p s from rfl) hlive ?_
    simp only [hb, hx1, ho]

/-- What an error in a slot that stands does. -/
def Dev.redMemError (slot : Nat) (corrected : Bool) (owner : SlotHolder) (d : Dev) : Dev :=
  if corrected then d.report 10 0 (slot / 8192) slot else
  match owner with
  | .op g q => match d.op? g q with
    | some o => if o.held = 0 then d else (d.retireSlot slot).slotLost o
    | none => d
  | .pool floor => if d.gf (poolReg floor) 0 16 = 0 then d else (d.retireSlot slot).freeLost floor

theorem exec_redMemEccError {s : State} {slot : Nat} {corrected : Bool} (owner : SlotHolder) :
    exec (.redMemEccError ⟨slot, corrected⟩ owner) s = devStep (fun d => d.when (d.live && decide (slot < 32768) && !d.sm.retired.contains slot)
      (Dev.redMemError slot corrected owner)) s := rfl

/-- The report of a slot leaves the list of the retired to which it is added. -/
theorem Dev.retireSlot_eq (d : Dev) (slot : Nat) : d.retireSlot slot =
    { (d.report 10 1 (slot / 8192) slot).count aSM_RETIRED with sm := { d.sm with retired := d.sm.retired ++ [slot] } } := by
  simp only [Dev.retireSlot, Dev.count_sm, Dev.sm_report]

/-- Settles O19: a tally or a fault acts where its condition stands; a slot lost from a pool or an operation is first retired. -/
theorem talliesAndFaults : Obligations.TalliesAndFaults := by
  refine ⟨fun s o floor g q hlive => ⟨fun hhead hgrant => ?_, fun ho hwait hlate => ?_⟩, fun s phys slot hlive => ⟨fun hphys hsound => ⟨?_, ?_⟩,
    fun hslot hnew => ⟨fun w => ?_, fun hfree => ?_, fun hfree => ?_, fun g q o ho hheld => ?_⟩, fun w b hslot hold => ?_⟩⟩
  · refine gives_when (show exec (.tallyGrant floor) s = execTallyGrant floor s from rfl) hlive ?_
    simp only [hhead, hgrant, if_true]
  · refine gives_dev (show exec (.tallyTimeout g q) s = execTallyTimeout g q s from rfl) ?_
    simp only [ho, hlive, hwait, decide_eq_true hlate, Bool.not_false, Bool.and_self, Dev.when_true]
  · exact gives_whenAt (show exec (.smelterFault phys true) s = execSmelterFault phys true s from rfl) (by simp [hlive, hphys, hsound]) rfl
  · exact gives_whenAt (show exec (.smelterFault phys false) s = execSmelterFault phys false s from rfl) (by simp [hlive, hphys, hsound]) rfl
  · exact gives_when (exec_redMemEccError w) (by simp [hlive, hslot, hnew]) rfl
  · refine gives_when (exec_redMemEccError _) (by simp [hlive, hslot, hnew]) ?_
    rw [show Dev.redMemError slot false (.pool false) s.dev = (s.dev.retireSlot slot).freeLost false from if_neg hfree, Dev.retireSlot_eq]
    rfl
  · refine gives_when (exec_redMemEccError _) (by simp [hlive, hslot, hnew]) ?_
    rw [show Dev.redMemError slot false (.pool true) s.dev = (s.dev.retireSlot slot).freeLost true from if_neg hfree, Dev.retireSlot_eq]
    rfl
  · refine gives_when (exec_redMemEccError _) (by simp [hlive, hslot, hnew]) ?_
    simp only [Dev.redMemError, Bool.false_eq_true, if_false, ho, if_neg hheld, Dev.retireSlot_eq]
  · refine gives_dev (show exec (.redMemEccError ⟨slot, b⟩ w) s = execRedMemEccError ⟨slot, b⟩ w s from rfl) ?_
    simp [hold]

/-! ## Collectives and groups (chapter 9) -/

theorem exec_of_clDesc {s : State} {r op : Nat} {i : Instr}
    (h : (i, op) ∈ [(Instr.allreduce r, 0x20), (.reduce r, 0x21), (.reduceScatter r, 0x22), (.allgather r, 0x23), (.broadcast r, 0x24),
      (.alltoall r, 0x25), (.alltoallv r, 0x26), (.barrier r, 0x27), (.reduceUpdateGather r, 0x28)]) :
    exec i s = devStep (fun d => d.clDesc r op) s := by
  simp only [List.mem_cons, Prod.mk.injEq, List.not_mem_nil, or_false] at h
  rcases h with ⟨rfl, rfl⟩ | ⟨rfl, rfl⟩ | ⟨rfl, rfl⟩ | ⟨rfl, rfl⟩ | ⟨rfl, rfl⟩ | ⟨rfl, rfl⟩ | ⟨rfl, rfl⟩ | ⟨rfl, rfl⟩ | ⟨rfl, rfl⟩ <;> rfl

/-- Settles O20: the nine opcodes share one path, whose branches are the clauses. -/
theorem collectivesPosted : Obligations.CollectivesPosted := by
  intro s r f d1 i op hmem htake
  have row : ∀ {P : Dev → Prop}, P (s.dev.clDesc r op) → Gives i s P := fun hp => gives_dev (exec_of_clDesc hmem) hp
  have hgroup : (ClOp.of f).group = rdLE f.bytes 32 2 := rfl
  have hseq : (ClOp.of f).opseq = rdLE f.bytes 36 4 := rfl
  refine ⟨fun st hjudge htally => row ?_, fun st x hjudge htally hop hgone => row ?_, fun x k c hjudge hop hcmp hstale hgone => row ?_,
    fun x k c hjudge hop hcmp hfresh => row ?_, fun x k c o hjudge hop => row ?_, fun x k c hjudge hop hcmp => row ?_⟩
  · simp only [Dev.clDesc, htake, hjudge, Dev.tellShort, htally]
  · simp only [Dev.clDesc, htake, hjudge, Dev.tellShort, htally, hgroup, hseq, hop, List.contains_iff_mem, if_neg hgone]
  · simp only [Dev.clDesc, htake, hjudge, hgroup, hseq, hop, hcmp, hstale, List.contains_iff_mem, if_pos hgone, Bool.not_true, Bool.false_eq_true,
      if_false, if_true]
  · simp only [Dev.clDesc, htake, hjudge, hgroup, hseq, hop, hcmp, hfresh, Bool.not_true, Bool.false_eq_true, if_false]
  · simp only [Dev.clDesc, htake, hjudge, hgroup, hseq, hop]
  · simp only [Dev.clDesc, htake, hjudge, hgroup, hseq, hop, hcmp, Bool.not_false, if_true]

/-- Settles O21: other bytes or a rank that has joined abort the operation; anything else joins. -/
theorem joinRule : Obligations.JoinRule := by
  intro d x o f
  refine ⟨fun hsame hrank => ?_, fun hdiffers => ?_, fun hsame hrank hwait => ?_⟩
  · simp only [Dev.clJoin, hsame, hrank, Bool.not_true, Bool.false_or, Bool.false_eq_true, if_false, if_true]
  · simp only [Dev.clJoin, hdiffers, Bool.not_false, Bool.true_or, if_true]
  · simp only [Dev.clJoin, hsame, hrank, hwait, Bool.not_true, Bool.or_self, Bool.false_eq_true, if_false]
    cases clRank f <;> rfl

/-- Settles O22: a packet is taken, held or dropped by the state of its operation, by the same rule for each of the three opcodes. -/
theorem collectiveTraffic : Obligations.CollectiveTraffic := by
  refine ⟨fun s g q o x hlive ho hx hwaits hlacks hlate hdown => ?_, fun s p b i op take hlive hmem htake hb => ?_⟩
  · refine gives_dev (show exec (.orderTimeout g q) s = execOrderTimeout g q s from rfl) ?_
    simp only [ho, hx, hlive, hwaits, hlacks, decide_eq_true hlate, hdown, Bool.and_self, Dev.when_true, Bool.false_and, Bool.false_eq_true, if_false]
  · have row : ∀ {P : Dev → Prop} {x : Grp}, s.dev.grp? b.pkt.group = some x → P ((s.dev.forOp b (fun d x o => take d b x o p)).clPoll) → Gives i s P := by
      intro P x hx hp
      simp only [List.mem_cons, Prod.mk.injEq, List.not_mem_nil, or_false] at hmem
      rcases hmem with ⟨rfl, rfl⟩ | ⟨rfl, rfl⟩ | ⟨rfl, rfl⟩ <;> simp only [if_true, Nat.reduceEqDiff, if_false] at htake <;> subst htake
      · exact gives_when (show exec (.clData p) s = execClData p s from rfl) hlive (by simpa only [hb, hx] using hp)
      · exact gives_when (show exec (.clCount p) s = execClCount p s from rfl) hlive (by simpa only [hb] using hp)
      · exact gives_when (show exec (.clDone p) s = execClDone p s from rfl) hlive (by simpa only [hb] using hp)
    refine ⟨fun x o hx ho hrun hfirst => row hx ?_, fun x o hx ho hwait => row hx ?_, fun x hx ho hstale => row hx ?_, fun hx hop => ?_⟩
    · rw [Dev.forOp_launched hx ho hrun hfirst]
    · rw [Dev.forOp_early hx ho hwait]
    · rw [Dev.forOp_stale hx ho hstale]
    · subst hop
      simp only [List.mem_cons, Prod.mk.injEq, List.not_mem_nil, or_false, Nat.reduceEqDiff, and_true, and_false] at hmem
      subst hmem
      exact gives_when (show exec (.clData p) s = execClData p s from rfl) hlive (by simp only [hb, hx])

/-- Settles O23: the checks of GROUP_SET come in the order of the branches; DELETE parts on the record it finds. -/
theorem groupSet : Obligations.GroupSet := by
  intro s r f d1 image del htake hdel g i
  have row : ∀ {P : Dev → Prop} (im : Bytes), (del = true → im = []) → (del = false → im = image) →
      P (s.dev.groupSetDesc r del im) → Gives i s P := by
    intro P im hempty him hp
    cases del with
    | true => exact gives_dev (show exec (.groupDelete r) s = execGroupDelete r s from rfl) (hempty rfl ▸ hp)
    | false => exact gives_dev (show exec (.groupSet r image) s = execGroupSet r image s from rfl) (him rfl ▸ hp)
  refine ⟨fun hg => row (if del then [] else image) (by simp +contextual) (by simp +contextual) ?_, fun x hd hg hx hbusy => row [] (fun _ => rfl) (by simp [hd]) ?_,
    fun x hd hg hx hfree => row [] (fun _ => rfl) (by simp [hd]) ?_, fun hd hg hx => row [] (fun _ => rfl) (by simp [hd]) ?_,
    fun im hd hg him hwin hnum hmemb hmax hnbr hwhole hok hx hroom => row image (by simp [hd]) (fun _ => rfl) ?_⟩
  · simp only [Dev.groupSetDesc, htake, Dev.groupSet, show rdLE f.bytes 16 2 = 0 from hg, if_true]
    rfl
  all_goals
    subst hd
    simp only [Dev.groupSetDesc, htake, Dev.groupSet, show rdLE f.bytes 16 2 = g from rfl, if_neg hg, hx, hdel]
  · simp [hbusy, stCONFLICT, stOK]
  · simp [hfree]
  · simp
  · simp only [← him]
    simp [hwin, hnum, Nat.not_lt.mpr hmax, Nat.not_lt.mpr hnbr, hmemb, hwhole, hok, hroom]

end Sys2Proof.Machine
end

section
/-! The control block and JTAG, the clearing of counters, reset, writes by the register map, and completion records (chapters 14, 18, 19, 20). -/

namespace Sys2Proof.Machine

/-! ## Events of the control block -/

section
variable (d : Dev) (bit addr : Nat)

theorem Dev.out_ctlEvent : (d.ctlEvent bit addr).out = d.out := by
  unfold Dev.ctlEvent
  split <;> rfl

theorem Dev.gb_ctlEvent_self (h : bit < 32) : (d.ctlEvent bit addr).gb aCTL_STAT bit = true := by
  unfold Dev.ctlEvent
  exact Dev.gb_sb_self _ _ _ _ h

theorem Dev.gb_ctlEvent_set {i : Nat} (h : bit < 32) (hi : d.gb aCTL_STAT i = true) : (d.ctlEvent bit addr).gb aCTL_STAT i = true := by
  by_cases hsame : i = bit
  · rw [hsame, Dev.gb_ctlEvent_self _ _ _ h]
  · unfold Dev.ctlEvent
    rw [Dev.gb_sb_other _ _ _ _ _ h hsame]
    split
    · rw [Dev.gb, Dev.rg_wr_ne _ _ (by decide)]; exact hi
    · exact hi

theorem Dev.sameBut_ctlEvent : (d.ctlEvent bit addr).SameBut d [aCTL_STAT, aCTL_BAD_ADDR] := by
  unfold Dev.ctlEvent
  refine Dev.SameBut.trans (Dev.sameBut_sb (by simp) _ _ _) ?_
  split
  · exact Dev.sameBut_wr (by simp) _ _
  · exact Dev.SameBut.refl _ _

/-- The first access to leave a mark leaves its offset too (R498). -/
theorem Dev.badAddr_ctlEvent (h : d.gf aCTL_STAT 0 4 = 0) : (d.ctlEvent bit addr).rg aCTL_BAD_ADDR = BitVec.ofNat 32 (addr % 2 ^ 28) := by
  simp only [Dev.ctlEvent, if_pos h]
  rw [Dev.rg_sb_ne _ _ _ (by decide), Dev.rg_wr_self]

end

theorem Dev.live_iff {d : Dev} : d.live = true ↔ d.perst = true ∧ d.stopped = false := by simp [Dev.live]

/-- Settles O47: a lock bit is ORed in, an access of a wrong size is marked, and the JTAG port shifts out what its instruction selects. -/
theorem controlAndJtag : Obligations.ControlAndJtag := by
  intro s v w d0 a size cells
  refine ⟨fun hsees => gives_bar rfl hsees ⟨Dev.rg_wr_self _ _ _, fun b hb => Dev.rg_wr_ne _ _ hb⟩, fun hlive hsize => ?_,
    gives_dev (f := fun d => d.emit (.jtag 0 [false])) rfl rfl,
    gives_dev (f := fun d => d.emit (.jtag 1 ((List.range 32).map idcode.testBit))) rfl rfl,
    gives_dev (f := fun d => d.emit (.jtag 2 cells)) rfl rfl, ?_, ?_⟩
  · obtain ⟨hperst, hrun⟩ := Dev.live_iff.mp hlive
    have row : ∀ {P : Dev → Prop} (write : Bool), P (s.dev.badAccess write a) → Gives (.bar0BadAccess write a size) s P := fun write hp =>
      gives_when (show exec (.bar0BadAccess write a size) s = execBar0BadAccess write a size s from rfl) (by simp [hperst, hsize]) hp
    refine ⟨row false ?_, row true ?_⟩
    · simp only [Dev.badAccess, Bool.false_eq_true, if_false, Dev.stopped_emit, hrun]
      exact ⟨Dev.out_ctlEvent _ _ _, Dev.gb_ctlEvent_self _ _ _ (by decide)⟩
    · simp only [Dev.badAccess, Bool.false_eq_true, if_true, if_false, hrun]
      exact ⟨Dev.out_ctlEvent _ _ _, Dev.gb_ctlEvent_self _ _ _ (by decide)⟩
  · refine gives_dev (show exec (.jtagExtest cells) s = execJtagExtest cells s from rfl) ?_
    cases h : s.dev.perst <;> simp
  · refine gives_dev (show exec (.jtagExtestPulse cells) s = execJtagExtestPulse cells s from rfl) ?_
    cases h : s.dev.perst <;> simp

/-! ## Clearing counters -/

/-- A run of registers whose reset value is zero reads as zero once cleared, and nothing else changes. -/
theorem Dev.clearRegs_zero (d : Dev) {first n : Nat} (hzero : ∀ k, k < n → regReset (first + 4 * k) = 0) :
    (∀ k, k < n → (d.clearRegs first 4 n).rg (first + 4 * k) = 0) ∧
      (∀ b, (∀ k, k < n → b ≠ first + 4 * k) → (d.clearRegs first 4 n).rg b = d.rg b) ∧
      d.clearRegs first 4 n = { d with regs := (d.clearRegs first 4 n).regs } := by
  refine ⟨fun k hk => ?_, fun b hb => Dev.rg_clearRegs_ne d n fun k hk => Nat.mul_comm 4 k ▸ hb k hk, Dev.clearRegs_eq d _ _ _⟩
  rw [Nat.mul_comm 4 k, Dev.rg_clearRegs_at d (by decide) n k hk, Nat.mul_comm k 4, hzero k hk]

/-- What a clear register does with the value it sees. -/
def clearEffect (first n : Nat) (w : W32) (d : Dev) : Dev := if bitAt w 0 then d.clearRegs first 4 n else d

theorem exec_of_clear {v : W32} {i : Instr} {a first step n : Nat} (h : (i, a, first, step, n) ∈
    [(Instr.rtCntClr v, 0x800028, 0x800008, 4, 8), (.svCntClr v, 0x200014, 0x200004, 4, 4), (.smCntClr v, 0x60040, 0x60030, 4, 4),
      (.clCntClr v, 0xC00014, 0xC00004, 4, 4), (.asCntClr v, 0x70048, 0x70040, 4, 2), (.upCntClr v, 0xC0014, 0xC0004, 4, 4),
      (.memCntClr v, 0x100028, 0x100018, 4, 4), (.hiCntClr v, 0x40002C, 0x400018, 4, 5), (.twCntClr v, 0x90054, 0x90040, 4, 5),
      (.dpCntClr v, 0xA0024, 0xA0100, 4, 24)]) :
    (∀ s, exec i s = devStep (fun d => d.barWrite a v (clearEffect first n)) s) ∧ step = 4 ∧ ∀ k, k < n → regReset (first + 4 * k) = 0 := by
  simp only [List.mem_cons, Prod.mk.injEq, List.not_mem_nil, or_false] at h
  rcases h with ⟨rfl, rfl, rfl, rfl, rfl⟩ | ⟨rfl, rfl, rfl, rfl, rfl⟩ | ⟨rfl, rfl, rfl, rfl, rfl⟩ | ⟨rfl, rfl, rfl, rfl, rfl⟩ |
    ⟨rfl, rfl, rfl, rfl, rfl⟩ | ⟨rfl, rfl, rfl, rfl, rfl⟩ | ⟨rfl, rfl, rfl, rfl, rfl⟩ | ⟨rfl, rfl, rfl, rfl, rfl⟩ | ⟨rfl, rfl, rfl, rfl, rfl⟩ |
    ⟨rfl, rfl, rfl, rfl, rfl⟩ <;> exact ⟨fun _ => rfl, rfl, by decide⟩

/-- Settles O48: the ten clear registers share one effect; the Lamp Room's counters are cleared in the same way. -/
theorem countersCleared : Obligations.CountersCleared := by
  refine ⟨fun s v w d0 i a first step n hsees hmem => ?_, fun s v w d0 => ⟨fun hsees hone => ?_, fun hsees hone hport => ?_, fun hsees hone => ?_⟩⟩
  · obtain ⟨hexec, rfl, hzero⟩ := exec_of_clear hmem
    refine ⟨fun hone => gives_bar (hexec s) hsees ?_, fun hzero => gives_bar (hexec s) hsees (if_neg (by rw [show bitAt w 0 = false from hzero]; exact Bool.false_ne_true))⟩
    rw [clearEffect, if_pos (show bitAt w 0 = true from hone)]
    exact d0.clearRegs_zero hzero
  · obtain ⟨hclear, hkeep, -⟩ := d0.clearRegs_zero (first := aCNT_PUSHOUT) (n := 6) (by decide)
    refine gives_bar rfl hsees ?_
    rw [lrCntClrEffect, if_pos (show bitAt w 0 = true from hone)]
    refine ⟨fun k hk => ?_, Dev.rg_wr_self _ _ _, fun b hb hrun => ?_⟩
    · rw [Dev.rg_wr_ne _ _ (by simp only [aCNT_PUSHOUT, aLR_LOW]; omega), hclear k hk]
    · rw [Dev.rg_wr_ne _ _ hb, hkeep b hrun]
  · refine gives_bar rfl hsees (if_pos ?_)
    rw [show bitAt w 31 = true from hone, decide_eq_true hport]
    rfl
  · exact gives_bar rfl hsees (if_pos hone)

/-! ## Reset -/

section
variable {a : Nat}

theorem blockRows_lane (hlo : 0x30000 ≤ a) (hhi : a < 0x40000) : blockRows a = regsLane := by
  unfold blockRows
  repeat rw [if_neg (by omega)]
  rw [if_pos (by omega)]

theorem blockRows_host (hlo : 0x400000 ≤ a) (hhi : a < 0x600000) : blockRows a = regsHost := by
  unfold blockRows
  repeat rw [if_neg (by omega)]
  rw [if_pos (by omega)]

/-- A register of the table that no stepping, grade or recipe gives takes its row's reset value. -/
theorem regReset_of_row {r : RegRow} (hrow : regRow a = some r) (hstep : a ≠ 0x4) (hshape : a ≠ 0x7000C) (hrcp : a < 0x61000 ∨ 0x61800 ≤ a)
    (hpool : a < 0x100060 ∨ 0x100080 ≤ a) : regReset a = r.reset := by
  rw [regReset, if_neg hstep, if_neg hshape, if_neg (by omega), if_neg (by omega), hrow]

end

theorem regRow_aLN_PORT_STAT {p : Nat} (h : p ≤ 256) : regRow (aLN_PORT_STAT p) = some (rn 0x30400 257 0x4 0 0 0 0) := by
  rw [regRow, blockRows_lane (by unfold aLN_PORT_STAT; omega) (by unfold aLN_PORT_STAT; omega)]
  simp (disch := (simp only [RegRow.covers_array, RegRow.covers_single, aLN_PORT_STAT]; omega)) only [regsLane, List.find?_cons_of_neg,
    List.find?_cons_of_pos]

theorem regRow_ringStat {r : Nat} (h : r < 8192) : regRow (aRING r + 4) = some (rn 0x500004 8192 0x40 0 0 0 0) := by
  rw [regRow, blockRows_host (by unfold aRING; omega) (by unfold aRING; omega)]
  simp (disch := (simp only [RegRow.covers_array, RegRow.covers_single, aRING]; omega)) only [regsHost, List.find?_cons_of_neg,
    List.find?_cons_of_pos]

theorem regReset_aLN_PORT_STAT {p : Nat} (h : p ≤ 256) : regReset (aLN_PORT_STAT p) = 0 := by
  have haddr : aLN_PORT_STAT p = 0x30400 + 4 * p := rfl
  exact regReset_of_row (regRow_aLN_PORT_STAT h) (by omega) (by omega) (by omega) (by omega)

theorem regReset_ringStat {r : Nat} (h : r < 8192) : regReset (aRING r + 4) = 0 := by
  have haddr : aRING r = 0x500000 + 0x40 * r := rfl
  exact regReset_of_row (regRow_ringStat h) (by omega) (by omega) (by omega) (by omega)

theorem rg_reset (a : Nat) : State.reset.dev.rg a = regReset a := rfl

/-- Settles O52: nothing is listed after reset, so every register reads its reset value. -/
theorem resetState : Obligations.ResetState := by
  refine ⟨rfl, rfl, rfl, rfl, by decide, by decide, by decide, fun p hp => ?_, fun r hr => ?_, by decide, by decide, rg_reset, rfl, rfl, rfl, rfl, rfl, rfl, rfl,
    rfl⟩
  · rw [Dev.portState, Dev.gf, rg_reset, regReset_aLN_PORT_STAT hp]
    rfl
  · rw [Dev.ringState, Dev.gf, rg_reset, regReset_ringStat hr]
    rfl

/-! ## Writes by the register map -/

section
variable {d : Dev} {a : Nat} {v : W32} (hlive : d.live = true) (hlead : d.follower = false)
include hlive hlead

/-- What an early write leaves: EARLY, and HOLE beside it where no register stands (R490, R494). -/
theorem Dev.barMarks_of_early (hearly : d.early a = true) :
    d.barSees a v = none ∧ (d.barMarks a v).gb aCTL_STAT 3 = true ∧ (d.barMarks a v).SameBut d [aCTL_STAT, aCTL_BAD_ADDR] := by
  refine ⟨by simp [Dev.barSees, hearly], ?_⟩
  simp only [Dev.barMarks, hlive, hlead, hearly, Bool.not_true, Bool.false_and, Bool.false_eq_true, if_false, if_true]
  split
  · exact ⟨Dev.gb_ctlEvent_set _ _ _ (by decide) (Dev.gb_ctlEvent_self _ _ _ (by decide)),
      (Dev.sameBut_ctlEvent _ _ _).trans (Dev.sameBut_ctlEvent _ _ _)⟩
  · exact ⟨Dev.gb_ctlEvent_self _ _ _ (by decide), Dev.sameBut_ctlEvent _ _ _⟩

/-- What a write at no register leaves: HOLE (R490). -/
theorem Dev.barMarks_of_hole (hhole : regRow a = none) :
    d.barSees a v = none ∧ (d.barMarks a v).gb aCTL_STAT 2 = true ∧ (d.barMarks a v).SameBut d [aCTL_STAT, aCTL_BAD_ADDR] := by
  refine ⟨by simp [Dev.barSees, hhole], ?_⟩
  simp only [Dev.barMarks, hlive, hlead, hhole, Bool.not_true, Bool.false_and, Bool.false_eq_true, if_false]
  refine ⟨Dev.gb_ctlEvent_self _ _ _ (by decide), (Dev.sameBut_ctlEvent _ _ _).trans ?_⟩
  split
  · exact Dev.sameBut_ctlEvent _ _ _
  · exact Dev.SameBut.refl _ _

/-- What a write leaves that a lock keeps whole: LOCK_WR (R497). -/
theorem Dev.barMarks_of_locked {r : RegRow} (hopen : d.early a = false) (hrow : regRow a = some r) (hlocked : d.lockedAt a = true) (hrwl : r.rwl ≠ 0)
    (hrw : r.rw = 0) (hw1c : r.w1c = 0) (hdiff : (v ^^^ d.rg a) &&& r.rwl ≠ 0) :
    d.barSees a v = none ∧ d.barMarks a v = d.ctlEvent 0 a := by
  have hkept : r.rwl ≠ 0 ∧ r.rw = 0 ∧ r.w1c = 0 := ⟨hrwl, hrw, hw1c⟩
  refine ⟨by simp only [Dev.barSees, hrow, hlocked, if_pos hkept]; simp, ?_⟩
  simp only [Dev.barMarks, hlive, hlead, hopen, hrow, hlocked, bne_iff_ne.mpr hdiff, Bool.not_true, Bool.false_and, Bool.and_self, Bool.false_eq_true,
    if_false, if_true]

end

/-- The registers without a rule of their own in the control, boot, host-interface and collective blocks. -/
theorem regEffect_plain {a : Nat} (v : W32) (d : Dev)
    (h : (a < 0x20000 ∧ a ≠ 0xC) ∨ 0xC00020 ≤ a ∨ (0x400000 ≤ a ∧ a < 0x500000 ∧ a ≠ aHI_CFG ∧ a ≠ 0x40002C)) :
    regEffect a v d = Dev.plainWrite a v d := by
  unfold regEffect
  rcases h with ⟨hlo, hlock⟩ | hhi | ⟨hlo, hhi, hcfg, hclr⟩
  · rw [if_neg hlock, if_pos hlo]
  · rw [if_neg (by omega)]
    iterate 9 rw [if_neg (by omega)]
  · rw [if_neg (by omega)]
    iterate 6 rw [if_neg (by omega)]
    rw [if_pos (by omega), if_neg hcfg, if_neg hclr, if_neg (by omega)]

/-- REGISTER_WRITE of BAR0 beside RING_CTRL and the partition. -/
theorem exec_registerWrite_eq {a : Nat} {v : W32} (s : State) (halign : a % 4 = 0) (hbar0 : a < 0x10000000)
    (hring : a < 0x500000 ∨ 0x580000 ≤ a ∨ a % 0x40 ≠ 0) (hws : a ≠ aMEM_WS) (hpart : a < aMEM_PART 0 ∨ aMEM_PART 4 ≤ a) :
    exec (.registerWrite a v) s = devStep (fun d => d.barWrite a v (regEffect a)) s := by
  rw [exec_registerWrite, execRegisterWrite, if_neg (by omega), if_neg (by omega), if_neg (by omega), if_neg (by omega)]

/-- Settles O54: a write that brings its register no value leaves its marks; one that reaches a plain register is stored by its row. -/
theorem registerWrites : Obligations.RegisterWrites := by
  intro s a v w d0 r hlive hlead halign hbar0 hring hws hpart
  have marks : ∀ {P : Dev → Prop}, s.dev.barSees a v = none → P (s.dev.barMarks a v) → Gives (.registerWrite a v) s P := fun hnone hp =>
    ⟨_, exec_registerWrite_of_barSees_none hnone halign hbar0, hp⟩
  refine ⟨fun hearly => ?_, fun hhole => ?_, fun hopen hrow hlocked hrwl hrw hw1c hdiff => ?_, fun hsees hrow hplain => ?_⟩
  · obtain ⟨hnone, hp⟩ := Dev.barMarks_of_early (v := v) hlive hlead hearly
    exact marks hnone hp
  · obtain ⟨hnone, hp⟩ := Dev.barMarks_of_hole (v := v) hlive hlead hhole
    exact marks hnone hp
  · obtain ⟨hnone, hmarks⟩ := Dev.barMarks_of_locked hlive hlead hopen hrow hlocked hrwl hrw hw1c hdiff
    refine marks hnone ?_
    rw [hmarks]
    exact ⟨Dev.gb_ctlEvent_self _ _ _ (by decide), Dev.sameBut_ctlEvent _ _ _, Dev.badAddr_ctlEvent _ _ _⟩
  · refine gives_bar (exec_registerWrite_eq s halign hbar0 hring hws hpart) hsees ?_
    rw [regEffect_plain w d0 hplain]
    refine ⟨plainWrite_same a w d0, ?_⟩
    simp only [Dev.plainWrite, hrow, Dev.rg_wr_self]

/-! ## Completion records -/

theorem cplBytes_length (ref : DescRef) (c : Cpl) (phase : Bool) : (cplBytes ref c phase).length = 32 := by
  simp [cplBytes, toLE]

/-- CQ_TAIL with its PHASE as one word. -/
theorem fld_tailWord {next : Nat} (phase : Bool) (h : next < 65536) : fld (BitVec.ofNat 32 (next + 65536 * phase.toNat)) 0 16 = next ∧
    bitAt (BitVec.ofNat 32 (next + 65536 * phase.toNat)) 16 = phase := by
  have hword : (BitVec.ofNat 32 (next + 65536 * phase.toNat)).toNat = next + 65536 * phase.toNat := by
    rw [BitVec.toNat_ofNat]
    cases phase <;> simp <;> omega
  rw [bitAt_fld]
  simp only [fld, nfld, hword]
  cases phase <;> simp <;> omega

section
variable (d : Dev) (r : Nat)

theorem Dev.out_retire : (d.retire r).out = d.out := by
  unfold Dev.retire
  dsimp only
  split <;> rfl

theorem Dev.rg_retire_ne {a : Nat} (hcount : a ≠ aRING r + 0x34) (hstat : a ≠ aRING r + 4) : (d.retire r).rg a = d.rg a := by
  unfold Dev.retire
  dsimp only
  split
  · rw [Dev.rg_sf_ne _ _ _ _ hstat, Dev.rg_sf_ne _ _ _ _ hcount]
  · rw [Dev.rg_sf_ne _ _ _ _ hcount]

/-- One fetched descriptor fewer is in flight. -/
theorem Dev.inflight_retire : (d.retire r).gf (aRING r + 0x34) 0 17 = d.gf (aRING r + 0x34) 0 17 - 1 := by
  have hlt : d.gf (aRING r + 0x34) 0 17 - 1 < 2 ^ 17 := by
    have : d.gf (aRING r + 0x34) 0 17 < 2 ^ 17 := Nat.mod_lt _ (by decide)
    omega
  unfold Dev.retire
  dsimp only
  split
  · rw [Dev.gf_sf_ne _ _ _ _ _ _ (by omega), Dev.gf_sf_self _ _ _ _ _ (by decide), Nat.mod_eq_of_lt hlt]
  · rw [Dev.gf_sf_self _ _ _ _ _ (by decide), Nat.mod_eq_of_lt hlt]

end

/-- Settles O59: the record's two writes, the tail with its phase, and the count in flight, each read back from the registers it was put in. -/
theorem completionRecords : Obligations.CompletionRecords := by
  intro d ref c rb idx phase bytes r
  refine ⟨cplBytes_length _ _ _, fun hgone => if_pos hgone, fun hgen hrun hvec hring hsize => ?_⟩
  have hrb : rb = 0x500000 + 0x40 * ref.ring := rfl
  let next := (idx + 1) % d.cqSize ref.ring
  let word := BitVec.ofNat 32 (next + 65536 * (if next = 0 then !phase else phase).toNat)
  let d1 := ((d.emit (.hostWrite (d.rg64 (rb + 0x10) + 32 * idx + 1) (bytes.drop 1))).emit (.hostWrite (d.rg64 (rb + 0x10) + 32 * idx) (bytes.take 1))).wr
    (rb + 0x2C) word
  have hr : r = (d1.retire ref.ring).count aCNT_CPL := by
    have hgb : ((d1.retire ref.ring).count aCNT_CPL).gb rb 2 = d.gb rb 2 := by
      rw [Dev.gb, Dev.rg_count_ne _ (by rw [hrb]; unfold aCNT_CPL; omega), Dev.rg_retire_ne _ _ (by show rb ≠ rb + _; omega) (by show rb ≠ rb + _; omega),
        Dev.rg_wr_ne _ _ (by omega)]
      rfl
    have hlive : ¬(ref.gen ≠ d.hi.gen ∨ d.stopped = true) := by simp [hgen, hrun]
    refine (if_neg hlive).trans (if_neg ?_)
    change ¬((((d1.retire ref.ring).count aCNT_CPL).gb rb 2 && !ref.quiet) = true)
    rw [hgb, hvec]
    exact Bool.false_ne_true
  have htail : r.rg (rb + 0x2C) = word := by
    rw [hr, Dev.rg_count_ne _ (by rw [hrb]; unfold aCNT_CPL; omega), Dev.rg_retire_ne _ _ (by show rb + _ ≠ rb + _; omega) (by show rb + _ ≠ rb + _; omega)]
    exact Dev.rg_wr_self _ _ _
  have hnext : next < 65536 := by
    have hpos : 0 < d.cqSize ref.ring := Nat.two_pow_pos _
    have hle : d.cqSize ref.ring ≤ 2 ^ 16 := Nat.pow_le_pow_right (by decide) (Nat.add_le_add_right hsize 4)
    exact Nat.lt_of_lt_of_le (Nat.mod_lt _ hpos) hle
  refine ⟨?_, fun hidx => ?_, fun hpos => ?_⟩
  · rw [hr, Dev.count_out, Dev.out_retire]
    simp [d1, Dev.emit]
  · rw [Dev.gf, Dev.gb, htail]
    exact fld_tailWord _ hnext
  · have hcount : r.gf (rb + 0x34) 0 17 = (d1.retire ref.ring).gf (rb + 0x34) 0 17 := by
      rw [hr, Dev.gf, Dev.gf, Dev.rg_count_ne _ (by rw [hrb]; unfold aCNT_CPL; omega)]
    rw [hcount, show rb = aRING ref.ring from rfl, Dev.inflight_retire]
    rw [Dev.gf_wr_ne _ _ _ _ (by show rb + _ ≠ rb + _; omega)]
    rfl

end Sys2Proof.Machine
end

section
/-! Markers, beats, strikes and gate engines (chapter 2). -/

namespace Sys2Proof.Machine

/-! ## Ports -/

section
variable (d : Dev) (p : Nat) (x : Port) (f : Port → Port)

@[simp] theorem Dev.port_setPort_self : (d.setPort p x).port p = x := mget_mput_self _ _ _ _

@[simp] theorem Dev.port_modPort_self : (d.modPort p f).port p = f (d.port p) := mget_mput_self _ _ _ _

theorem Dev.port_modPort_ne {q : Nat} (h : q ≠ p) : (d.modPort p f).port q = d.port q := mget_mput_ne _ _ _ _ h

@[simp] theorem Dev.rg_modPort (a : Nat) : (d.modPort p f).rg a = d.rg a := rfl
@[simp] theorem Dev.gf_modPort (a lo w : Nat) : (d.modPort p f).gf a lo w = d.gf a lo w := rfl
@[simp] theorem Dev.gb_modPort (a i : Nat) : (d.modPort p f).gb a i = d.gb a i := rfl
@[simp] theorem Dev.tm_modPort : (d.modPort p f).tm = d.tm := rfl

end

/-- Devices with the same ports. -/
theorem Dev.port_congr {d d1 : Dev} (h : d1.ports = d.ports) (p : Nat) : d1.port p = d.port p := by rw [Dev.port, Dev.port, h]

/-! ## Time markers (R23, R24, R66) -/

section
variable (d : Dev) (e : Int) (depth : Nat) (hold : Bool)

theorem Dev.ports_servo : (d.servo e).ports = d.ports := by
  unfold Dev.servo
  split_ifs <;> rfl

theorem Dev.lost_servo : (d.servo e).tm.lost = d.tm.lost := by
  unfold Dev.servo
  split_ifs <;> rfl

theorem Dev.srcDepth_servo : (d.servo e).tm.srcDepth = d.tm.srcDepth := by
  unfold Dev.servo
  split_ifs <;> rfl

theorem Dev.ports_ptState (st : Nat) : (d.ptState st).ports = d.ports := rfl

theorem Dev.ports_measure : (d.measure e depth hold).ports = d.ports := by
  unfold Dev.measure
  dsimp only
  split_ifs <;> simp [Dev.ports_ptState, Dev.ports_servo]

theorem Dev.srcDepth_measure : (d.measure e depth hold).tm.srcDepth = depth := by
  unfold Dev.measure
  dsimp only
  split_ifs <;> simp [Dev.tm_ptState, Dev.srcDepth_servo]

/-- A source of a depth below 15 is no longer lost (R26, R28). -/
theorem Dev.lost_measure (hdepth : depth ≠ 15) : (d.measure e depth hold).tm.lost = false := by
  have hfar : (depth == 15 && d.gf aPT_CTRL 0 3 != 1) = false := by simp [hdepth]
  unfold Dev.measure
  simp only [hfar, Bool.and_false, Bool.false_and, Bool.false_eq_true, if_false]
  split_ifs <;> simp [Dev.tm_ptState, Dev.lost_servo]

end

/-- The source selected is the port's markers (R22). -/
def Dev.selects (d : Dev) (p : Nat) : Prop := d.gf aPT_CTRL 0 3 = 2 ∧ p = d.gf aPT_CTRL 8 8 ∨ d.gf aPT_CTRL 0 3 = 3 ∧ p = 256

theorem Dev.selects_iff {d : Dev} {p : Nat} :
    ((d.gf aPT_CTRL 0 3 == 2 && p == d.gf aPT_CTRL 8 8) || (d.gf aPT_CTRL 0 3 == 3 && p == 256)) = true ↔ d.selects p := by
  simp [Dev.selects]

/-- The oldest marker, a time marker, leaves the port; a clean one is to be echoed (R66). -/
def Dev.markerTaken (d : Dev) (p : Nat) (m : RxMarker) (rest : List RxMarker) : Dev :=
  d.modPort p fun x => { x with markerIn := rest, echo := if m.clean then some (nfld m.word 12 8, m.stamp) else x.echo }

theorem Dev.port_markerTaken (d : Dev) (p : Nat) (m : RxMarker) (rest : List RxMarker) :
    (d.markerTaken p m rest).port p =
      { d.port p with markerIn := rest, echo := if m.clean then some (nfld m.word 12 8, m.stamp) else (d.port p).echo } :=
  Dev.port_modPort_self _ _ _

section
variable {s : State} {p : Nat} {m : RxMarker} {rest : List RxMarker} (hlive : s.dev.live = true) (hin : (s.dev.port p).markerIn = m :: rest)
  (htime : m.word % 16 = 1)
include hlive hin htime

theorem exec_timeMarker_unmeasured (h : m.clean = false ∨ ¬s.dev.selects p) :
    exec (.timeMarker p) s = devStep (fun d => d.markerTaken p m rest) s := by
  have hchosen : ((((s.dev.gf aPT_CTRL 0 3 == 2 && p == s.dev.gf aPT_CTRL 8 8) || (s.dev.gf aPT_CTRL 0 3 == 3 && p == 256)) && m.clean)) = false := by
    rw [← Dev.selects_iff] at h
    rcases h with h | h
    · simp [h]
    · rw [Bool.not_eq_true] at h
      rw [h, Bool.false_and]
  show execTimeMarker p s = _
  simp only [execTimeMarker, devStep, hlive, Dev.when_true, hin, htime, ne_eq, not_true_eq_false, if_false, Dev.gf_modPort, hchosen, Bool.not_false,
    if_true, Dev.markerTaken]

theorem exec_timeMarker_measured {e : Int} (hclean : m.clean = true) (hsel : s.dev.selects p) (he : s.dev.markerError p m = some e) :
    exec (.timeMarker p) s = devStep (fun d =>
      ({ d.markerTaken p m rest with tm := { d.tm with quiet := 0 } }).measure e (nfld m.word 6 4) (m.word.testBit 10)) s := by
  have hchosen := Dev.selects_iff.mpr hsel
  have herr : ({ s.dev.markerTaken p m rest with tm := { s.dev.tm with quiet := 0 } } : Dev).markerError p m = some e := by
    rw [← he]
    unfold Dev.markerError
    rw [show ({ s.dev.markerTaken p m rest with tm := { s.dev.tm with quiet := 0 } } : Dev).port p = _ from Dev.port_markerTaken _ _ _ _]
    rfl
  simp only [Dev.markerTaken, hclean, if_true] at herr
  show execTimeMarker p s = _
  simp only [execTimeMarker, devStep, hlive, Dev.when_true, hin, htime, ne_eq, not_true_eq_false, if_false, Dev.gf_modPort, hchosen, hclean,
    Bool.not_true, Bool.and_self, Bool.false_eq_true, Dev.markerTaken, if_true, Dev.tm_modPort, herr]

end

/-! ## Beats (R31, R32) -/

/-- The relay of a beat changes the ports alone. -/
theorem Dev.relayBeat_ports (d : Dev) (n : W32) (stamp : W64) : d.relayBeat n stamp = { d with ports := (d.relayBeat n stamp).ports } := by
  unfold Dev.relayBeat
  generalize (List.range 257).filter (fun p => d.portState p == 6) = ps
  induction ps generalizing d with
  | nil => rfl
  | cons p ps ih => rw [List.foldl_cons, ih]; rfl

/-- A beat where no comparator is armed: the log and the relay are all there is. -/
theorem Dev.takeBeat_of_noCmps {d : Dev} (h : d.tm.cmps = []) (m : List Host.Cell) (n : W32) (stamp : W64) :
    d.takeBeat m n stamp = ((d.logBeat n stamp).relayBeat n stamp, m) := by
  have hreload : (d.logBeat n stamp).reload n stamp = d.logBeat n stamp := by simp [Dev.reload, Dev.logBeat, h]
  have hlate : ((d.logBeat n stamp).relayBeat n stamp).beatLate n = [] := by
    rw [Dev.beatLate, Dev.relayBeat_ports]
    simp [Dev.logBeat, h]
  simp only [Dev.takeBeat, hreload, hlate, List.foldl_nil]

section
variable {s : State} {rising : Bool} (hlive : s.dev.live = true) (hsrc : s.dev.beatSrc = 0) (hpol : s.dev.gb aBEAT_CFG 2 = !rising)
include hlive hsrc hpol

/-- An edge that keeps MIN_GAP is a beat (R31). -/
theorem exec_beatInEdge_far (hgap : ∀ t, s.dev.tm.lastEdge = some t → 0 ≤ s.dev.since t →
    Int.ofNat (s.dev.gf aBEAT_CFG 16 16 * 4096) ≤ s.dev.since t) :
    exec (.beatInEdge rising) s = memStep (fun d m =>
      { d with tm := { d.tm with lastEdge := some d.now } }.takeBeat m (d.tm.beatCount + 1) d.now) s := by
  have hgo : (!s.dev.live || s.dev.beatSrc != 0 || s.dev.gb aBEAT_CFG 2 == rising) = false := by simp [hlive, hsrc, hpol]
  show execBeatInEdge rising s = _
  cases hlast : s.dev.tm.lastEdge with
  | none => simp only [execBeatInEdge, memStep, hgo, hlast, Bool.false_eq_true, if_false]
  | some t =>
    have hfar : (decide (0 ≤ s.dev.since t) && decide (s.dev.since t < Int.ofNat (s.dev.gf aBEAT_CFG 16 16 * 4096))) = false := by
      have hkept := hgap t hlast
      simp only [Bool.and_eq_false_iff, decide_eq_false_iff_not]
      omega
    simp only [execBeatInEdge, memStep, hgo, hlast, hfar, Bool.false_eq_true, if_false]

/-- An edge within MIN_GAP of the last is only counted (R31). -/
theorem exec_beatInEdge_near {t : W64} (hlast : s.dev.tm.lastEdge = some t) (h0 : 0 ≤ s.dev.since t)
    (hnear : s.dev.since t < Int.ofNat (s.dev.gf aBEAT_CFG 16 16 * 4096)) :
    exec (.beatInEdge rising) s = memStep (fun d m => (d.sf aBEAT_STAT 0 16 (min 0xFFFF (d.gf aBEAT_STAT 0 16 + 1)), m)) s := by
  have hgo : (!s.dev.live || s.dev.beatSrc != 0 || s.dev.gb aBEAT_CFG 2 == rising) = false := by simp [hlive, hsrc, hpol]
  show execBeatInEdge rising s = _
  simp only [execBeatInEdge, memStep, hgo, hlast, decide_eq_true h0, decide_eq_true hnear, Bool.false_eq_true, if_false, Bool.and_self, if_true]

end

/-- Settles O3: a time marker is a measurement on the selected source alone, and a beat is logged and relayed by whichever way it comes. -/
theorem markersAndBeats : Obligations.MarkersAndBeats := by
  unfold Obligations.MarkersAndBeats
  refine ⟨fun s p hlive => ⟨fun m rest hin htime hno => ?_, fun m rest e hin htime hclean hsel he => ?_, fun hup hdue => ?_⟩,
    fun s rising p hlive => ⟨fun hsrc hpol hgap hcmps => ?_, fun t hsrc hpol hlast h0 hnear => ?_, fun x rest hin hbeat hsrc hp hcmps => ?_,
      fun x rest hin hbeat hno => ?_⟩⟩
  · exact gives_dev (exec_timeMarker_unmeasured hlive hin htime hno) ⟨rfl, by rw [Dev.port_markerTaken], rfl⟩
  · refine gives_dev (exec_timeMarker_measured hlive hin htime hclean hsel he) ?_
    have hport := (Dev.port_congr (Dev.ports_measure { s.dev.markerTaken p m rest with tm := { s.dev.tm with quiet := 0 } } e (nfld m.word 6 4)
      (m.word.testBit 10)) p).trans (Dev.port_markerTaken s.dev p m rest)
    refine ⟨?_, ?_, Dev.quiet_measure _ _ _ _, Dev.srcDepth_measure _ _ _ _, Dev.lost_measure _ _ _ _⟩
    · rw [hport]
    · rw [hport, hclean]
      rfl
  · refine gives_whenAt (show execTimeMarkerSend p s = _ from rfl) ?_ ?_
    · simp [hlive, hup]
      exact hdue
    · exact ⟨rfl, by rw [Dev.port_modPort_self], by rw [Dev.port_modPort_self], fun q hq => Dev.port_modPort_ne _ _ _ hq⟩
  · refine yields_mem (exec_beatInEdge_far hlive hsrc hpol hgap) ?_
    rw [Dev.takeBeat_of_noCmps (show ({ s.dev with tm := { s.dev.tm with lastEdge := some s.dev.now } } : Dev).tm.cmps = [] from hcmps)]
    dsimp only
    rw [Dev.relayBeat_ports]
    exact ⟨rfl, rfl, rfl, rfl, rfl, rfl, rfl⟩
  · exact yields_mem (exec_beatInEdge_near hlive hsrc hpol hlast h0 hnear) ⟨rfl, rfl⟩
  · refine yields_mem (show exec (.beatMarker p) s = execBeatMarker p s from rfl) ?_
    have htaken : (s.dev.modPort p fun y => { y with markerIn := rest }).tm.cmps = [] := hcmps
    have hmine : (s.dev.modPort p fun y => { y with markerIn := rest }).beatSrc = 1 ∧
        p = (s.dev.modPort p fun y => { y with markerIn := rest }).beatLink := ⟨hsrc, hp⟩
    simp only [hlive, if_true, hin, hbeat, ne_eq, not_true_eq_false, if_false, if_pos hmine, Dev.takeBeat_of_noCmps htaken]
    rw [Dev.relayBeat_ports]
    exact ⟨trivial, rfl, rfl, rfl, rfl⟩
  · refine yields_mem (show exec (.beatMarker p) s = execBeatMarker p s from rfl) ?_
    have hother : ¬((s.dev.modPort p fun y => { y with markerIn := rest }).beatSrc = 1 ∧
        p = (s.dev.modPort p fun y => { y with markerIn := rest }).beatLink) := hno
    simp only [hlive, if_true, hin, hbeat, ne_eq, not_true_eq_false, if_false, if_neg hother]
    exact ⟨trivial, rfl, by rw [Dev.port_modPort_self]⟩

/-! ## Completion records -/

section
variable (d : Dev) (r v : Nat)

/-- A message changes what has been sent and what is pending, nothing else. -/
theorem Dev.sendVec_eq : d.sendVec v = { d with out := (d.sendVec v).out, hi := (d.sendVec v).hi } := by
  unfold Dev.sendVec
  split <;> rfl

theorem Dev.countVec_eq : d.countVec v = { d with out := (d.countVec v).out, hi := (d.countVec v).hi } := by
  unfold Dev.countVec
  dsimp only
  split
  · rw [Dev.sendVec_eq]
  · rfl

theorem Dev.retire_eq : d.retire r = { d with regs := (d.retire r).regs } := by
  unfold Dev.retire
  dsimp only
  split <;> rfl

end

/-- The end of a completion: one descriptor fewer in flight, one completion more, and the vector that counts it. -/
def Dev.counted (d : Dev) (r v : Nat) (vec : Bool) : Dev :=
  let d := (d.retire r).count aCNT_CPL
  if vec then d.countVec v else d

theorem Dev.counted_eq (d : Dev) (r v : Nat) (vec : Bool) :
    d.counted r v vec = { d with regs := (d.counted r v vec).regs, out := (d.counted r v vec).out, hi := (d.counted r v vec).hi } := by
  unfold Dev.counted
  dsimp only
  split
  · rw [Dev.countVec_eq, Dev.count, Dev.countBy, Dev.retire_eq]
    rfl
  · rw [Dev.count, Dev.countBy, Dev.retire_eq]
    rfl

theorem Dev.rg_countVec (d : Dev) (v a : Nat) : (d.countVec v).rg a = d.rg a := by
  rw [Dev.countVec_eq]
  rfl

theorem Dev.rg_counted_ne (d : Dev) (r v : Nat) (vec : Bool) {a : Nat} (hcount : a ≠ aCNT_CPL) (hflight : a ≠ aRING r + 0x34) (hstat : a ≠ aRING r + 4) :
    (d.counted r v vec).rg a = d.rg a := by
  have hkept : ((d.retire r).count aCNT_CPL).rg a = d.rg a := by rw [Dev.rg_count_ne _ hcount, Dev.rg_retire_ne _ _ hflight hstat]
  unfold Dev.counted
  dsimp only
  split
  · rw [Dev.rg_countVec, hkept]
  · exact hkept

/-- A completion that writes its record: what is sent, CQ_TAIL, and the counting of it. -/
theorem Dev.complete_counted {d : Dev} {ref : DescRef} (c : Cpl) (h : ¬(ref.gen ≠ d.hi.gen ∨ d.stopped = true)) :
    ∃ d1 v vec, d.complete ref c = Dev.counted d1 ref.ring v vec ∧ d1 = { d with regs := d1.regs, out := d1.out } ∧
      ∀ a, a ≠ aRING ref.ring + 0x2C → d1.rg a = d.rg a := by
  rw [Dev.complete, if_neg h]
  exact ⟨_, _, _, rfl, rfl, fun a ha => Dev.rg_wr_ne _ _ ha⟩

/-- A completion record changes the registers of its ring and what has been sent or is pending, nothing else. -/
theorem Dev.complete_eq (d : Dev) (ref : DescRef) (c : Cpl) :
    d.complete ref c = { d with regs := (d.complete ref c).regs, out := (d.complete ref c).out, hi := (d.complete ref c).hi } := by
  by_cases h : ref.gen ≠ d.hi.gen ∨ d.stopped = true
  · rw [Dev.complete, if_pos h]
  · obtain ⟨d1, v, vec, heq, hd1, -⟩ := Dev.complete_counted c h
    rw [heq, Dev.counted_eq, hd1]

section
variable (d : Dev) (ref : DescRef) (c : Cpl)

@[simp] theorem Dev.free_complete : (d.complete ref c).free = d.free := by rw [Dev.complete_eq]
@[simp] theorem Dev.perst_complete : (d.complete ref c).perst = d.perst := by rw [Dev.complete_eq]
@[simp] theorem Dev.tm_complete : (d.complete ref c).tm = d.tm := by rw [Dev.complete_eq]
@[simp] theorem Dev.ports_complete : (d.complete ref c).ports = d.ports := by rw [Dev.complete_eq]
@[simp] theorem Dev.lanes_complete : (d.complete ref c).lanes = d.lanes := by rw [Dev.complete_eq]
@[simp] theorem Dev.fb_complete : (d.complete ref c).fb = d.fb := by rw [Dev.complete_eq]
@[simp] theorem Dev.dp_complete : (d.complete ref c).dp = d.dp := by rw [Dev.complete_eq]
@[simp] theorem Dev.sm_complete : (d.complete ref c).sm = d.sm := by rw [Dev.complete_eq]
@[simp] theorem Dev.cl_complete : (d.complete ref c).cl = d.cl := by rw [Dev.complete_eq]
@[simp] theorem Dev.sh_complete : (d.complete ref c).sh = d.sh := by rw [Dev.complete_eq]
@[simp] theorem Dev.tw_complete : (d.complete ref c).tw = d.tw := by rw [Dev.complete_eq]
@[simp] theorem Dev.as_complete : (d.complete ref c).as_ = d.as_ := by rw [Dev.complete_eq]
@[simp] theorem Dev.me_complete : (d.complete ref c).me = d.me := by rw [Dev.complete_eq]
@[simp] theorem Dev.bt_complete : (d.complete ref c).bt = d.bt := by rw [Dev.complete_eq]

end

/-- A register below the rings' keeps its value: the count of completions alone is written there. -/
theorem Dev.rg_complete_below (d : Dev) (ref : DescRef) (c : Cpl) {a : Nat} (ha : a < 0x500000) (hcount : a ≠ aCNT_CPL) :
    (d.complete ref c).rg a = d.rg a := by
  have hring : ∀ k, a ≠ aRING ref.ring + k := by
    intro k
    unfold aRING
    omega
  by_cases h : ref.gen ≠ d.hi.gen ∨ d.stopped = true
  · rw [Dev.complete, if_pos h]
  · obtain ⟨d1, v, vec, heq, -, hrg⟩ := Dev.complete_counted c h
    rw [heq, Dev.rg_counted_ne _ _ _ _ hcount (hring _) (hring _), hrg a (hring _)]

/-! ## Strikes (R38, R40, R44) -/

theorem Dev.fires_eq_some {d : Dev} {c : Nat} {x : Cmp} (h : d.fires c = some x) :
    d.tm.cmps.find? (fun y => y.id == c) = some x ∧ x.id = c ∧ d.gf aPT_STAT 0 3 ≠ 0 ∧ d.cmpDue x = true ∧
      ∀ y ∈ d.tm.cmps, y.id = x.id ∨ ¬(d.cmpDue y = true ∧ cmpBefore d.tm.cycle y x = true) := by
  unfold Dev.fires at h
  split at h
  · exact absurd h (by simp)
  next z hz =>
    split at h
    next hok =>
      obtain rfl := Option.some.inj h
      simp only [Bool.and_eq_true, bne_iff_ne, List.all_eq_true, Bool.or_eq_true, beq_iff_eq, Bool.not_eq_true', Bool.and_eq_false_iff] at hok
      obtain ⟨⟨hset, hdue⟩, hall⟩ := hok
      refine ⟨hz, by simpa using List.find?_some hz, hset, hdue, fun y hy => (hall y hy).imp_right fun h => ?_⟩
      rintro ⟨hy1, hy2⟩
      rcases h with h | h
      · exact Bool.false_ne_true (h.symm.trans hy1)
      · exact Bool.false_ne_true (h.symm.trans hy2)
    · exact absurd h (by simp)

/-- Of two comparators due at the same count, one whose user comes earlier in the order goes first (R44). -/
theorem cmpBefore_of_rank {now : Nat} {a b : Cmp} (hdue : a.due = b.due) (hrank : userRank a.user < userRank b.user) : cmpBefore now a b = true := by
  simp [cmpBefore, hdue, hrank]

section
variable {s : State} {c : Nat} {x : Cmp} (hlive : s.dev.live = true) (hfire : s.dev.fires c = some x)
include hlive hfire

theorem gives_launchStrike {P : Dev → Prop} (h : P (s.dev.launchFires x)) : Gives (.launchStrike c) s P :=
  gives_dev (show exec (.launchStrike c) s = execLaunchStrike c s from rfl) (by simpa only [hlive, if_true, hfire] using h)

theorem gives_promoteStrike {P : Dev → Prop} {ref : DescRef} (hact : x.act = .promote) (href : s.dev.tw.promote = some ref)
    (h : P (let d := { s.dev.freeCmp x.id with tw := { s.dev.tw with promote := none } }
      if s.dev.twRole = 2 then (d.sf aTW_CFG 0 2 1).completeS ref stOK else d.completeS ref stABORTED)) : Gives (.twinPromoteStrike c) s P :=
  gives_dev (show exec (.twinPromoteStrike c) s = execTwinPromoteStrike c s from rfl) (by simpa only [hlive, if_true, hfire, hact, href] using h)

theorem yields_twinCommitStrike {P : Dev → List Host.Cell → Prop} {num : Nat} (hact : x.act = .twinCommit num)
    (h : ∀ r, r = (match s.dev.tw.batch, s.dev.tw.prep with
      | some b, _ => if b.num = num then ((s.dev.freeCmp x.id).leadStrike b, s.mem) else (s.dev.freeCmp x.id, s.mem)
      | none, some b => if b.num = num then (s.dev.freeCmp x.id).followerStrike s.mem b else (s.dev.freeCmp x.id, s.mem)
      | none, none => (s.dev.freeCmp x.id, s.mem)) → P r.1 r.2) : Yields (.twinCommitStrike c) s P :=
  yields_mem (show exec (.twinCommitStrike c) s = execTwinCommitStrike c s from rfl) (h _ (by simp only [hlive, if_true, hfire, hact]; rfl))

end

/-- Settles O4: each strike finds the comparator that fires and does what its action names; the order of users is the order of `cmpBefore`. -/
theorem strikesFire : Obligations.StrikesFire := by
  intro s c x hlive
  refine ⟨fun hfire id hact => ?_, fun hfire g id hact => ?_, fun hfire g q hact => ?_, fun hfire g q hact => ?_, fun hfire hact => ?_,
    fun hfire sw hsw hact => ?_, fun y hy hfire hne hdue hsame => ?_, fun hfire num b hact hbatch hnum => ?_,
    fun hfire num b hact hbatch hprep hnum => ?_, fun hfire ref hact href => ?_, fun hfind hwait hover g q hact => ?_⟩
  · exact gives_launchStrike hlive hfire (by rw [Dev.launchFires, hact])
  · exact gives_launchStrike hlive hfire (by rw [Dev.launchFires, hact])
  · exact gives_launchStrike hlive hfire (by rw [Dev.launchFires, hact])
  · refine gives_dev (show exec (.commitStrike c) s = execCommitStrike c s from rfl) ?_
    simp only [hlive, if_true, hfire, hact]
  · refine gives_dev (show exec (.tableDrainStrike c) s = execTableDrainStrike c s from rfl) ?_
    simp only [hlive, if_true, hfire, hact]
    rfl
  · refine gives_dev (show exec (.tableSwapStrike c) s = execTableSwapStrike c s from rfl) ?_
    simp only [hlive, if_true, hfire, hsw, hact]
  · obtain ⟨-, -, -, -, hfirst⟩ := Dev.fires_eq_some hfire
    refine Nat.le_of_not_lt fun hrank => ?_
    exact (hfirst y hy).elim hne fun hno => hno ⟨hdue, cmpBefore_of_rank hsame hrank⟩
  · refine yields_twinCommitStrike hlive hfire hact fun r hr => ?_
    simp only [hbatch, if_pos hnum] at hr
    exact ⟨congrArg Prod.snd hr, congrArg Prod.fst hr⟩
  · refine yields_twinCommitStrike hlive hfire hact fun r hr => ?_
    simpa only [hbatch, hprep, if_pos hnum] using hr
  · refine gives_promoteStrike hlive hfire hact href ⟨?_, fun hrole => ?_⟩
    · dsimp only
      split_ifs <;> simp [Dev.completeS]
    · simp only [if_pos hrole, Dev.completeS]
      rw [Dev.gf, Dev.rg_complete_below _ _ _ (by decide) (by decide)]
      exact Dev.gf_sf_self _ _ _ _ _ (by decide)
  · refine yields_mem (show exec (.strikeDeadline c) s = execStrikeDeadline c s from rfl) ?_
    have hdue : (x.wait.isSome && decide (s.dev.ahead x.time ≤ 0)) = true := by
      simpa [Option.isSome_iff_ne_none, hwait] using hover
    have hid : x.id = c := by simpa using List.find?_some hfind
    simp only [hlive, if_true, hfind, hdue, Dev.strikeLate, hact, hid]
    exact ⟨trivial, trivial⟩

end Sys2Proof.Machine
end

section
/-! Gate engines (chapter 2). -/

namespace Sys2Proof.Machine

/-! ## The registers of an engine -/

section
variable {g : Nat} (hg : g < 16)
include hg

theorem regRow_aGE : regRow (aGE g) = some (rn 0x21000 16 0x40 0 0x7f 0 0) := by
  rw [regRow, blockRows_time (by unfold aGE; omega) (by unfold aGE; omega)]
  simp (disch := (simp only [RegRow.covers_array, RegRow.covers_single, aGE]; omega)) only [regsTime, List.find?_cons_of_neg,
    List.find?_cons_of_pos]

theorem regRow_aGE_swapHi : regRow (aGE g + 0x14) = some (rn 0x21014 16 0x40 0xffffffff 0 0 0) := by
  rw [regRow, blockRows_time (by unfold aGE; omega) (by unfold aGE; omega)]
  simp (disch := (simp only [RegRow.covers_array, RegRow.covers_single, aGE]; omega)) only [regsTime, List.find?_cons_of_neg,
    List.find?_cons_of_pos]

theorem Dev.enable_plainWrite (v : W32) (d : Dev) : (Dev.plainWrite (aGE g) v d).gb (aGE g) 0 = bitAt v 0 :=
  Dev.gb_plainWrite (regRow_aGE hg) rfl (by decide) v d

theorem Dev.length_plainWrite (v : W32) (d : Dev) : (Dev.plainWrite (aGE g) v d).gf (aGE g) 1 6 = fld v 1 6 :=
  Dev.gf_plainWrite (regRow_aGE hg) rfl (by decide) v d

end

/-! ## Run-time state -/

section
variable (d : Dev) (g : Nat) (r : GateRun)

@[simp] theorem Dev.gate_setGate_self : (d.setGate g r).gate g = r := mget_mput_self _ _ _ _

theorem Dev.gate_setGate_ne {h : Nat} (hne : h ≠ g) : (d.setGate g r).gate h = d.gate h := mget_mput_ne _ _ _ _ hne

@[simp] theorem Dev.gb_setGate (a i : Nat) : (d.setGate g r).gb a i = d.gb a i := rfl
@[simp] theorem Dev.gf_setGate (a lo w : Nat) : (d.setGate g r).gf a lo w = d.gf a lo w := rfl
@[simp] theorem Dev.rg_setGate (a : Nat) : (d.setGate g r).rg a = d.rg a := rfl

end

/-- A plain write of one register, and a new run-time state of an engine. -/
theorem Dev.sameBut_setGate_plainWrite (d : Dev) (g : Nat) (r : GateRun) (a : Nat) (v : W32) :
    ((Dev.plainWrite a v d).setGate g r).SameBut
      { d with tm := { d.tm with gates := ((Dev.plainWrite a v d).setGate g r).tm.gates } } [a] := by
  have hsame := (plainWrite_same a v d).withTm { d.tm with gates := ((Dev.plainWrite a v d).setGate g r).tm.gates }
  have htm : (Dev.plainWrite a v d).tm = d.tm := Dev.tm_plainWrite _ _ _
  unfold Dev.setGate at hsame ⊢
  rwa [htm] at hsame ⊢

/-- The ticks since the start of the cycle that plant time has come to. -/
theorem since_cycleStart {now base : W64} {cyc : Nat} (hcyc : 0 < cyc) (hlt : cyc < 2 ^ 32) (h0 : 0 ≤ (now - base).toInt) :
    (now - (base + BitVec.ofNat 64 ((now - base).toInt.toNat / cyc * cyc))).toInt = Int.ofNat ((now - base).toNat % cyc) := by
  have hnat : (now - base).toInt = Int.ofNat (now - base).toNat := by
    rw [BitVec.toInt_eq_toNat_cond] at h0 ⊢
    split at h0
    · rw [if_pos ‹_›]; rfl
    · have := (now - base).isLt
      omega
  rw [hnat, show (Int.ofNat (now - base).toNat).toNat = (now - base).toNat from rfl]
  generalize hz : now - base = z
  have hle : z.toNat / cyc * cyc ≤ z.toNat := Nat.div_mul_le_self _ _
  have hmod : z.toNat - z.toNat / cyc * cyc = z.toNat % cyc := by
    have := Nat.div_add_mod' z.toNat cyc
    omega
  have hrest : z.toNat % cyc < cyc := Nat.mod_lt _ hcyc
  have hlow := z.isLt
  have hdiff : (now - (base + BitVec.ofNat 64 (z.toNat / cyc * cyc))).toNat = z.toNat % cyc := by
    rw [sub_add_eq_sub_sub, hz, BitVec.toNat_sub, BitVec.toNat_ofNat, Nat.mod_eq_of_lt (Nat.lt_of_le_of_lt hle hlow)]
    omega
  rw [BitVec.toInt_eq_toNat_cond, hdiff, if_pos (by omega)]
  rfl

/-- The run-time state of an engine that begins a cycle (R46). -/
def Dev.cycleBegun (d : Dev) (g : Nat) (start : W64) : GateRun :=
  { begun := true, start := start, entry := 0, ends := start + BitVec.ofNat 64 (d.rg (aGL g + 0x200)).toNat, armed := false }

/-- A running engine with no swap armed begins the cycle that plant time has come to. -/
theorem exec_gateCycleStart {s : State} {g : Nat} (hlive : s.dev.live = true) (hg : g < 16) (hen : s.dev.gb (aGE g) 0 = true)
    (h0 : 0 ≤ s.dev.since (BitVec.ofNat 64 (s.dev.rg64 (aGE g + 4)))) (hnew : (s.dev.gate g).begun = false) (harm : (s.dev.gate g).armed = false) :
    exec (.gateCycleStart g) s = devStep (fun d => d.setGate g (d.cycleBegun g
      (BitVec.ofNat 64 (d.rg64 (aGE g + 4)) + BitVec.ofNat 64
        ((d.since (BitVec.ofNat 64 (d.rg64 (aGE g + 4)))).toNat / (d.rg (aGE g + 0xC)).toNat * (d.rg (aGE g + 0xC)).toNat)))) s := by
  show execGateCycleStart g s = _
  simp only [execGateCycleStart, devStep, hlive, hg, hen, h0, hnew, harm, decide_true, Bool.true_and, Bool.not_false, Bool.true_or, Dev.when_true,
    Bool.false_and, Bool.false_eq_true, if_false]
  rfl

/-- Settles O5: the start of a cycle is the last multiple of GE_CYCLE that plant time has passed; a refused list leaves its mark alone. -/
theorem gateEnginesRun : Obligations.GateEnginesRun := by
  intro s g v w d0 hg
  have hrow {P : Dev → Prop} (hsees : s.dev.Sees (aGE g) v w d0) (h : P (geCtrlEffect g w d0)) : Gives (.geCtrlWrite g v) s P :=
    gives_whenBar rfl (decide_eq_true hg) hsees h
  refine ⟨fun hlive hen hcyc base hbase h0 hnew harm => ?_, fun hlive hen hbegun hover hlast => ?_, fun hsees hon hbad => ?_,
    fun hsees hon hwas hsum hcyc hok => ?_, fun hsees hoff hfree => ?_, fun hsees => ?_⟩
  · subst hbase
    have hpos : 0 < (s.dev.rg (aGE g + 0xC)).toNat :=
      Nat.pos_of_ne_zero fun hz => hcyc (BitVec.eq_of_toNat_eq (by rw [hz]; rfl))
    have hsince := since_cycleStart hpos (s.dev.rg (aGE g + 0xC)).isLt h0
    have hrest := Nat.mod_lt (s.dev.now - BitVec.ofNat 64 (s.dev.rg64 (aGE g + 4))).toNat hpos
    refine gives_dev (exec_gateCycleStart hlive hg hen h0 hnew harm) ⟨⟨rfl, fun _ _ => rfl⟩, ?_⟩
    rw [Dev.gate_setGate_self]
    refine ⟨rfl, rfl, ?_, ?_, ⟨_, rfl⟩, rfl, fun h hne => Dev.gate_setGate_ne _ _ _ hne⟩
    · exact (Int.natCast_nonneg _).trans_eq hsince.symm
    · exact hsince.trans_lt (Int.ofNat_lt.mpr hrest)
  · refine gives_whenAt (show exec (.gateEntryBoundary g) s = execGateEntryBoundary g s from rfl) ?_ ?_
    · simp [hlive, hg, hen, hbegun, hover, hlast]
    · rw [Dev.gate_setGate_self]
      exact ⟨rfl, rfl, fun h hne => Dev.gate_setGate_ne _ _ _ hne⟩
  · exact hrow hsees (by simp only [geCtrlEffect, hon, if_true, if_pos hbad])
  · have hfit : ¬(((d0.glList g false (fld w 1 6 + 1)).map (fun e => e.1)).sum ≠ (d0.rg (aGE g + 0xC)).toNat ∨ d0.rg (aGE g + 0xC) = 0) :=
      fun h => h.elim (fun hne => hne hsum) hcyc
    refine hrow hsees ?_
    simp only [geCtrlEffect, hon, if_true, if_neg hfit, hok, Bool.not_true, Bool.false_eq_true, if_false, hwas]
    exact ⟨(Dev.enable_plainWrite hg w d0).trans hon, Dev.length_plainWrite hg w d0, by rw [Dev.gate_setGate_self]; rfl,
      Dev.sameBut_setGate_plainWrite _ _ _ _ _⟩
  · have hbound : (d0.gb (aGE g) 0 && d0.gateBound g) = false := by
      rcases hfree with h | h <;> simp [h]
    refine hrow hsees ?_
    simp only [geCtrlEffect, hoff, Bool.false_eq_true, if_false, hbound]
    exact ⟨(Dev.enable_plainWrite hg w d0).trans hoff, Dev.sameBut_setGate_plainWrite _ _ _ _ _⟩
  · refine gives_whenBar rfl (decide_eq_true hg) hsees ?_
    rw [geSwapEffect]
    exact ⟨Dev.rg_plainWrite_all (regRow_aGE_swapHi hg) rfl (by decide) w d0, by rw [Dev.gate_setGate_self],
      Dev.sameBut_setGate_plainWrite _ _ _ _ _⟩

end Sys2Proof.Machine
end

section
/-! Lanes, ports, rows and flits (chapter 3). -/

namespace Sys2Proof.Machine

/-! ## Lanes -/

section
variable (d : Dev) (l : Nat) (x : Lane)

@[simp] theorem Dev.lane_setLane_self : (d.setLane l x).lane l = x := mget_mput_self _ _ _ _

theorem Dev.lane_setLane_ne {k : Nat} (h : k ≠ l) : (d.setLane l x).lane k = d.lane k := mget_mput_ne _ _ _ _ h

@[simp] theorem Dev.rg_setLane (a : Nat) : (d.setLane l x).rg a = d.rg a := rfl
@[simp] theorem Dev.gb_setLane (a i : Nat) : (d.setLane l x).gb a i = d.gb a i := rfl
@[simp] theorem Dev.fb_setLane : (d.setLane l x).fb = d.fb := rfl
@[simp] theorem Dev.gf_setLane (a lo w : Nat) : (d.setLane l x).gf a lo w = d.gf a lo w := rfl

end

/-- A loss of a lane, LOS or LOL (R73). -/
theorem Dev.laneLoss_spec (d : Dev) (l bit : Nat) (hbit : bit < 6) :
    d.laneLoss l bit = { d with regs := (d.laneLoss l bit).regs, lanes := (d.laneLoss l bit).lanes } ∧
    (∀ a, a ≠ aLN_LANE_STAT l → (d.laneLoss l bit).rg a = d.rg a) ∧
    (d.laneLoss l bit).gb (aLN_LANE_STAT l) bit = true ∧ (d.laneLoss l bit).gb (aLN_LANE_STAT l) (6 + bit) = true ∧
    (∀ i, i ≠ bit → i ≠ 6 + bit → (d.laneLoss l bit).gb (aLN_LANE_STAT l) i = d.gb (aLN_LANE_STAT l) i) ∧
    ((d.laneLoss l bit).lane l).lossSince = some ((d.lane l).lossSince.getD d.tm.cycle) ∧
    ∀ k, k ≠ l → (d.laneLoss l bit).lane k = d.lane k := by
  unfold Dev.laneLoss
  refine ⟨rfl, fun a ha => ?_, ?_, ?_, fun i hi hsticky => ?_, ?_, fun k hk => Dev.lane_setLane_ne _ _ _ hk⟩
  · rw [Dev.rg_setLane, Dev.rg_sb_ne _ _ _ ha, Dev.rg_sb_ne _ _ _ ha]
  · rw [Dev.gb_setLane, Dev.gb_sb_other _ _ _ _ _ (by omega) (by omega), Dev.gb_sb_self _ _ _ _ (by omega)]
  · rw [Dev.gb_setLane, Dev.gb_sb_self _ _ _ _ (by omega)]
  · rw [Dev.gb_setLane, Dev.gb_sb_other _ _ _ _ _ (by omega) hsticky, Dev.gb_sb_other _ _ _ _ _ (by omega) hi]
  · rw [Dev.lane_setLane_self]
    rfl

/-- A lane of no port with neither loss. -/
theorem Dev.laneClear_of_noPort {d : Dev} {l : Nat} (hport : d.portOfLane l = none) (hlos : d.gb (aLN_LANE_STAT l) 0 = false)
    (hlol : d.gb (aLN_LANE_STAT l) 1 = false) : d.laneClear l = d.setLane l { d.lane l with lossSince := none } := by
  have hset : (d.setLane l { d.lane l with lossSince := none }).portOfLane l = none := hport
  simp only [Dev.laneClear, hlos, hlol, Bool.or_self, Bool.false_eq_true, if_false, hset]

theorem Dev.portOfLane_wr_laneStat (d : Dev) (l k : Nat) (v : W32) : (d.wr (aLN_LANE_STAT l) v).portOfLane k = d.portOfLane k := by
  by_cases hk : k < 512
  · have hwidth : (d.wr (aLN_LANE_STAT l) v).groupWidth (k / 8) = d.groupWidth (k / 8) := by
      unfold Dev.groupWidth
      rw [Dev.gf, Dev.rg_wr_ne _ _ (by unfold aLN_GROUP_CFG aLN_LANE_STAT; omega)]
      rfl
    simp only [Dev.portOfLane, hwidth]
  · simp only [Dev.portOfLane, if_pos (Nat.le_of_not_lt hk)]

theorem Dev.portOfLane_sb_laneStat (d : Dev) (l i k : Nat) (b : Bool) : (d.sb (aLN_LANE_STAT l) i b).portOfLane k = d.portOfLane k :=
  Dev.portOfLane_wr_laneStat _ _ _ _

theorem Dev.portOfLane_le {d : Dev} {l p : Nat} (h : d.portOfLane l = some p) : p ≤ 256 := by
  unfold Dev.portOfLane at h
  split at h
  · split at h <;> cases h
    exact Nat.le_refl _
  · dsimp only at h
    split at h <;> cases h <;> omega

theorem Dev.portOfLane_setLane (d : Dev) (l k : Nat) (x : Lane) : (d.setLane l x).portOfLane k = d.portOfLane k := rfl

/-- A lane that has lost its signal goes on waiting for it. -/
theorem Dev.laneClear_of_los {d : Dev} {l : Nat} (hlos : d.gb (aLN_LANE_STAT l) 0 = true) : d.laneClear l = d := by
  simp only [Dev.laneClear, hlos, Bool.true_or, if_true]

/-! ## Ports -/

theorem Dev.portState_portUp (d : Dev) (p : Nat) : (d.portUp p).portState p = 6 := by
  show ((d.setPortState p 6).sb (aLN_PORT_STAT p) 17 false).gf (aLN_PORT_STAT p) 0 3 = 6
  refine (Dev.gf_sf_other _ _ 17 1 _ 0 3 (by decide) (.inl (by decide))).trans ?_
  exact Dev.gf_sf_self _ _ _ _ _ (by decide)

theorem Dev.rg_portUp_ne (d : Dev) (p : Nat) {a : Nat} (h : a ≠ aLN_PORT_STAT p) : (d.portUp p).rg a = d.rg a := by
  unfold Dev.portUp
  rw [Dev.rg_modPort, Dev.rg_sb_ne _ _ _ h, Dev.setPortState, Dev.rg_sf_ne _ _ _ _ h]

theorem Dev.portState_wr_laneStat (d : Dev) (l : Nat) (v : W32) {p : Nat} (hp : p ≤ 256) :
    (d.wr (aLN_LANE_STAT l) v).portState p = d.portState p := by
  rw [Dev.portState, Dev.gf, Dev.rg_wr_ne _ _ (by unfold aLN_PORT_STAT aLN_LANE_STAT; omega)]
  rfl

/-- The lane that software unfences belongs to a port in service, neither OFF nor DOWN: the port comes up afresh (R84). -/
theorem lnUnfenceEffect_of_started {d : Dev} {w : W32} {p : Nat} (hact : bitAt w 31 = true) (hl : fld w 0 10 < 528)
    (hport : d.portOfLane (fld w 0 10) = some p) (hoff : d.portState p ≠ 0) (hdown : d.portState p ≠ 7) (hsort : d.sorterLost p = false) :
    lnUnfenceEffect w d = (((d.sb (aLN_LANE_STAT (fld w 0 10)) 3 false).setLane (fld w 0 10)
      { d.lane (fld w 0 10) with failed := [] }).setCharges (fld w 0 10) 0 []).bringUp p := by
  have hle := Dev.portOfLane_le hport
  generalize hd1 : ((d.sb (aLN_LANE_STAT (fld w 0 10)) 3 false).setLane (fld w 0 10)
    { d.lane (fld w 0 10) with failed := [] }).setCharges (fld w 0 10) 0 [] = d1
  have hport1 : d1.portOfLane (fld w 0 10) = some p := by
    rw [← hd1, Dev.setCharges, Dev.sf, Dev.portOfLane_wr_laneStat, Dev.portOfLane_setLane, Dev.portOfLane_setLane, Dev.portOfLane_sb_laneStat, hport]
  have hstate1 : d1.portState p = d.portState p := by
    rw [← hd1, Dev.setCharges, Dev.sf, Dev.portState_wr_laneStat _ _ _ hle]
    exact Dev.portState_wr_laneStat _ _ _ hle
  have hfb : d1.fb = d.fb := by rw [← hd1, Dev.setCharges, Dev.sf_fb, Dev.fb_setLane, Dev.fb_setLane, Dev.sb_fb]
  have hsort1 : d1.sorterLost p = false := by rw [Dev.sorterLost, hfb, ← hsort, Dev.sorterLost]
  have hgo : ¬((!bitAt w 31 || !decide (fld w 0 10 < 528)) = true) := by simp [hact, hl]
  have hlane : (d.sb (aLN_LANE_STAT (fld w 0 10)) 3 false).lane (fld w 0 10) = d.lane (fld w 0 10) := rfl
  simp only [lnUnfenceEffect, if_neg hgo, hd1, hport1, hstate1, hsort1, hoff, hdown, Bool.false_eq_true, or_self, if_false]

/-- Settles O6: a detector sets the bits of its lane, and each time-out of a lane or port takes the way of bring-up that its condition opens. -/
theorem lanesAndPorts : Obligations.LanesAndPorts := by
  refine ⟨fun s l hlive hl => ?_, fun s l p g v w d0 hlive => ?_⟩
  · have hgo : (s.dev.live && decide (l < 528)) = true := by simp [hlive, hl]
    refine ⟨?_, ?_, ?_, fun hport hlos => ?_, fun p hport hlos => ?_, fun hport => ?_⟩
    · exact gives_when (show exec (.lossOfSignal l) s = execLossOfSignal l s from rfl) hgo (Dev.laneLoss_spec _ _ 0 (by decide))
    · exact gives_when (show exec (.lossOfLock l) s = execLossOfLock l s from rfl) hgo (Dev.laneLoss_spec _ _ 1 (by decide))
    · obtain ⟨hdev, hregs, hlol, hsticky, hbits, -⟩ := Dev.laneLoss_spec (s.dev.sb (aLN_LANE_STAT l) 2 false) l 1 (by decide)
      refine gives_when (show exec (.blockLockLost l) s = execBlockLockLost l s from rfl) hgo ⟨hdev, fun a ha => ?_, ?_, hlol, hsticky⟩
      · rw [hregs a ha, Dev.rg_sb_ne _ _ _ ha]
      · rw [hbits 2 (by decide) (by decide), Dev.gb_sb_self _ _ _ _ (by decide)]
    · have hport1 : ((s.dev.sb (aLN_LANE_STAT l) 2 true).sb (aLN_LANE_STAT l) 1 false).portOfLane l = none := by
        rw [Dev.portOfLane_sb_laneStat, Dev.portOfLane_sb_laneStat, hport]
      have hlos1 : ((s.dev.sb (aLN_LANE_STAT l) 2 true).sb (aLN_LANE_STAT l) 1 false).gb (aLN_LANE_STAT l) 0 = false := by
        rw [Dev.gb_sb_other _ _ _ _ _ (by decide) (by decide), Dev.gb_sb_other _ _ _ _ _ (by decide) (by decide), hlos]
      refine gives_when (show exec (.blockLockGained l) s = execBlockLockGained l s from rfl) hgo ?_
      rw [Dev.laneClear_of_noPort hport1 hlos1 (Dev.gb_sb_self _ _ _ _ (by decide))]
      simp only [Dev.portOfLane_setLane, hport1]
      refine ⟨?_, ?_, by rw [Dev.lane_setLane_self]⟩
      · rw [Dev.gb_setLane, Dev.gb_sb_other _ _ _ _ _ (by decide) (by decide), Dev.gb_sb_self _ _ _ _ (by decide)]
      · rw [Dev.gb_setLane, Dev.gb_sb_self _ _ _ _ (by decide)]
    · have hlos1 : ((s.dev.sb (aLN_LANE_STAT l) 2 true).sb (aLN_LANE_STAT l) 1 false).gb (aLN_LANE_STAT l) 0 = true := by
        rw [Dev.gb_sb_other _ _ _ _ _ (by decide) (by decide), Dev.gb_sb_other _ _ _ _ _ (by decide) (by decide), hlos]
      refine gives_when (show exec (.blockLockGained l) s = execBlockLockGained l s from rfl) hgo ?_
      rw [Dev.laneClear_of_los hlos1]
      simp only [Dev.portOfLane_sb_laneStat, hport]
    · have hport1 : ((s.dev.sb (aLN_LANE_STAT l) 0 false).sb (aLN_LANE_STAT l) 1 false).portOfLane l = none := by
        rw [Dev.portOfLane_sb_laneStat, Dev.portOfLane_sb_laneStat, hport]
      have hlos1 : ((s.dev.sb (aLN_LANE_STAT l) 0 false).sb (aLN_LANE_STAT l) 1 false).gb (aLN_LANE_STAT l) 0 = false := by
        rw [Dev.gb_sb_other _ _ _ _ _ (by decide) (by decide), Dev.gb_sb_self _ _ _ _ (by decide)]
      have hlol1 : ((s.dev.sb (aLN_LANE_STAT l) 0 false).sb (aLN_LANE_STAT l) 1 false).gb (aLN_LANE_STAT l) 1 = false :=
        Dev.gb_sb_self _ _ _ _ (by decide)
      refine gives_when (show exec (.signalAndLockRegained l) s = execSignalAndLockRegained l s from rfl) hgo ?_
      rw [Dev.laneClear_of_noPort hport1 hlos1 hlol1]
      exact ⟨hlos1, hlol1, by rw [Dev.lane_setLane_self]⟩
  · refine ⟨fun hl hport hheld => ?_, fun hl hport hlock hwire hno hlate => ?_, fun hlo hhi hlate => ?_, fun hqual hleft => ?_,
      fun hg hsees => gives_whenBar rfl (decide_eq_true hg) hsees rfl, fun hsees hact hlane hl hport hup hsort => ?_⟩
    · refine gives_when (show exec (.laneLossFence l) s = execLaneLossFence l s from rfl) (by simp [hlive, hl]) ?_
      simp only [Dev.laneLossFence, hheld, if_true, hport, Option.getD_some]
    · have hdue : s.dev.portState p = 2 ∧ (s.dev.wireLanes p).contains l ∧ !s.dev.gb (aLN_LANE_STAT l) 2 ∧
          1000000 ≤ s.dev.tm.cycle - (s.dev.lane l).lockAt := ⟨hlock, by simpa using hwire, by rw [hno]; rfl, hlate⟩
      refine gives_when (show exec (.laneLockTimeout l) s = execLaneLockTimeout l s from rfl) (by simp [hlive, hl]) ?_
      simp only [Dev.laneLockTimeout, hport, if_pos hdue]
    · refine gives_when (b := Dev.live) (show exec (.bringupTimeout p) s = execBringupTimeout p s from rfl) hlive ?_
      rw [Dev.bringupTimeout, if_pos ⟨hlo, hhi, hlate⟩]
    · refine gives_when (show exec (.qualifyDone p) s = execQualifyDone p s from rfl) (by simp [hlive, hqual, hleft]) ?_
      exact ⟨Dev.portState_portUp _ _, rfl, fun a ha => Dev.rg_portUp_ne _ _ ha⟩
    · subst hlane
      refine gives_bar rfl hsees ?_
      rw [lnUnfenceEffect_of_started hact hl hport (by rw [hup]; decide) (by rw [hup]; decide) hsort]

/-! ## Link state that a change of a port leaves -/

section
variable (d : Dev) (p : Nat) (f : Port → Port)

@[simp] theorem Dev.port_emit (o : Out) (q : Nat) : (d.emit o).port q = d.port q := rfl

/-- A change of a port that keeps the map of its lanes. -/
theorem Dev.physLane_modPort_of_lmap (h : ∀ x, (f x).lmap = x.lmap) (i : Nat) : (d.modPort p f).physLane p i = d.physLane p i := by
  simp only [Dev.physLane, Dev.port_modPort_self, h]
  rfl

end

/-! ## Rows (R54 to R57, R74, R81) -/

theorem Dev.carries_of_up {d : Dev} {p : Nat} (h : d.portState p = 6) : d.carries p = true := by simp [Dev.carries, h]
theorem Dev.carries_of_deskew {d : Dev} {p : Nat} (h : d.portState p = 3) : d.carries p = false := by simp [Dev.carries, h]

/-- What the lanes of a port deliver intact of an ALIGN row. -/
def alignIntact (rows : List LaneAlign) : List LaneAlign := rows.filter (fun r => blockIntact r.block && r.block.headD 0 == 0xC3)

section
variable {d : Dev} {p : Nat} {rows : List LaneAlign}

theorem Dev.alignRow_of_deskew (h : d.portState p = 3) : d.alignRow p rows = d.alignDeskew p (alignIntact rows) := by
  simp [Dev.alignRow, Dev.carries_of_deskew h, h, alignIntact]

theorem Dev.alignRow_of_up (h : d.portState p = 6) : d.alignRow p rows = d.alignCharge p (alignIntact rows) := by
  simp [Dev.alignRow, Dev.carries_of_up h, alignIntact]

end

/-- Every block of a TRAIN row names its kind. -/
theorem kind_of_trainBlocks {st fe ac : List (BitVec 8 × BitVec 8)} {b : Bytes} (h : rowOf (trainBlocks st fe ac) = some b) : rdLE b 0 1 = 0x78 := by
  obtain ⟨x, -, rfl⟩ := List.mem_map.mp (List.mem_of_find?_eq_some h)
  rfl

section
variable {d : Dev} {p : Nat} {blocks : List Bytes} {b : Bytes} (hlo : 3 ≤ d.portState p) (hhi : d.portState p ≤ 6) (hrow : rowOf blocks = some b)
include hlo hhi hrow

theorem Dev.rowTaken_train (hkind : rdLE b 0 1 = 0x78) :
    d.rowTaken p blocks = d.trainRow p (bfld b 1 0 3) (rdLE b 2 1) (rdLE b 3 1 + 256 * bfld b 1 4 4) := by
  simp only [Dev.rowTaken, hrow, hkind]
  rw [if_neg (by omega)]

theorem Dev.rowTaken_retryReq (hkind : rdLE b 0 1 = 0x55) (hcar : d.carries p = true) :
    d.rowTaken p blocks = d.retryReq p (rdLE b 1 2 % 4096) := by
  simp only [Dev.rowTaken, hrow, hkind, hcar, if_true]
  rw [if_neg (by omega)]

theorem Dev.rowTaken_retryStart (hkind : rdLE b 0 1 = 0x66) (hcar : d.carries p = true) :
    d.rowTaken p blocks = d.retryStart p (rdLE b 1 2 % 4096) := by
  simp only [Dev.rowTaken, hrow, hkind, hcar, if_true]
  rw [if_neg (by omega)]

/-- A row of no known type is counted in BAD_CTRL. -/
theorem Dev.rowTaken_unknown (hkind : rdLE b 0 1 ∉ [0x1E, 0xC3, 0x55, 0x66, 0x78]) : d.rowTaken p blocks = d.portCount p 24 8 1 := by
  simp only [List.mem_cons, not_or] at hkind
  obtain ⟨hidle, halign, hreq, hstart, htrain, -⟩ := hkind
  simp only [Dev.rowTaken, hrow]
  rw [if_neg (by omega)]

end

/-- Settles O7: a fence stands until it is lifted, and a row does what its kind and the state of its port say. -/
theorem fencingAndTraining : Obligations.FencingAndTraining := by
  refine ⟨fun d p l => ⟨fun h => if_pos h, fun h => by simp only [Dev.fenceLane, h, Bool.false_eq_true, if_false]⟩, fun s p hlive => ?_⟩
  have hrow {i : Instr} {f : Dev → Dev} {P : Dev → Prop} (he : exec i s = devStep (fun d => d.when d.live fun d => (f d).afterFence) s)
      (hp : P (f s.dev).afterFence) : Gives i s P := gives_when (b := Dev.live) he hlive hp
  refine ⟨fun bips hex hoff hdown hperiod => ?_, fun rows hdesk hwidth => ?_, fun rows hdesk hwidth hskew => ?_, fun rows hup hnone => ?_,
    fun st fe ac b sub hup hb hstage hsub => ?_, fun st fe ac b hup hb hstage => ?_, fun blocks b hlo hhi hb hkind => ?_,
    fun up hex hoff => ?_⟩
  · refine gives_whenAt (show exec (.alignSend p bips) s = execAlignSend p bips s from rfl) ?_ ?_
    · simp [hlive, hex, hoff, hdown, hperiod]
    · dsimp only
      rw [Dev.emit_out, Dev.port_emit, Dev.port_modPort_self]
      simp only [Dev.physLane_modPort_of_lmap s.dev p (fun x => { x with alignSent := s.dev.tm.cycle, flits := 0 }) (fun _ => rfl)]
      exact ⟨rfl, trivial, rfl, trivial⟩
  · refine hrow (show exec (.align p rows) s = execAlign p rows s from rfl) ?_
    rw [Dev.alignRow_of_deskew hdesk]
    exact congrArg Dev.afterFence (if_pos hwidth)
  · refine hrow (show exec (.align p rows) s = execAlign p rows s from rfl) ?_
    rw [Dev.alignRow_of_deskew hdesk]
    exact congrArg Dev.afterFence ((if_neg (ne_true_of_eq_false hwidth)).trans (if_pos hskew))
  · refine hrow (show exec (.align p rows) s = execAlign p rows s from rfl) ?_
    rw [Dev.alignRow_of_up hup]
    simp only [Dev.alignCharge, hnone, if_true]
    rfl
  · refine hrow (show exec (.train p st fe ac) s = execTrain p st fe ac s from rfl) ?_
    rw [Dev.rowTaken_train (by omega) (by omega) hb (kind_of_trainBlocks hb)]
    simp only [Dev.trainRow, Dev.carries_of_up hup, if_true, hstage, ne_eq, not_true_eq_false, if_false]
    rw [hsub]
  · refine hrow (show exec (.train p st fe ac) s = execTrain p st fe ac s from rfl) ?_
    rw [Dev.rowTaken_train (by omega) (by omega) hb (kind_of_trainBlocks hb)]
    simp only [Dev.trainRow, Dev.carries_of_up hup, if_true, ne_eq, hstage, not_false_eq_true]
  · refine hrow (show exec (.retryReq p blocks) s = execRetryReq p blocks s from rfl) ?_
    rw [Dev.rowTaken_unknown hlo hhi hb hkind]
  · refine gives_when (show exec (.elasticIdleAdjust p up) s = execElasticIdleAdjust p up s from rfl) (by simp [hlive, hex, hoff]) ?_
    refine ⟨rfl, ?_, fun q hq => Dev.port_modPort_ne _ _ _ hq⟩
    rw [Dev.port_modPort_self]
    cases up <;> rfl

/-! ## Retry and flits (R60 to R70) -/

theorem Dev.wireLanes_modPort_of_lmap (d : Dev) (p : Nat) (f : Port → Port) (h : ∀ x, (f x).lmap = x.lmap) :
    (d.modPort p f).wireLanes p = d.wireLanes p :=
  List.map_congr_left fun i _ => Dev.physLane_modPort_of_lmap d p f h i

/-- A due replay goes out before any new flit (R68). -/
theorem Dev.flitSend_of_resend {d : Dev} {p : Nat} {x : SentFlit} (hroom : (d.port p).flits < 1023 * (d.lanesUsed p).length)
    (hdue : 0 < (d.port p).resend) (hx : (d.port p).replay[(d.port p).replay.length - (d.port p).resend]? = some x) :
    d.flitSend p = (d.modPort p fun x => { x with resend := x.resend - 1 }).putFlit p x := by
  have hget : (d.port p).replay.getD ((d.port p).replay.length - (d.port p).resend) ⟨0, [], 0⟩ = x := by
    rw [List.getD_eq_getElem?_getD, hx, Option.getD_some]
  simp only [Dev.flitSend, if_neg (Nat.not_le_of_lt hroom), if_pos hdue, hget]

/-- What a flit puts on the lanes in use (R60). -/
theorem Dev.out_putFlit (d : Dev) (p : Nat) (x : SentFlit) :
    (d.putFlit p x).out = d.out ++ [.flit p (d.flitBlocks p x.data (flitTrailer x.data x.seq (((d.port p).rxNext + 4095) % 4096) x.credit))] := rfl

theorem Dev.port_putFlit (d : Dev) (p : Nat) (x : SentFlit) :
    (d.putFlit p x).port p = { d.port p with ackSent := ((d.port p).rxNext + 4095) % 4096, flits := (d.port p).flits + 1 } := by
  rw [Dev.putFlit, Dev.port_emit, Dev.port_modPort_self]

/-- Settles O8: a control row of retry acts by the number that it names, and a flit that is due again goes out before any other. -/
theorem flitsAndRetry : Obligations.FlitsAndRetry := by
  refine ⟨fun s p n blocks b hlive hcar => ?_, fun s p f hlive hcar => ?_⟩
  · have hrow {i : Instr} {f : Dev → Dev} {P : Dev → Prop} (he : exec i s = devStep (fun d => d.when d.live fun d => (f d).afterFence) s)
        (hp : P (f s.dev).afterFence) : Gives i s P := gives_when (b := Dev.live) he hlive hp
    have hstate : s.dev.portState p = 5 ∨ s.dev.portState p = 6 := by simpa [Dev.carries] using hcar
    have hlo : 3 ≤ s.dev.portState p := by omega
    have hhi : s.dev.portState p ≤ 6 := by omega
    refine ⟨fun ⟨hb, hkind, hn⟩ hout => ?_, fun i ⟨hb, hkind, hn⟩ hin => ?_, fun ⟨hb, hkind, hn⟩ hdisc hnext => ?_, fun hdisc hlate => ?_,
      fun hheld hlate => ?_⟩
    · refine hrow (show exec (.retryReq p blocks) s = execRetryReq p blocks s from rfl) ?_
      rw [Dev.rowTaken_retryReq hlo hhi hb hkind hcar, hn]
      simp only [Dev.retryReq, hout]
    · refine hrow (show exec (.retryReq p blocks) s = execRetryReq p blocks s from rfl) ?_
      rw [Dev.rowTaken_retryReq hlo hhi hb hkind hcar, hn]
      simp only [Dev.retryReq, hin]
    · have hmod : n % 4096 = n := by rw [← hn, Nat.mod_mod]
      refine hrow (show exec (.retryStart p blocks) s = execRetryStart p blocks s from rfl) ?_
      have hends : ((s.dev.port p).discard && (s.dev.port p).rxNext != n % 4096) = false := by rw [hmod, hnext, bne_self_eq_false, Bool.and_false]
      rw [Dev.rowTaken_retryStart hlo hhi hb hkind hcar, hn, Dev.retryStart, Dev.modPort, hends]
    · refine gives_whenAt (show exec (.retryReqTimeout p) s = execRetryReqTimeout p s from rfl) ?_ ⟨rfl, ?_, ?_⟩
      · simp [hlive, hcar, hdisc, hlate]
      · dsimp only [Dev.seqRow, Dev.sendRow]
        rw [Dev.emit_out, Dev.wireLanes_modPort_of_lmap s.dev p (fun x => { x with reqAt := s.dev.tm.cycle }) fun _ => rfl]
        rfl
      · dsimp only [Dev.seqRow, Dev.sendRow]
        rw [Dev.port_emit, Dev.port_modPort_self]
    · refine gives_when (show exec (.ackTimeout p) s = execAckTimeout p s from rfl) ?_ rfl
      simp [hlive, hcar, hheld, hlate]
  · have hgo : (s.dev.live && s.dev.carries p) = true := by simp [hlive, hcar]
    refine ⟨fun hdisc => ?_, fun hdisc hbad => ?_, fun hroom hdue hle x hx => ?_, fun hfull => ?_⟩
    · refine gives_when (show exec (.flitReceive p f) s = execFlitReceive p f s from rfl) hgo ?_
      simp only [Dev.flitReceive, hdisc, if_true]
    · refine gives_when (show exec (.flitReceive p f) s = execFlitReceive p f s from rfl) hgo ?_
      simp only [Dev.flitReceive, hdisc, Bool.false_eq_true, if_false, hbad, Bool.not_false, if_true]
    · refine gives_when (show exec (.flitSend p) s = execFlitSend p s from rfl) hgo ?_
      rw [Dev.flitSend_of_resend hroom hdue hx]
      refine ⟨rfl, ?_, ?_⟩
      · rw [Dev.port_putFlit, Dev.port_modPort_self]
      · rw [Dev.out_putFlit, Dev.port_modPort_self]
        simp only [Dev.flitBlocks, Dev.wireLanes_modPort_of_lmap s.dev p (fun x => { x with resend := x.resend - 1 }) fun _ => rfl]
        rfl
    · exact gives_when (show exec (.flitSend p) s = execFlitSend p s from rfl) hgo (if_pos hfull)

end Sys2Proof.Machine
end

section
/-! The sorter's instructions, and packets that arrive and leave (chapters 4 to 6). -/

namespace Sys2Proof.Machine

/-! ## Sorter instructions (R89 to R93) -/

/-- A sorter at another slot, which ends after slot 255 (R88). -/
def SorterRun.at_ (x : SorterRun) (n : Nat) : SorterRun := { x with pc := n, ended := decide (256 ≤ n) }

section
variable {x : SorterRun} (hrun : x.ended = false) (f : SrFields)
include hrun

theorem SorterRun.goto_eq (n : Nat) : x.goto n = x.at_ n := by rw [SorterRun.goto, hrun, Bool.false_or, SorterRun.at_]

theorem SorterRun.put_eq (v : W32) : x.put f v = SorterRun.at_ { x with s := lset (f.d % 8) v x.s } (x.pc + 1) :=
  SorterRun.goto_eq (x := { x with s := lset (f.d % 8) v x.s }) hrun _

theorem SorterRun.jump_eq (hi : f.i = false) (hzero : f.imm % 256 ≠ 0) (hpast : x.pc + f.imm % 256 ≤ 256) (taken : Bool) :
    x.jump f taken = some (x.at_ (if taken then x.pc + f.imm % 256 else x.pc + 1)) := by
  rw [SorterRun.jump, if_neg (by simp [hi, hzero, hpast]), SorterRun.goto_eq hrun]

omit hrun in
theorem SorterRun.jump_illegal (h : f.i = true ∨ f.imm % 256 = 0 ∨ 256 < x.pc + f.imm % 256) (taken : Bool) : x.jump f taken = none := if_pos h

end

theorem ldhField_reserved (p : Pkt) (port kind : Nat) {k : Nat} (h : 24 ≤ k) : ldhField p port kind k = none := by
  obtain ⟨j, rfl⟩ := Nat.exists_eq_add_of_le' h
  rfl

theorem SorterRun.out_reserved (x : SorterRun) (v : W32) {k : Nat} (h : 5 ≤ k) : x.out k v = none := by
  obtain ⟨j, rfl⟩ := Nat.exists_eq_add_of_le' h
  rfl

section
variable {s : State} {g op : Nat} {f : SrFields} {x : SorterRun} {i : Instr} (hlive : s.dev.live = true) (hg : g < 64) (hx : s.dev.sorter g = x)
  (hrun : x.ended = false) (he : exec i s = devStep (fun d => d.srCommand g op f) s)
include hlive hg hx hrun he

/-- A legal instruction other than DROP. -/
theorem gives_srCommand {y : SorterRun} (hop : s.dev.srOp g op f x = some y) (hdrop : op ≠ 1) : Gives i s fun d => d = s.dev.setSorter g y := by
  have hat : s.dev.sorterAt g = x := by simp [Dev.sorterAt, hx, hrun]
  refine gives_dev he ?_
  simp only [Dev.srCommand, hlive, hg, decide_true, Bool.and_self, Bool.not_true, Bool.false_eq_true, if_false, hat, hop, if_neg hdrop]

/-- An instruction that sets s_D. -/
theorem gives_srPut {v : W32} (hop : s.dev.srOp g op f x = some (x.put f v)) (hdrop : op ≠ 1) :
    Gives i s fun d => d = s.dev.setSorter g (SorterRun.at_ { x with s := lset (f.d % 8) v x.s } (x.pc + 1)) :=
  SorterRun.put_eq hrun f v ▸ gives_srCommand hlive hg hx hrun he hop hdrop

/-- A jump within the program. -/
theorem gives_srJump {taken : Bool} {P : Prop} (hop : s.dev.srOp g op f x = x.jump f taken) (hdrop : op ≠ 1) (hP : taken = true ↔ P)
    (hi : f.i = false) (hzero : f.imm % 256 ≠ 0) (hpast : x.pc + f.imm % 256 ≤ 256) :
    Gives i s fun d => (P → d = s.dev.setSorter g (x.at_ (x.pc + f.imm % 256))) ∧ (¬P → d = s.dev.setSorter g (x.at_ (x.pc + 1))) := by
  rw [SorterRun.jump_eq hrun f hi hzero hpast] at hop
  obtain ⟨d, hd, rfl⟩ := gives_srCommand hlive hg hx hrun he hop hdrop
  refine ⟨_, hd, fun h => ?_, fun h => ?_⟩
  · rw [if_pos (hP.mpr h)]
  · rw [if_neg (mt hP.mp h)]

/-- An illegal instruction acts as DROP and leaves its mark (R93). -/
theorem gives_srIllegal (hop : s.dev.srOp g op f x = none) :
    Gives i s fun d => d = ((s.dev.setSorter g { x with ended := true, dropped := true }).count aCNT_SORT_DROP).sb aRT_STAT 19 true := by
  have hat : s.dev.sorterAt g = x := by simp [Dev.sorterAt, hx, hrun]
  refine gives_dev he ?_
  simp only [Dev.srCommand, hlive, hg, decide_true, Bool.and_self, Bool.not_true, Bool.false_eq_true, if_false, hat, hop]

end

/-- Settles O9: one rule for the instructions that set a register, one for the jumps and one for what is illegal. -/
theorem sorterRuns : Obligations.SorterRuns := by
  refine ⟨fun s g f x hlive hg hx hrun => ?_, fun s g f x hlive hg hx hrun => ?_⟩
  · have hcmd {i : Instr} {op : Nat} (he : exec i s = devStep (fun d => d.srCommand g op f) s) {y : SorterRun} :=
      gives_srCommand (y := y) hlive hg hx hrun he
    have hput {i : Instr} {op : Nat} (he : exec i s = devStep (fun d => d.srCommand g op f) s) {v : W32} := gives_srPut (v := v) hlive hg hx hrun he
    have hjump {i : Instr} {op : Nat} (he : exec i s = devStep (fun d => d.srCommand g op f) s) {taken : Bool} {P : Prop} :=
      gives_srJump (taken := taken) (P := P) hlive hg hx hrun he
    refine ⟨hput (show _ = execSrLdi g f s from rfl) rfl (by decide), hput (show _ = execSrLui g f s from rfl) rfl (by decide),
      hput (show _ = execSrAdd g f s from rfl) rfl (by decide), hput (show _ = execSrSub g f s from rfl) rfl (by decide),
      hput (show _ = execSrAnd g f s from rfl) rfl (by decide), hput (show _ = execSrOr g f s from rfl) rfl (by decide),
      hput (show _ = execSrXor g f s from rfl) rfl (by decide), hput (show _ = execSrShl g f s from rfl) rfl (by decide),
      hput (show _ = execSrShr g f s from rfl) rfl (by decide), hput (show _ = execSrHash g f s from rfl) rfl (by decide),
      hput (show _ = execSrLut g f s from rfl) rfl (by decide), fun p hp hfield => ?_, hjump (show _ = execSrJeq g f s from rfl) rfl (by decide) beq_iff_eq,
      hjump (show _ = execSrJne g f s from rfl) rfl (by decide) bne_iff_ne, hjump (show _ = execSrJlt g f s from rfl) rfl (by decide) decide_eq_true_iff,
      hjump (show _ = execSrJge g f s from rfl) rfl (by decide) decide_eq_true_iff, hjump (show _ = execSrJmp g f s from rfl) rfl (by decide) (by simp),
      fun hout => ?_, hcmd (show _ = execSrEnd g f s from rfl) rfl (by decide), ?_⟩
    · refine hput (show _ = execSrLdh g f s from rfl) ?_ (by decide)
      simp only [Dev.srOp, Dev.sorted, hp, hfield, ldhField, Option.map_some]
    · refine hcmd (show _ = execSrOut g f s from rfl) ?_ (by decide)
      simp only [Dev.srOp, hout, SorterRun.out, Option.map_some]
      exact congrArg some (SorterRun.goto_eq (x := { x with dte := (x.r f.a).toNat % 2 ^ 15 }) hrun _)
    · have hat : s.dev.sorterAt g = x := by simp [Dev.sorterAt, hx, hrun]
      refine gives_dev (show _ = execSrDrop g f s from rfl) ?_
      simp only [Dev.srCommand, hlive, hg, decide_true, Bool.and_self, Bool.not_true, Bool.false_eq_true, if_false, hat, Dev.srOp, if_true]
  · have hbad {i : Instr} {op : Nat} (he : exec i s = devStep (fun d => d.srCommand g op f) s) := gives_srIllegal hlive hg hx hrun he
    refine ⟨fun h => ⟨hbad (show _ = execSrJeq g f s from rfl) ?_, hbad (show _ = execSrJne g f s from rfl) ?_,
      hbad (show _ = execSrJlt g f s from rfl) ?_, hbad (show _ = execSrJge g f s from rfl) ?_, hbad (show _ = execSrJmp g f s from rfl) ?_⟩,
      fun h => hbad (show _ = execSrLdh g f s from rfl) ?_, fun h => hbad (show _ = execSrOut g f s from rfl) ?_⟩
    · exact SorterRun.jump_illegal f h _
    · exact SorterRun.jump_illegal f h _
    · exact SorterRun.jump_illegal f h _
    · exact SorterRun.jump_illegal f h _
    · exact SorterRun.jump_illegal f h _
    · simp only [Dev.srOp, ldhField_reserved _ _ _ h, Option.map_none]
    · simp only [Dev.srOp, SorterRun.out_reserved _ _ h, Option.map_none]

/-! ## Arrival (R87, R128) -/

/-- Settles O10: the header decides first, then the role of the device, then the room in the partition. -/
theorem packetArrives : Obligations.PacketArrives := by
  intro s p x rest hlive hp hin
  have hrow {P : Dev → Prop} (h : P (s.dev.arrive p)) : Gives (.packetArrive p) s P :=
    gives_when (b := Dev.live) (show exec (.packetArrive p) s = execPacketArrive p s from rfl) hlive h
  have hport : p ≠ 256 := Nat.ne_of_lt hp
  refine ⟨fun hrole hbad => hrow ?_, fun hrole => hrow ?_, fun hrole hkind hlen hroom => hrow ?_⟩
  · simp only [Dev.arrive, hin, if_neg hport, hrole, Bool.false_eq_true, if_false, if_pos hbad, Dev.badHeader]
  · simp only [Dev.arrive, hin, if_neg hport, hrole, if_true]
  · have hgood : ¬(s.dev.kind p = 0 ∨ 4096 < x.pkt.len ∨ s.dev.kind p = 1 ∧ x.pkt.src ≠ s.dev.epId p) := by omega
    have hone : s.dev.kind p ≠ 1 := by omega
    simp only [Dev.arrive, hin, if_neg hport, hrole, Bool.false_eq_true, if_false, if_neg hgood, if_neg (Nat.not_lt_of_le hroom), fixHeader,
      if_neg hone]

/-! ## Classification (R88, R149) -/

/-- The first packet that waits in a group is one of the buffer's. -/
theorem Dev.mem_of_firstWaiting {d : Dev} {g : Nat} {b : BPkt} (h : d.firstWaiting g = some b) : b ∈ d.fb.pkts := by
  have hfold : ∀ (bs : List BPkt) (acc : Option BPkt), (∀ a ∈ acc, a ∈ d.fb.pkts) → (∀ a ∈ bs, a ∈ d.fb.pkts) →
      ∀ a ∈ bs.foldl (fun (acc : Option BPkt) b => match acc with
        | none => some b
        | some a => if meteredBefore b a then some b else some a) acc, a ∈ d.fb.pkts := by
    intro bs
    induction bs with
    | nil => exact fun acc hacc _ => hacc
    | cons b bs ih =>
      intro acc hacc hbs
      obtain ⟨hb, hbs⟩ := List.forall_mem_cons.mp hbs
      refine ih _ ?_ hbs
      cases acc with
      | none => exact fun a ha => Option.some.inj ha ▸ hb
      | some a =>
        intro y hy
        dsimp only at hy
        split at hy
        · exact Option.some.inj hy ▸ hb
        · exact hacc y hy
  unfold Dev.firstWaiting at h
  obtain ⟨hfirst, -⟩ := Option.filter_eq_some_iff.mp h
  exact hfold _ none (fun _ h => absurd h (by simp)) (fun a ha => List.mem_of_mem_filter (List.mem_of_mem_filter ha)) b hfirst

/-- A packet of the buffer that is changed is found as it then is. -/
theorem Dev.pkt?_modPkt {d : Dev} {b y : BPkt} (hb : b ∈ d.fb.pkts) (hid : y.id = b.id) : (d.modPkt b.id fun _ => y).pkt? b.id = some y := by
  have hfind : ∀ bs : List BPkt, b ∈ bs → (bs.map fun z => if z.id = b.id then y else z).find? (fun z => z.id == b.id) = some y := by
    intro bs hmem
    induction bs with
    | nil => exact absurd hmem (by simp)
    | cons z bs ih =>
      rw [List.map_cons]
      by_cases hz : z.id = b.id
      · rw [if_pos hz, List.find?_cons_of_pos (by simp [hid])]
      · rw [if_neg hz, List.find?_cons_of_neg (by simp [hz])]
        exact ih ((List.mem_cons.mp hmem).resolve_left fun he => hz (congrArg BPkt.id he.symm))
  exact hfind _ hb

section
variable {d : Dev} (hswap : d.fb.swap = none)
include hswap

theorem Dev.holdSorter_of_noSwap (b : BPkt) : d.holdSorter b = false := by simp only [Dev.holdSorter, Dev.drains, hswap]

theorem Dev.holdTable_of_noSwap (b : BPkt) (dte : Nat) : d.holdTable b dte = false := by simp only [Dev.holdTable, Dev.drains, hswap]

end

/-- A packet of class 0 that names no group is routed by the table. -/
theorem Dev.routeAny_of_class0 {d : Dev} {id : Nat} {b : BPkt} (hb : d.pkt? id = some b) (hclass : b.pkt.mclass = 0) : d.routeAny id = d.routePkt id := by
  simp only [Dev.routeAny, hb, consumedHere, byGroup, hclass]
  rfl

section
variable {d : Dev} {g : Nat} {b : BPkt} (hb : d.firstWaiting g = some b) (hswap : d.fb.swap = none)
include hb hswap

theorem Dev.classify_dropped (hdrop : (d.srRun g 257 (.start b)).1.dropped = true) (hlegal : (d.srRun g 257 (.start b)).2 = false) :
    d.classify g = ((d.setSorter g (d.srRun g 257 (.start b)).1).dropPkt b.id).count aCNT_SORT_DROP := by
  have hhold : ¬((d.setSorter g (d.srRun g 257 (.start b)).1).holdSorter b = true) := by
    rw [Dev.holdSorter_of_noSwap (d := d.setSorter g _) hswap]; exact Bool.false_ne_true
  simp only [Dev.classify, hb, if_neg hhold, hlegal, Bool.false_eq_true, if_false, if_pos hdrop]

theorem Dev.classify_routed {x : SorterRun} {pk : Pkt} (hrun : d.srRun g 257 (.start b) = (x, false)) (hdrop : x.dropped = false)
    (hpk : pk = ((b.pkt.setH 8 3 x.tc).setH 64 18 x.flow).setH 14 1 (b.pkt.ordered || x.ord).toNat) (hpol : x.pol = 0xFFFF)
    (hclass : pk.mclass = 0) (hlen : pk.size ≤ d.gf (aSV_CLASS_LEN pk.tc) 0 13) :
    d.classify g = ((d.setSorter g x).modPkt b.id fun _ => { b with pkt := pk, dte := x.dte }).routePkt b.id := by
  subst hpk
  have hhold : ¬((d.setSorter g x).holdSorter b = true) := by
    rw [Dev.holdSorter_of_noSwap (d := d.setSorter g _) hswap]; exact Bool.false_ne_true
  have htable : ¬((d.setSorter g x).holdTable b x.dte = true) := by
    rw [Dev.holdTable_of_noSwap (d := d.setSorter g _) hswap]; exact Bool.false_ne_true
  have hmem : b ∈ (d.setSorter g x).fb.pkts := Dev.mem_of_firstWaiting hb
  rw [← Dev.routeAny_of_class0 (Dev.pkt?_modPkt (y := { b with
    pkt := ((b.pkt.setH 8 3 x.tc).setH 64 18 x.flow).setH 14 1 (b.pkt.ordered || x.ord).toNat, dte := x.dte }) hmem rfl) hclass]
  simp only [Dev.classify, hb, hrun, if_neg hhold, hdrop, Bool.false_eq_true, if_false, if_neg htable, Dev.police, hpol, or_true, if_true,
    Bool.not_true]
  exact if_neg (Nat.not_lt_of_le hlen)

end

/-- The one packet of the buffer, where it passes the test. -/
theorem find?_of_singleton {α : Type} {p : α → Bool} {l : List α} {b : α} (hl : l = [b]) (h : p b = true) : l.find? p = some b := by
  rw [hl, List.find?_cons_of_pos h]

/-- A cell of a queued packet is lost (R443). -/
theorem exec_bufferLost (p q cell : Nat) (s : State) :
    exec (.bufferEccError p q ⟨cell, false⟩) s = devStep (fun d =>
      match d.fb.pkts.find? (fun b => b.copies.any (fun c => c.port == p && c.q == q) && b.cells.any (fun c => c.1 == cell)) with
      | none => d
      | some b => d.when d.live fun d =>
        let d := { d with fb := { d.fb with badCells := if d.fb.badCells.contains cell then d.fb.badCells else cell :: d.fb.badCells } }
        let d := (d.dropCopy b.id p).report 9 1 (cell / 262144) cell
        if b.src.isNone then d.ownLost b.pkt else d) s := rfl

/-- Settles O11: each row of a packet's way acts on the packet that it names, by the rule of its step. -/
theorem packetsLeave : Obligations.PacketsLeave := by
  refine ⟨fun s p hlive => ⟨fun b hb => ?_, fun b hb => ?_⟩, fun s g p u flow hlive => ⟨fun b hg hb hdrop hlegal hswap => ?_,
    fun b x pk hg hb hrun hdrop hswap hpk hpol hclass hlen => ?_, fun b hstart hzero => ?_, fun b x hstart hzero hdrr => ?_,
    fun b hheld hlate => ?_, fun b hpkts hfence hcopy hdone => ?_, fun x rest htake hroom => ?_, fun ids hids hne hopen hvalid hswap => ?_,
    fun b hpkts hplace hsrc hgrp => ?_, fun cell q b hpkts hcopy hcell hsrc => ?_⟩⟩
  · refine gives_when (b := Dev.live) (show exec (.pruned p) s = execPruned p s from rfl) hlive ?_
    simp only [Dev.takeNotice, hb]
  · refine gives_when (b := Dev.live) (show exec (.fencedNak p) s = execFencedNak p s from rfl) hlive ?_
    simp only [Dev.takeNotice, hb]
  · refine gives_when (show exec (.sorterClassify g) s = execSorterClassify g s from rfl) (by simp [hlive, hg]) ?_
    exact Dev.classify_dropped hb hswap hdrop hlegal
  · refine gives_when (show exec (.sorterClassify g) s = execSorterClassify g s from rfl) (by simp [hlive, hg]) ?_
    exact Dev.classify_routed hb hswap hrun hdrop hpk hpol hclass hlen
  · refine gives_when (b := Dev.live) (show exec (.packetDepart p) s = execPacketDepart p s from rfl) hlive ?_
    simp only [Dev.depart, hstart, Bool.not_true, Bool.false_eq_true, if_false, hzero]
  · refine gives_when (b := Dev.live) (show exec (.packetDepart p) s = execPacketDepart p s from rfl) hlive ?_
    simp only [Dev.depart, hstart, Bool.not_true, Bool.false_eq_true, if_false, hzero, hdrr]
  · refine gives_when (show exec (.rsqGapTimeout flow) s = execRsqGapTimeout flow s from rfl) ?_ rfl
    simp only [hlive, hheld, List.any_cons, List.any_nil, Bool.or_false, Bool.true_and, decide_eq_true_iff]
    exact hlate
  · have hfind : (!b.fence.isEmpty && b.copies.any (fun c => c.port == p) && b.fence.all fun i =>
        s.dev.fb.pkts.all (fun b => b.id != i) && s.dev.fb.unacked.all (fun u => u.id != i)) = true := by
      simp only [hcopy, hpkts, List.all_cons, List.all_nil, Bool.and_true, Bool.and_eq_true, Bool.not_eq_true', List.isEmpty_eq_false_iff,
        List.all_eq_true, bne_iff_ne]
      exact ⟨hfence, fun i hi => ⟨(hdone i hi).1.symm, (hdone i hi).2⟩⟩
    refine gives_dev (show exec (.fenceRelease p) s = execFenceRelease p s from rfl) ?_
    dsimp only
    rw [find?_of_singleton hpkts hfind]
    simp only [hlive, Dev.when_true]
  · refine gives_when (b := Dev.live) (show exec (.unitCellTake u) s = execUnitCellTake u s from rfl) hlive ?_
    simp only [htake, hroom, if_true]
  · have hany : s.dev.fb.pkts.any (fun b => b.place == .miss && b.pkt.flow == flow) = true := by
      obtain ⟨i, hi⟩ := List.exists_mem_of_ne_nil _ hne
      rw [hids] at hi
      obtain ⟨b, hb, -⟩ := List.mem_map.mp hi
      obtain ⟨hmem, hmiss⟩ := List.mem_filter.mp hb
      exact List.any_eq_true.mpr ⟨b, hmem, hmiss⟩
    refine gives_when (show exec (.flowCtxFetch flow) s = execFlowCtxFetch flow s from rfl) (by simp [hlive, hopen, hany]) ?_
    have hfree : ∀ b dte, (s.dev.cacheTouch flow).holdTable b dte = false := Dev.holdTable_of_noSwap (d := s.dev.cacheTouch flow) hswap
    simp only [hvalid, if_true, Dev.resumeFlow, hfree, Bool.not_false, Bool.and_true, hids]
    rfl
  · refine gives_when (b := Dev.live) (show exec (.heldPacketTimeout p) s = execHeldPacketTimeout p s from rfl) hlive ?_
    dsimp only
    rw [find?_of_singleton hpkts]
    simp [hplace, hsrc, hgrp]
  · have hhit : (b.copies.any (fun c => c.port == p && c.q == q) && b.cells.any (fun c => c.1 == cell)) = true := by rw [hcopy, hcell]; rfl
    have hown : b.src.isNone = false := by simp [← Option.not_isSome, hsrc]
    refine gives_dev (exec_bufferLost p q cell s) ?_
    rw [find?_of_singleton hpkts hhit]
    simp only [hlive, Dev.when_true, hown, Bool.false_eq_true, if_false]

end Sys2Proof.Machine
end

section
/-! Programs, launches and the registers of the assay engine (chapter 10). -/

namespace Sys2Proof.Machine

/-! ## Registers that reshape the engine (R300, R304, R413) -/

theorem asProfileEffect_busy {d : Dev} (h : d.as_.launches ≠ []) (v : W32) : asProfileEffect v d = d.sb aAS_STAT 0 true := by
  refine if_pos ?_
  simp [h]

theorem asProfileEffect_idle {d : Dev} {v : W32} (hrun : d.as_.launches = []) (hup : d.updateBusy = false) (hctx : d.ctxInUse = false)
    (hoff : v.getLsbD 0 = false) : asProfileEffect v d = (Dev.plainWrite aAS_PROFILE v d).assignBenches.powerBenches := by
  have hbit : bitAt v 0 = false := hoff
  refine if_neg ?_
  simp [hrun, hup, hctx, hbit]

theorem asResvEffect_busy {d : Dev} (h : d.updateBusy = true) (v : W32) : asResvEffect v d = d.sb aAS_STAT 1 true := by
  refine if_pos ?_
  simp [h]

theorem asResvEffect_idle {d : Dev} {v : W32} (hrun : d.as_.launches = []) (hup : d.updateBusy = false)
    (hfit : ∀ k, k < 4 → 0 < fld v (8 * k) 6 ∧ fld v (8 * k) 6 ≤ d.perDeck) :
    asResvEffect v d = (Dev.plainWrite aAS_RESV v d).reshapeFrom d.shapeRecord := by
  refine if_neg ?_
  simp only [hrun, hup, List.isEmpty_nil, Bool.not_true, Bool.false_or, List.any_eq_true, List.mem_range, Bool.or_eq_true, decide_eq_true_iff,
    Bool.and_eq_true, beq_iff_eq, not_exists, not_and, not_or]
  intro k hk
  obtain ⟨hpos, hle⟩ := hfit k hk
  exact ⟨Nat.not_lt_of_le hle, fun hzero => absurd hzero (Nat.ne_of_gt hpos)⟩

theorem repCompatEffect_refused {d : Dev} {v : W32} (h : fld v 8 8 = 0 ∨ 96 < fld v 8 8) : repCompatEffect v d = d.sb aREP_STAT 0 true := by
  refine if_pos ?_
  rcases h with h | h <;> simp [h]

theorem repCompatEffect_idle {d : Dev} {v : W32} (hrun : d.as_.launches = []) (hctx : d.ctxInUse = false) (hpos : 0 < fld v 8 8)
    (hle : fld v 8 8 ≤ 96) : repCompatEffect v d = (Dev.plainWrite aREP_COMPAT v d).reshapeFrom d.shapeRecord := by
  refine if_neg ?_
  simp [hrun, hctx, Nat.ne_of_gt hpos, hle]

/-! ## Programs (R294) -/

/-- A descriptor of ASSAY_LOAD is judged, and completes with what its judgement says. -/
theorem Dev.loadDesc_of_take {d d0 : Dev} {r : Nat} {unload : Bool} {image : Bytes} {f : Fetched} {x : Dev × Nat}
    (htake : d.takeFetched r (fun f => f.ref.op == 0x41 && (bfld f.bytes 18 0 1 == 1) == unload) = some (f, d0))
    (hx : d0.assayLoad true r f.bytes image = x) :
    d.loadDesc r unload image =
      (if x.2 = stOK then x.1.mirror (.desc f.bytes (padTo (rdLE f.bytes 20 4) image)) else x.1).completeS f.ref x.2 := by
  simp only [Dev.loadDesc, htake, hx]

section
variable {d : Dev} {r : Nat} {bs image : Bytes} (hslot : rdLE bs 16 2 ≤ 63) (hlen : rdLE bs 20 4 ≤ 65536)
include hslot hlen

/-- An image whose slot, flags, length and window pass. -/
theorem Dev.assayLoad_image (hpos : 0 < rdLE bs 20 4) (hflags : rdLE bs 18 2 = 0) (hwin : d.inWindow r (rdLE bs 24 8) (rdLE bs 20 4) = true) :
    d.assayLoad true r bs image =
      if d.slotUsed (rdLE bs 16 2) then (d, stCONFLICT)
      else if asImageOk (padTo (rdLE bs 20 4) image) (rdLE bs 20 4) then (d.setProg (rdLE bs 16 2) (padTo (rdLE bs 20 4) image), stOK)
      else (d, stBAD_OPCODE) := by
  have hform : ¬(63 < rdLE bs 16 2 ∨ 2 ≤ rdLE bs 18 2) := by omega
  have hrange : ¬(rdLE bs 20 4 = 0xFFFFFFFF ∨ 65536 < rdLE bs 20 4) := by omega
  have hsome : ¬(rdLE bs 20 4 = 0 ∧ !(rdLE bs 18 2 % 2 == 1)) := by simp [Nat.ne_of_gt hpos]
  have hin : ¬((true && !(rdLE bs 18 2 % 2 == 1) && !d.inWindow r (rdLE bs 24 8) (rdLE bs 20 4)) = true) := by simp [hwin]
  have hload : ¬((rdLE bs 18 2 % 2 == 1) = true) := by simp [hflags]
  simp only [Dev.assayLoad, if_neg hform, if_neg hrange, if_neg hsome, if_neg hin, if_neg hload]
  cases asImageOk (padTo (rdLE bs 20 4) image) (rdLE bs 20 4) <;> rfl

/-- The UNLOAD form of a slot that no launch names. -/
theorem Dev.assayLoad_unload (hflags : rdLE bs 18 2 = 1) (hfree : d.slotUsed (rdLE bs 16 2) = false) :
    d.assayLoad true r bs image = (d.setProg (rdLE bs 16 2) [], stOK) := by
  have hform : ¬(63 < rdLE bs 16 2 ∨ 2 ≤ rdLE bs 18 2) := by omega
  have hrange : ¬(rdLE bs 20 4 = 0xFFFFFFFF ∨ 65536 < rdLE bs 20 4) := by omega
  have hunload : (rdLE bs 18 2 % 2 == 1) = true := by simp [hflags]
  simp only [Dev.assayLoad, if_neg hform, if_neg hrange, hunload, hfree, Bool.not_true, Bool.and_false, Bool.false_and, Bool.false_eq_true,
    and_false, if_false, if_true]

end

/-- Settles O30: a load ends as its checks in order say, and a write that reshapes the engine is refused while it works. -/
theorem assayProgramsAndRegisters : Obligations.AssayProgramsAndRegisters := by
  refine ⟨fun s r slot len image f d0 hslot hlen hle => ⟨fun htake hpos hmax hflags hwin => ?_, fun htake hmax hflags hfree => ?_⟩,
    fun s v w d0 => ⟨fun hsees => ⟨fun hrun => gives_bar rfl hsees (asProfileEffect_busy hrun w),
      fun hrun hup hctx hoff => gives_bar rfl hsees (asProfileEffect_idle hrun hup hctx hoff)⟩,
      fun hsees => ⟨fun hup => gives_bar rfl hsees (asResvEffect_busy hup w), fun hrun hup hfit => gives_bar rfl hsees (asResvEffect_idle hrun hup hfit)⟩,
      fun hsees => ⟨fun hbad => gives_bar rfl hsees (repCompatEffect_refused hbad),
        fun hrun hctx hpos hmax => gives_bar rfl hsees (repCompatEffect_idle hrun hctx hpos hmax)⟩⟩⟩
  · subst hslot hlen
    have hjudge := Dev.assayLoad_image (image := image) hle hmax hpos hflags hwin
    have hrow {P : Dev → Prop} {x : Dev × Nat} (hx : d0.assayLoad true r f.bytes image = x)
        (hp : P ((if x.2 = stOK then x.1.mirror (.desc f.bytes (padTo (rdLE f.bytes 20 4) image)) else x.1).completeS f.ref x.2)) :
        Gives (.assayLoad r image) s P :=
      gives_dev (show exec (.assayLoad r image) s = execAssayLoad r image s from rfl) (Dev.loadDesc_of_take htake hx ▸ hp)
    refine ⟨fun hfree hok => hrow (x := (d0.setProg _ _, stOK)) (hjudge.trans ?_) rfl, fun hused => hrow (x := (d0, stCONFLICT)) (hjudge.trans ?_) rfl,
      fun hfree hbad => hrow (x := (d0, stBAD_OPCODE)) (hjudge.trans ?_) rfl⟩
    · rw [if_neg (ne_true_of_eq_false hfree), if_pos hok]
    · rw [if_pos hused]
    · rw [if_neg (ne_true_of_eq_false hfree), if_neg (ne_true_of_eq_false hbad)]
  · subst hslot hlen
    refine gives_dev (show exec (.assayUnload r) s = execAssayUnload r s from rfl) ?_
    rw [Dev.loadDesc_of_take htake (Dev.assayLoad_unload hle hmax hflags hfree)]
    rfl

/-! ## Launches (R295 to R299) -/

/-- Settles O31: a launch goes on as its judgement, its benches and its time say. -/
theorem assayLaunches : Obligations.AssayLaunches := by
  intro s r id phys f d0 l l1 st hall k hlive
  refine ⟨fun htake hjudge => ?_, fun htake hjudge => ?_, fun hl hrun hready hlost hstart hentry => ?_, fun hl hrun hdone hl1 hhall => ?_,
    fun hl hrun hdone hl1 hhall => ?_, fun hl hrun hlong => ?_, fun hphys hfence => ⟨?_, ?_⟩⟩
  · refine gives_dev (show exec (.assayRun r) s = execAssayRun r s from rfl) ?_
    simp only [htake, hjudge]
  · refine gives_dev (show exec (.assayRun r) s = execAssayRun r s from rfl) ?_
    simp only [htake, hjudge]
  · refine yields_mem (show exec (.assayLaunchStart id) s = execAssayLaunchStart id s from rfl) ?_
    have hwait : ¬(l.running = true ∨ (!l.ready) = true) := by simp [hrun, hready]
    simp only [hlive, if_true, hl, if_neg hwait, hlost, Bool.false_eq_true, if_false, hstart, Dev.launchStart, if_pos hentry]
    exact ⟨trivial, trivial⟩
  · refine yields_mem (show exec (.assayLaunchComplete id) s = execAssayLaunchComplete id s from rfl) ?_
    have hover : ¬((!l.running) = true ∨ (!(s.dev.benchesOf l).all fun b => b.done) = true) := by simp [hrun, hdone]
    simp only [hlive, if_true, hl, if_neg hover, hl1, hhall]
    exact ⟨trivial, trivial⟩
  · refine yields_mem (show exec (.assayLaunchComplete id) s = execAssayLaunchComplete id s from rfl) ?_
    have hover : ¬((!l.running) = true ∨ (!(s.dev.benchesOf l).all fun b => b.done) = true) := by simp [hrun, hdone]
    simp only [hlive, if_true, hl, if_neg hover, hl1, hhall]
  · refine yields_mem (show exec (.assayRunLimit id) s = execAssayRunLimit id s from rfl) ?_
    have hlimit : l.running = true ∧ Int.ofNat (orOne (s.dev.gf aAS_CFG 0 16) * 2 ^ 20) < s.dev.since l.start := ⟨hrun, hlong⟩
    simp only [hlive, if_true, hl, if_pos hlimit]
  · refine yields_mem (show exec (.benchFault ⟨phys, false⟩) s = execBenchFault ⟨phys, false⟩ s from rfl) ?_
    have hgo : (s.dev.live && decide (phys < 136) && !s.dev.benchFenced phys) = true := by simp [hlive, hphys, hfence]
    simp only [hgo, if_true, Bool.false_eq_true, if_false]
  · refine yields_mem (show exec (.benchFault ⟨phys, true⟩) s = execBenchFault ⟨phys, true⟩ s from rfl) ?_
    have hgo : (s.dev.live && decide (phys < 136) && !s.dev.benchFenced phys) = true := by simp [hlive, hphys, hfence]
    simp only [hgo, if_true]
    exact ⟨trivial, trivial⟩

end Sys2Proof.Machine
end

section
/-! Training sets: their descriptors and transfers (chapter 12). -/

namespace Sys2Proof.Machine

/-! ## Descriptors of training sets (R337, R338, R349, R357) -/

/-- A delete of a set that stands and is not busy (R337). -/
theorem Dev.shardDefine_delete {d : Dev} {r : Nat} {bs im : Bytes} {x : ShardSet} (hpos : 0 < rdLE bs 16 2) (hle : rdLE bs 16 2 ≤ 4095)
    (hidle : d.shBusy (rdLE bs 16 2) = false) (hset : d.shard? (rdLE bs 16 2) = some x) (hdel : rdLE bs 18 2 % 2 = 1) (hflags : rdLE bs 18 2 < 4) :
    d.shardDefine true r bs im = (d.shardRemove (rdLE bs 16 2) x, stOK) := by
  have hform : ¬(rdLE bs 16 2 = 0 ∨ 4095 < rdLE bs 16 2 ∨ 4 ≤ rdLE bs 18 2) := by omega
  simp only [Dev.shardDefine, if_neg hform, if_pos hdel, hidle, Bool.false_eq_true, if_false, hset]

/-- A define whose image passes every check enters the set (R337). -/
theorem Dev.shardDefine_enter {d : Dev} {r : Nat} {bs data : Bytes} (hpos : 0 < rdLE bs 16 2) (hle : rdLE bs 16 2 ≤ 4095) (hflags : rdLE bs 18 2 = 0)
    (hwin : d.inWindow r (rdLE bs 24 8) (rdLE bs 20 4) = true) {im : Bytes} (him : im = padTo (rdLE bs 20 4) data) (hset : rdLE im 0 2 = rdLE bs 16 2)
    (hslices : 0 < rdLE im 8 2) (hmost : rdLE im 8 2 ≤ 256) (hsize : 0 < rdLE im 4 4) (hbound : rdLE im 4 4 < 0xFFFFFFFF)
    (hblocks : rdLE im 12 4 ≤ 262144) (hlen : rdLE bs 20 4 = 64 + 16 * (rdLE im 8 2 + rdLE im 12 4)) (hok : d.shardImageOk im = true)
    (hidle : d.shBusy (rdLE bs 16 2) = false) (hroom : d.shardRoom (rdLE bs 16 2) (shardOfImage im) = true) :
    d.shardDefine true r bs data = (d.shardEnter (rdLE bs 16 2) im, stOK) := by
  have hform : ¬(rdLE bs 16 2 = 0 ∨ 4095 < rdLE bs 16 2 ∨ 4 ≤ rdLE bs 18 2) := by omega
  have hkeep : ¬rdLE bs 18 2 % 2 = 1 := by omega
  have hlong : ¬rdLE bs 20 4 = 0xFFFFFFFF := by omega
  have hsome : ¬rdLE bs 20 4 = 0 := by omega
  have hhead : ¬(rdLE im 0 2 ≠ rdLE bs 16 2 ∨ rdLE im 8 2 = 0 ∨ 256 < rdLE im 8 2 ∨ rdLE im 4 4 = 0 ∨ rdLE im 4 4 = 0xFFFFFFFF ∨
      262144 < rdLE im 12 4 ∨ rdLE bs 20 4 ≠ 64 + 16 * (rdLE im 8 2 + rdLE im 12 4)) := by omega
  have hwhole : ¬2 ≤ rdLE bs 18 2 := by omega
  simp only [Dev.shardDefine, if_neg hform, if_neg hkeep, if_neg hlong, if_neg hsome, hwin, ← him, if_neg hhead, if_neg hwhole, hok, hidle, hroom,
    Bool.not_true, Bool.and_false, Bool.or_self, Bool.false_eq_true, if_false]

/-- Settles O32: the flags name the row, the row's judgement the status, and what succeeds is mirrored. -/
theorem shardDescriptors : Obligations.ShardDescriptors := by
  intro s r data f d0 x
  refine ⟨fun htake => ?_, fun htake hpos hle hidle hset hdel hflags => ?_, fun htake => ?_,
    fun hpos hle hflags hwin hset hslices hmost hsize hbound hblocks hlen hok hidle hroom =>
      Dev.shardDefine_enter hpos hle hflags hwin rfl hset hslices hmost hsize hbound hblocks hlen hok hidle hroom,
    fun htake => ⟨?_, fun hnone => ?_⟩, fun htake => ⟨?_, fun hset hout hsettled => ?_⟩⟩
  · refine gives_dev (show exec (.shardDefine r data) s = execShardDefine r data s from rfl) ?_
    simp only [Dev.shardDesc, htake]
  · refine gives_dev (show exec (.shardDelete r) s = execShardDelete r s from rfl) ?_
    simp only [Dev.shardDesc, htake, Dev.shardDefine_delete hpos hle hidle hset hdel hflags]
  · refine gives_dev (show exec (.shardFlagsOnly r data) s = execShardFlagsOnly r data s from rfl) ?_
    simp only [Dev.shardDesc, htake]
  · refine gives_dev (show exec (.shardSched r data) s = execShardSched r data s from rfl) ?_
    simp only [htake]
  · refine gives_dev (show exec (.shardSched r data) s = execShardSched r data s from rfl) ?_
    simp only [htake, Dev.shardSched, hnone]
    rfl
  · refine gives_dev (show exec (.shardResolve r) s = execShardResolve r s from rfl) ?_
    simp only [htake]
  · refine gives_dev (show exec (.shardResolve r) s = execShardResolve r s from rfl) ?_
    have hform : ¬((d0.shard? (rdLE f.bytes 16 2)).isNone = true ∨ 2 ≤ rdLE f.bytes 18 1) := by
      rw [hset]
      simpa using hout
    simp only [htake, Dev.shardResolve, if_neg hform, if_pos hsettled, if_true]

/-! ## Transfers of a set (R360) -/

section
variable {s : State} {r st : Nat} {f : Fetched} {d0 : Dev} {i : Instr} {p : Nat → Bool}
  (he : exec i s = devStep (fun d => match d.takeShardIo r p with
    | some (f, d) => d.shardIoStart f
    | none => d) s)
  (htake : s.dev.takeShardIo r p = some (f, d0))
include he htake

theorem gives_shardIo_refused (hjudge : d0.shardIoJudge f.ref.ring f.bytes = some st) : Gives i s fun d => d = d0.completeS f.ref st := by
  refine gives_dev he ?_
  simp only [htake, Dev.shardIoStart, hjudge]

theorem gives_shardIo_started : Gives i s fun d => d = d0.shardIoStart f := by
  refine gives_dev he ?_
  simp only [htake]

end

/-! ## UP_POOL (R361) -/

theorem regRow_aUP_POOL {k : Nat} (h : k < 4) : regRow (aUP_POOL k) = some (rn 0xc0020 4 0x4 0 0xffff 0 0x1000) := by
  interval_cases k <;> decide

theorem upPoolEffect_refused {d : Dev} {k : Nat} {w : W32}
    (h : d.sh.sets.any (fun e => e.2.any (fun x => decide (fld w 0 16 * 256 < x.needAt k))) = true ∨ d.poolLimit k < fld w 0 16 * 256) :
    upPoolEffect k w d = d.sb aUP_STAT 0 true := by
  refine if_pos ?_
  rcases h with h | h <;> simp [h]

/-- A pool that no set or claim holds takes the size written; the frames move between the pool and the rest of the partition. -/
theorem upPoolEffect_stored {d : Dev} {k : Nat} {w : W32} (hops : d.cl.ops = []) (hsets : d.sh.sets = []) (hle : fld w 0 16 * 256 ≤ d.poolLimit k) :
    upPoolEffect k w d =
      (((Dev.plainWrite (aUP_POOL k) w d).wr (aUP_POOL_FREE k) ((Dev.plainWrite (aUP_POOL k) w d).rg (aUP_POOL_FREE k) +
        BitVec.ofNat 32 (fld w 0 16 * 256) - BitVec.ofNat 32 (d.gf (aUP_POOL k) 0 16 * 256))).wr (aUP_FRAMES_FREE k)
        (((Dev.plainWrite (aUP_POOL k) w d).wr (aUP_POOL_FREE k) ((Dev.plainWrite (aUP_POOL k) w d).rg (aUP_POOL_FREE k) +
          BitVec.ofNat 32 (fld w 0 16 * 256) - BitVec.ofNat 32 (d.gf (aUP_POOL k) 0 16 * 256))).rg (aUP_FRAMES_FREE k) +
        BitVec.ofNat 32 (d.gf (aUP_POOL k) 0 16 * 256) - BitVec.ofNat 32 (fld w 0 16 * 256))) := by
  refine if_neg ?_
  simp [hops, hsets, hle]

/-- Settles O33: a transfer and a piece go on as their judgement says, and a pool's size moves frames between the pool and the partition. -/
theorem shardTransfers : Obligations.ShardTransfers := by
  intro s r id g q k f d0 st data v w o o1 x gs
  refine ⟨fun htake => ?_, fun htake => ?_, fun htake => ⟨fun hjudge => ?_, fun hjudge => ?_⟩, fun hlive => ?_,
    fun hlive hop hgrp hpiece ho1 => ?_, fun d1 hk hsees => ⟨fun hbad => ?_, fun hops hsets hle => ?_⟩⟩
  · have he := show exec (.shardIoWrite r) s = execShardIoWrite r s from rfl
    exact ⟨fun hjudge => gives_shardIo_refused he htake hjudge, fun _ => gives_shardIo_started he htake⟩
  · have he := show exec (.shardIoRead r) s = execShardIoRead r s from rfl
    exact ⟨fun hjudge => gives_shardIo_refused he htake hjudge, fun _ => gives_shardIo_started he htake⟩
  · refine gives_dev (show exec (.shardIoSeal r) s = execShardIoSeal r s from rfl) ?_
    simp only [htake, hjudge]
  · refine gives_dev (show exec (.shardIoSeal r) s = execShardIoSeal r s from rfl) ?_
    simp only [htake, hjudge]
  · exact gives_when (b := Dev.live) (show exec (.shardIoDone id data) s = execShardIoDone id data s from rfl) hlive rfl
  · refine gives_when (b := Dev.live) (show exec (.updatePiece g q k) s = execUpdatePiece g q k s from rfl) hlive ?_
    simp only [hop, hgrp, hpiece]
    rw [ho1]
  · exact gives_whenBar rfl (decide_eq_true hk) hsees (upPoolEffect_refused hbad)
  · refine gives_whenBar rfl (decide_eq_true hk) hsees ?_
    have hfree : aUP_POOL_FREE k ≠ aUP_POOL k := by unfold aUP_POOL_FREE aUP_POOL; omega
    have hframes : aUP_FRAMES_FREE k ≠ aUP_POOL k := by unfold aUP_FRAMES_FREE aUP_POOL; omega
    have hapart : aUP_FRAMES_FREE k ≠ aUP_POOL_FREE k := by unfold aUP_FRAMES_FREE aUP_POOL_FREE; omega
    have hkept (a : Nat) (ha : a ≠ aUP_POOL k) : (Dev.plainWrite (aUP_POOL k) w d1).rg a = d1.rg a :=
      (plainWrite_same _ _ _).2 a (by simpa using ha)
    rw [upPoolEffect_stored hops hsets hle]
    refine ⟨?_, ?_, ?_, ?_⟩
    · rw [Dev.gf_wr_ne _ _ _ _ hframes.symm, Dev.gf_wr_ne _ _ _ _ hfree.symm]
      exact Dev.gf_plainWrite (regRow_aUP_POOL hk) rfl (by decide) w d1
    · rw [Dev.rg_wr_ne _ _ hapart.symm, Dev.rg_wr_self, hkept _ hfree]
    · rw [Dev.rg_wr_self, Dev.rg_wr_ne _ _ hapart, hkept _ hframes]
    · exact ((Dev.sameBut_wr (by simp) _ _).trans (Dev.sameBut_wr (by simp) _ _)).trans (Dev.sameBut_plainWrite (by simp) _ _)

end Sys2Proof.Machine
end

section
/-! Stacked memory: errors, refresh, the partition, copies and sends (chapter 13). -/

namespace Sys2Proof.Machine

/-! ## Lines that are read (R364, R365) -/

/-- A new scrub period changes the scrubber's own state alone. -/
theorem Dev.scrubTurn_eq (d : Dev) : d.scrubTurn = { d with me := d.scrubTurn.me } := by
  unfold Dev.scrubTurn
  split
  · split <;> rfl
  · rfl

theorem Dev.lineReads_iff {d : Dev} {stack line : Nat} (hlive : d.live = true) :
    d.lineReads stack line = (d.holdsLine stack line && !d.stackShut stack) := by
  simp [Dev.lineReads, hlive]

/-- A line that the scrubber reads for the first time in its period. -/
def Dev.scrubs (d : Dev) (line : Nat) : Dev :=
  { d.scrubTurn with me := { d.scrubTurn.me with scrubbed := line :: d.scrubTurn.me.scrubbed } }

theorem Dev.scrubs_eq (d : Dev) (line : Nat) :
    d.scrubs line = { d with me := { d.scrubTurn.me with scrubbed := line :: d.scrubTurn.me.scrubbed } } := by
  rw [Dev.scrubs, Dev.scrubTurn_eq]

/-- What the scrubber does with a line by the symbols that it finds wrong (R364). -/
theorem gives_scrubLine {s : State} {stack line wrong : Nat} {P : Dev → Prop} (hreads : s.dev.lineReads stack line = true)
    (hnew : line ∉ s.dev.scrubTurn.me.scrubbed)
    (h : P (if wrong = 0 then s.dev.scrubs line
      else if wrong = 1 then ((s.dev.scrubs line).count aCNT_MEM_CE).report 11 0 stack (64 * line)
      else (s.dev.scrubs line).lineLost stack line (wrong - 2))) : Gives (.scrubLine stack line wrong) s P := by
  refine gives_when (show exec (.scrubLine stack line wrong) s = execScrubLine stack line wrong s from rfl) (by simp [hreads, hnew]) ?_
  exact h

/-- Settles O34: a line that the stack may read is judged by its symbols, and a window opens and closes by the stack's own comparator or timer. -/
theorem memoryErrorsAndRefresh : Obligations.MemoryErrorsAndRefresh := by
  intro s stack line frame s0 c n t hlive
  have hperst : s.dev.perst = true := (Dev.live_iff.mp hlive).1
  refine ⟨fun hholds hopen => ?_, fun hshut => ?_, fun hfind hfire => ?_, fun ht hover => ?_, fun hs0 hown hopen hn hlate => ?_⟩
  · have hreads : s.dev.lineReads stack line = true := by rw [Dev.lineReads_iff hlive, hholds, hopen]; rfl
    refine ⟨gives_when (show exec (.stackEccError stack line frame) s = execStackEccError stack line frame s from rfl) hreads rfl, fun hold => ?_,
      fun hnew => ⟨?_, ?_, ?_⟩⟩
    · refine gives_dev (show exec (.scrubLine stack line frame) s = execScrubLine stack line frame s from rfl) ?_
      simp [hold]
    · exact gives_scrubLine hreads hnew (Dev.scrubs_eq _ _)
    · refine gives_scrubLine hreads hnew ?_
      rw [if_neg (by decide), if_pos rfl, Dev.scrubs_eq]
    · refine gives_scrubLine hreads hnew ?_
      rw [if_neg (by omega), if_neg (by omega), Nat.add_sub_cancel, Dev.scrubs_eq]
  · have hreads : s.dev.lineReads stack line = false := by rw [Dev.lineReads_iff hlive, hshut, Bool.not_true, Bool.and_false]
    refine ⟨gives_dev (show exec (.stackEccError stack line frame) s = execStackEccError stack line frame s from rfl) ?_,
      gives_dev (show exec (.scrubLine stack line frame) s = execScrubLine stack line frame s from rfl) ?_⟩
    · rw [hreads, Dev.when_false]
    · simp only [hreads, Bool.false_and, Dev.when_false]
  · refine gives_dev (show exec (.refreshWindowOpen s0) s = execRefreshWindowOpen s0 s from rfl) ?_
    intro d1 hact
    simp only [hlive, if_true, hfind, hfire, Option.isNone_some, Bool.false_eq_true, if_false, hact]
    rfl
  · refine gives_dev (show exec (.refreshWindowClose s0) s = execRefreshWindowClose s0 s from rfl) ?_
    have hdue : (s.dev.perst && (decide (1536 ≤ s.dev.since t) || decide (s.dev.since t < 0))) = true := by simp [hperst, hover]
    simp only [ht, hdue, Dev.when_true]
  · have htimer : s.dev.ownRefresh s0 = true := by
      rcases hown with h | h <;> simp [Dev.ownRefresh, h]
    have hdue : 3800 ≤ s.dev.tm.cycle - mget 0 s0 s.dev.me.autoAt := by omega
    exact gives_when (show exec (.autoRefresh s0) s = execAutoRefresh s0 s from rfl) (by simp [hperst, hs0, htimer, hopen, hdue]) rfl

/-! ## The partition (R362, R363) -/

theorem Dev.rg_withMe (d : Dev) (x : MemSt) (a : Nat) : ({ d with me := x } : Dev).rg a = d.rg a := rfl

theorem Dev.me_plainWrite (a : Nat) (v : W32) (d : Dev) : (Dev.plainWrite a v d).me = d.me := by rw [(plainWrite_same a v d).1]

theorem Dev.rg_framesAnew_ne (d : Dev) {a : Nat} (h : ∀ k, k < 4 → a ≠ aUP_FRAMES_FREE k) : d.framesAnew.rg a = d.rg a := by
  rw [Dev.framesAnew, show List.range 4 = [0, 1, 2, 3] from rfl]
  simp only [List.foldl_cons, List.foldl_nil]
  rw [Dev.rg_wr_ne _ _ (h 3 (by decide)), Dev.rg_wr_ne _ _ (h 2 (by decide)), Dev.rg_wr_ne _ _ (h 1 (by decide)), Dev.rg_wr_ne _ _ (h 0 (by decide))]

section
variable {s : State} {i : Instr} {a : Nat} {v w : W32} {d0 : Dev} (he : exec i s = partWrite a v s) (hsees : s.dev.Sees a v w d0)
include he hsees

/-- A write of the partition that passes: its register is stored, the free frames follow, and memory is cleared. -/
theorem yields_part_stored (ha : ∀ k, k < 4 → a ≠ aUP_FRAMES_FREE k) (hok : d0.partOk a w = true) :
    Yields i s fun d m => (∀ x, mget 0 x m = 0) ∧ d.me.loss = [] ∧ d.rg a = (Dev.plainWrite a w d0).rg a ∧
      ∀ b, b ≠ a → (∀ j, j < 4 → b ≠ aUP_FRAMES_FREE j) → d.rg b = d0.rg b := by
  obtain ⟨hw, rfl⟩ := hsees
  refine yields_mem (he.trans (show partWrite a v s = memStep _ s from rfl)) ?_
  simp only [hw, partEffect, hok, if_true]
  refine ⟨fun _ => rfl, trivial, ?_, fun b hb hframes => ?_⟩
  · rw [Dev.rg_withMe, Dev.rg_framesAnew_ne _ ha]
  · rw [Dev.rg_withMe, Dev.rg_framesAnew_ne _ hframes]
    exact (plainWrite_same _ _ _).2 b (by simpa using hb)

/-- A write of the partition that does not pass leaves its mark alone. -/
theorem yields_part_refused (hok : d0.partOk a w = false) : Yields i s fun d m => m = s.mem ∧ d = d0.sb aMEM_STAT 0 true := by
  obtain ⟨hw, rfl⟩ := hsees
  refine yields_mem (he.trans (show partWrite a v s = memStep _ s from rfl)) ?_
  simp only [hw, partEffect, hok, Bool.false_eq_true, if_false]
  exact ⟨trivial, trivial⟩

end

/-! ## Refresh series (R366, R367) -/

section
variable {d : Dev} {s0 : Nat} {w : W32}

theorem memRefEffect_moves (hen : d.gb (aMEM_REF s0) 0 = true)
    (h : refPeriod w ≠ refPeriod (d.rg (aMEM_REF s0)) ∨ refPhase w ≠ refPhase (d.rg (aMEM_REF s0))) :
    memRefEffect s0 w d = d.sb aMEM_STAT 1 true := by
  refine if_pos ?_
  rcases h with h | h <;> simp [hen, h]

theorem memRefEffect_range (hon : bitAt w 0 = true)
    (h : d.gf aPT_STAT 0 3 = 0 ∨ refPeriod w < 8192 ∨ 16384 < refPeriod w ∨ refPeriod w ≤ refPhase w) :
    memRefEffect s0 w d = d.sb aMEM_STAT 1 true := by
  refine if_pos ?_
  rcases h with h | h | h | h <;> simp [hon, h]

theorem memRefEffect_enable (hen : d.gb (aMEM_REF s0) 0 = false) (hon : bitAt w 0 = true) (hset : d.gf aPT_STAT 0 3 ≠ 0) (hlo : 8192 ≤ refPeriod w)
    (hhi : refPeriod w ≤ 16384) (hphase : refPhase w < refPeriod w) (hroom : d.maintRoom = true) :
    memRefEffect s0 w d = (Dev.plainWrite (aMEM_REF s0) w d).takeCmp 3 ((Dev.plainWrite (aMEM_REF s0) w d).refFirst s0) none (.refresh s0) := by
  refine (if_neg ?_).trans ?_
  · simp [hen, hset, hlo, hhi, hphase, hroom]
  · simp [hen, hon]

theorem memRefEffect_end (hen : d.gb (aMEM_REF s0) 0 = true) (hoff : bitAt w 0 = false) (hperiod : refPeriod w = refPeriod (d.rg (aMEM_REF s0)))
    (hphase : refPhase w = refPhase (d.rg (aMEM_REF s0))) :
    memRefEffect s0 w d = { (Dev.plainWrite (aMEM_REF s0) w d).dropCmp (.refresh s0) with
      me := { (Dev.plainWrite (aMEM_REF s0) w d).me with series := mput false s0 false (Dev.plainWrite (aMEM_REF s0) w d).me.series } } := by
  refine (if_neg ?_).trans ?_
  · simp [hoff, hperiod, hphase]
  · simp [hen, hoff]

end

/-- Both forms that write the partition are one write of their register, which is no count of free frames. -/
theorem exec_part {i : Instr} {a k : Nat} {v : W32} (h : (i = .memPartWrite k v ∧ a = aMEM_PART k ∧ k < 4) ∨ (i = .memWsWrite v ∧ a = aMEM_WS))
    (s : State) : exec i s = partWrite a v s ∧ ∀ j, j < 4 → a ≠ aUP_FRAMES_FREE j := by
  rcases h with ⟨rfl, rfl, hk⟩ | ⟨rfl, rfl⟩
  · exact ⟨(show _ = execMemPartWrite k v s from rfl).trans (if_pos hk), fun j hj => by unfold aMEM_PART aUP_FRAMES_FREE; omega⟩
  · exact ⟨rfl, fun j hj => by unfold aMEM_WS aUP_FRAMES_FREE; omega⟩

/-- Settles O35: a series is refused, armed or ended by its bits, and the partition is stored or refused whole. -/
theorem refreshAndPartition : Obligations.RefreshAndPartition := by
  refine ⟨fun s s0 v w d0 hs0 hsees => ?_, fun s a k i v w d0 hsees hform => ⟨fun hok => ?_, fun hbad => ?_⟩⟩
  · have hrow {P : Dev → Prop} (h : P (memRefEffect s0 w d0)) : Gives (.memRefWrite s0 v) s P := gives_whenBar rfl (decide_eq_true hs0) hsees h
    refine ⟨fun hen h => hrow (memRefEffect_moves hen h), fun hon h => hrow (memRefEffect_range hon h),
      fun hen hon hset hlo hhi hphase hroom => hrow (memRefEffect_enable hen hon hset hlo hhi hphase hroom),
      fun hen hoff hperiod hphase => hrow ((memRefEffect_end hen hoff hperiod hphase).trans ?_)⟩
    rw [Dev.me_plainWrite]
  · obtain ⟨he, ha⟩ := exec_part hform s
    exact yields_part_stored he hsees ha hok
  · exact yields_part_refused (exec_part hform s).1 hsees hbad

end Sys2Proof.Machine
end

section
/-! PROOF. Sends of a model: O36. -/

namespace Sys2Proof.Machine

/-! ## Sends of a model (R373 to R376) -/

theorem Dev.sendBranches_nil (d : Dev) (u : Nat) (p : Pkt) : d.sendBranches u p [] = d := by
  have hports : d.originate u p [] = d := by simp [Dev.originate]
  have hway (g : Option Grp) : d.originate u p [] = d → (match g with
      | some x => d.noteOwn p ((prunedRanks []).map (d.memEp x))
      | none => d).originate u p [] = d := fun h => by cases g <;> exact h
  exact hway _ hports

/-- A group without members and neighbours has no branch. -/
theorem Dev.multicastBranches_of_empty (d : Dev) {x : Grp} (hmemb : x.nmemb = 0) (hnb : x.nnbr = 0) (p : Pkt) (src : Option Nat) :
    d.multicastBranches x p src = [] := by
  simp [Dev.multicastBranches, Dev.localRanks, hmemb, hnb]

theorem Dev.sendBranches_of_empty (d : Dev) {x : Grp} (hmemb : x.nmemb = 0) (hnb : x.nnbr = 0) (u : Nat) (p : Pkt) (src : Option Nat) :
    d.sendBranches u p (d.multicastBranches x p src) = d := by
  rw [d.multicastBranches_of_empty hmemb hnb, d.sendBranches_nil]

/-- A running send of no bytes to group 1, with the hallmark read so far. -/
def emptySend (hall : Nat) : WsSend := { send0 true false [(none, 0, 0)] with hall := hall }

/-- Group 1 with an empty record, and two sends of one number that differ in the hallmark. -/
def twoSends : State :=
  let d := up.wr (aGIX 1) 0x8000
  { State.reset with dev := { d with me := { d.me with sends := [emptySend 0, emptySend 1] } } }

/-- WS_DATA_EMIT adds to the hallmark of each send of the number. -/
theorem twoSends_emit {P : Dev → Prop} (h : Gives (.wsDataEmit 0) twoSends P) : ∃ d, P d ∧ d.me.sends.map (·.hall) = [0, 1] := by
  obtain ⟨d, hexec, hP⟩ := h
  refine ⟨d, hP, ?_⟩
  have hrun : (match exec (.wsDataEmit 0) twoSends with
      | .next t => t.dev.me.sends.map (·.hall)
      | _ => []) = [0, 1] := by decide +kernel
  rwa [hexec] at hrun

/-- Refutes O36: the claim names one hallmark for every send of the number, and WS_DATA_EMIT adds to the hallmark that each has. In a state with two
sends of one number and the hallmarks 0 and 1 a packet of no bytes leaves them 0 and 1. -/
theorem not_copiesAndSends : ¬ Obligations.CopiesAndSends := by
  unfold Obligations.CopiesAndSends
  intro h
  obtain ⟨-, hsends⟩ := h.2 twoSends 0 0 [] ⟨(emptySend 0).ref, [], 0⟩ twoSends.dev 0 .now (emptySend 0) (twoSends.dev.grpAt 0) none 0 0 []
  obtain ⟨-, hemit, -⟩ := hsends (by decide +kernel) (by decide +kernel)
  obtain ⟨d, ⟨bl, hall, hd⟩, hhalls⟩ := twoSends_emit (hemit rfl rfl (by decide +kernel) (by decide +kernel) (by decide +kernel))
  replace hd := hd.trans (Dev.sendBranches_of_empty _ (by decide +kernel) (by decide +kernel) _ _ _)
  have hone : d.me.sends.map (·.hall) = [hall, hall] := by rw [hd]; rfl
  rw [hone] at hhalls
  simp at hhalls
  omega

end Sys2Proof.Machine
end

section
/-! PROOF. The host interface: O37 to O40. -/

namespace Sys2Proof.Machine

/-! ## Polling (R380, R387 to R390) -/

/-- A poll that has learned of no ring, and finds room for each ring that waits, acts on none. -/
theorem Dev.heldRings_eq_nil {d : Dev} (h : ∀ x ∈ d.hi.tails, d.ringState x.1 = 1 → d.posted x.1 ≠ 0 → d.roomCq x.1 = true) :
    d.hi.tails.filterMap (fun x => if d.ringState x.1 = 1 ∧ d.posted x.1 ≠ 0 ∧ !d.roomCq x.1 then some x.1 else none) = [] := by
  rw [List.filterMap_eq_nil_iff]
  intro x hx
  refine if_neg fun ⟨hrun, hposted, hfull⟩ => ?_
  simp [h x hx hrun hposted] at hfull

/-- What a poll that finds no ring leaves in the counters and in the interval (R389). -/
def Dev.emptyPoll (d : Dev) : Dev :=
  let d := (d.count aCNT_POLL).count aCNT_POLL_EMPTY
  d.sf aDB_POLL 8 4 (min d.pollMax (d.gf aDB_POLL 8 4 + 1))

/-- The interval may be read before the empty poll is counted. -/
theorem Dev.emptyPoll_eq (d : Dev) : ((d.count aCNT_POLL).count aCNT_POLL_EMPTY).sf aDB_POLL 8 4
    (min (d.count aCNT_POLL).pollMax ((d.count aCNT_POLL).gf aDB_POLL 8 4 + 1)) = d.emptyPoll := by
  have hrg : ((d.count aCNT_POLL).count aCNT_POLL_EMPTY).rg aDB_POLL = (d.count aCNT_POLL).rg aDB_POLL := Dev.rg_count_ne _ (by decide)
  simp only [Dev.emptyPoll, Dev.pollMax, Dev.pollMin, Dev.gf, hrg]

/-- Nothing kept stays nothing kept. -/
theorem HostSt.noneKept {h : HostSt} (htop : h.keptTop = 0) (hsecond : h.keptSecond = []) (t : Option W64) :
    { h with keptTop := 0, keptSecond := [], lastPoll := t } = { h with lastPoll := t } := by
  rw [← htop, ← hsecond]

theorem hiCfgEffect_clear {w : W32} (hw : bitAt w 0 = false) (d : Dev) : hiCfgEffect w d = d.sb aHI_CFG 0 false := by
  simp [hiCfgEffect, hw]

theorem hiCfgEffect_refused {d : Dev} {w : W32} (hw : bitAt w 0 = true)
    (hbad : (d.rg aDB_BASE_LO = 0 ∧ d.rg aDB_BASE_HI = 0) ∨ (d.stage ≠ 5 ∧ d.stage ≠ 6)) : hiCfgEffect w d = d.sb aHI_STAT 0 true := by
  simp only [hiCfgEffect, hw, Bool.not_true, Bool.false_eq_true, if_false, if_pos hbad]

theorem hiCfgEffect_starts {d : Dev} {w : W32} (hw : bitAt w 0 = true) (hbase : d.rg aDB_BASE_LO ≠ 0 ∨ d.rg aDB_BASE_HI ≠ 0) (hstage : d.stage = 5)
    (hfail : d.gb aHI_STAT 1 = false) (hoff : d.gb aHI_CFG 0 = false) :
    let d1 := { d.sb aHI_CFG 0 true with hi := { d.hi with pollStopped := false, lastPoll := none } }
    hiCfgEffect w d = d1.sf aDB_POLL 8 4 d1.pollMin := by
  have hgood : ¬ ((d.rg aDB_BASE_LO = 0 ∧ d.rg aDB_BASE_HI = 0) ∨ (d.stage ≠ 5 ∧ d.stage ≠ 6)) := by
    rintro (⟨hlo, hhi⟩ | ⟨h5, -⟩)
    · exact hbase.elim (absurd hlo) (absurd hhi)
    · exact h5 hstage
  have hfail' : (d.sb aHI_CFG 0 true).gb aHI_STAT 1 = false := (d.gb_sb_ne 0 1 true (by decide)).trans hfail
  simp only [hiCfgEffect, hw, Bool.not_true, Bool.false_eq_true, if_false, if_neg hgood, hfail', hoff, Bool.false_and]
  rfl

/-- Settles O37: a doorbell word, an empty poll, a failed Swap and HI_CFG.EN do what their rows say. -/
theorem polling : Obligations.Polling := by
  refine fun s d d0 r w v u seconds dbs top0 top1 => ⟨fun hrun hover => if_pos ⟨hrun, hover⟩, fun hfits => if_neg fun h => ?_,
    fun hpoll hdue => have hgo : (s.dev.polling && s.dev.pollDue) = true := by rw [hpoll, hdue]; rfl
      ⟨fun htop hsecond hroom => ?_, ?_⟩, fun hsees => ⟨fun hoff => ?_, fun hon hbad => ?_, fun hon hbase hstage hfail hwas => ?_⟩⟩
  · exact absurd (show d.sqSize r ≤ fld w 0 16 from h.2) (by omega)
  · refine gives_when (show exec (.doorbellPoll 0 0 seconds dbs) s = execDoorbellPoll 0 0 seconds dbs s from rfl) hgo ?_
    have hrings : secondRings s.dev.hi.keptSecond ++ secondRings (secondWords (topGroups (((0 : W64).toNat + 2 ^ 64 * (0 : W64).toNat) ||| s.dev.hi.keptTop)) seconds) = [] := by
      rw [htop, hsecond]; rfl
    simp only [hrings, Dev.heldRings_eq_nil hroom]
    have hkept := HostSt.noneKept htop hsecond (some s.dev.now)
    exact ((if_pos rfl).trans (Dev.emptyPoll_eq _)).trans (congrArg (fun h => Dev.emptyPoll { s.dev with hi := h }) hkept)
  · exact gives_when (b := fun d => d.polling && d.pollDue) rfl hgo rfl
  · exact gives_bar rfl hsees (hiCfgEffect_clear hoff d0)
  · exact gives_bar rfl hsees (hiCfgEffect_refused hon hbad)
  · refine gives_bar rfl hsees ?_
    rw [hiCfgEffect_starts hon hbase hstage hfail hwas]
    exact ⟨(congrArg (bitAt · 0) (Dev.rg_sf_ne _ _ _ _ (by decide))).trans (d0.gb_sb_self _ _ _ (by decide)), rfl, rfl⟩

/-! ## Fetching (R391 to R399) -/

/-- The registers once a descriptor of `n` slots has been fetched: SQ_HEAD, SEQ, what is in flight and the count of fetches. -/
def Dev.fetchMoves (d : Dev) (r n : Nat) : Dev :=
  let rb := aRING r
  let d := d.sf (rb + 0x28) 0 16 ((d.gf (rb + 0x28) 0 16 + n) % d.sqSize r)
  let d := d.wr (rb + 0x30) (d.rg (rb + 0x30) + BitVec.ofNat 32 n)
  (d.sf (rb + 0x34) 0 17 (d.gf (rb + 0x34) 0 17 + 1)).count aCNT_FETCH

section
variable (d : Dev) (r n : Nat)

theorem Dev.rg_fetchMoves_other {a : Nat} (hhead : a ≠ aRING r + 0x28) (hseq : a ≠ aRING r + 0x30) (hflight : a ≠ aRING r + 0x34) (hcount : a ≠ aCNT_FETCH) :
    (d.fetchMoves r n).rg a = d.rg a := by
  rw [Dev.fetchMoves, Dev.rg_count_ne _ hcount, Dev.rg_sf_ne _ _ _ _ hflight, Dev.rg_wr_ne _ _ hseq, Dev.rg_sf_ne _ _ _ _ hhead]

theorem Dev.gf_fetchMoves_head (hsize : d.gf (aRING r) 8 4 ≤ 12) :
    (d.fetchMoves r n).gf (aRING r + 0x28) 0 16 = (d.gf (aRING r + 0x28) 0 16 + n) % d.sqSize r := by
  have hpow : d.sqSize r ≤ 2 ^ 16 := Nat.pow_le_pow_right (by decide) (by omega)
  have hlt : (d.gf (aRING r + 0x28) 0 16 + n) % d.sqSize r < 2 ^ 16 := lt_of_lt_of_le (Nat.mod_lt _ (Nat.two_pow_pos _)) hpow
  rw [Dev.gf, Dev.fetchMoves, Dev.rg_count_ne _ (by unfold aRING aCNT_FETCH; omega), Dev.rg_sf_ne _ _ _ _ (by omega), Dev.rg_wr_ne _ _ (by omega)]
  exact (d.gf_sf_self _ _ _ _ (by decide)).trans (Nat.mod_eq_of_lt hlt)

theorem Dev.rg_fetchMoves_seq : (d.fetchMoves r n).rg (aRING r + 0x30) = d.rg (aRING r + 0x30) + BitVec.ofNat 32 n := by
  rw [Dev.fetchMoves, Dev.rg_count_ne _ (by unfold aRING aCNT_FETCH; omega), Dev.rg_sf_ne _ _ _ _ (by omega), Dev.rg_wr_self,
    Dev.rg_sf_ne _ _ _ _ (by omega)]

theorem Dev.gf_fetchMoves_flight (hroom : d.gf (aRING r + 0x34) 0 17 < 2 ^ 17 - 1) :
    (d.fetchMoves r n).gf (aRING r + 0x34) 0 17 = d.gf (aRING r + 0x34) 0 17 + 1 := by
  rw [Dev.gf, Dev.fetchMoves, Dev.rg_count_ne _ (by unfold aRING aCNT_FETCH; omega), Dev.rg_sf_self, fld_setf_self _ _ _ _ (by decide),
    Dev.gf, Dev.rg_wr_ne _ _ (by omega), Dev.rg_sf_ne _ _ _ _ (by omega)]
  exact Nat.mod_eq_of_lt (by unfold Dev.gf at hroom; omega)

end

/-- A device without a role in a pair, in service, turns no opcode away. -/
theorem Dev.turnsAway_eq_none {d : Dev} (hstage : d.stage = 5) (hrole : d.gf aTW_CFG 0 2 = 0) (op : Nat) (bytes : Bytes) : d.turnsAway op bytes = none := by
  simp [Dev.turnsAway, hstage, Dev.follower, Dev.syncBlocks, hrole]

theorem Dev.turnsAway_withHi (d : Dev) (h : HostSt) (op : Nat) (bytes : Bytes) : { d with hi := h }.turnsAway op bytes = d.turnsAway op bytes := rfl

/-- A fetched descriptor completes at once or waits to be judged (R398). -/
def Dev.takeUp (d : Dev) (ref : DescRef) (bs : Bytes) : Dev :=
  if !opKnown ref.op || bfld bs 1 2 6 != 0 then d.completeS ref stBAD_OPCODE
  else match d.turnsAway ref.op bs with
    | some st => d.completeS ref st
    | none => { d with hi := { d.hi with fetched := d.hi.fetched ++ [⟨ref, bs, d.now⟩] } }

theorem Dev.takeUp_waits {d : Dev} {ref : DescRef} {bs : Bytes} (hknown : opKnown ref.op = true) (hzero : bfld bs 1 2 6 = 0)
    (haway : d.turnsAway ref.op bs = none) :
    (d.takeUp ref bs).hi.fetched = d.hi.fetched ++ [⟨ref, bs, d.now⟩] ∧ ∀ a, (d.takeUp ref bs).rg a = d.rg a := by
  simp only [Dev.takeUp, hknown, hzero, haway]
  exact ⟨rfl, fun _ => rfl⟩

theorem Dev.rg_withHi (d : Dev) (h : HostSt) (a : Nat) : { d with hi := h }.rg a = d.rg a := rfl
theorem Dev.now_withHi (d : Dev) (h : HostSt) : { d with hi := h }.now = d.now := rfl
theorem Dev.now_fetchMoves (d : Dev) (r n : Nat) : (d.fetchMoves r n).now = d.now := by simp [Dev.now, Dev.fetchMoves]

/-- The ring may have its next descriptor, of `n` slots, fetched now (R391). -/
def Dev.mayFetch (d : Dev) (r n : Nat) : Prop :=
  d.live = true ∧ d.stage = 5 ∧ d.ringState r = 1 ∧ d.posted r ≠ 0 ∧ d.roomCq r = true ∧ d.servedNow r n = true

section
variable {d : Dev} {r n op : Nat} {bytes bs : Bytes} (hop : op = rdLE bytes 0 1) (hn : n = opSlots op) (hbs : bs = padTo (64 * n) bytes)
  (hmay : d.mayFetch r n)
include hop hn hbs hmay

theorem Dev.fetch_eq : d.fetch r bytes =
    if d.holdOf r bs ≠ 0 then { d with hi := { d.hi with blocked := mput 0 r (d.holdOf r bs) d.hi.blocked } }
    else if rdLE bs 4 4 ≠ (d.rg (aRING r + 0x30)).toNat then (d.stopRing r 1).report 8 2 0 0
    else
      Dev.takeUp { d.fetchMoves r n with hi := { d.hi with
          turnSlots := if d.hi.turn = r ∧ d.hi.turnSlots + n ≤ 8 then d.hi.turnSlots + n else n, turn := r,
          fetchNum := d.hi.fetchNum + 1, blocked := mput 0 r 0 d.hi.blocked } }
        ⟨r, d.gf (aRING r + 0x28) 0 16, op, bfld bs 1 1 1 == 1, d.hi.gen, d.hi.fetchNum + 1⟩ bs := by
  obtain ⟨hlive, hstage, hrun, hposted, hroom, hserved⟩ := hmay
  subst hop hn hbs
  have hgo : (!(d.live && (d.stage == 5 || d.stage == 6)) || d.ringState r != 1 || d.posted r == 0 || !d.roomCq r || !d.servedNow r (opSlots (rdLE bytes 0 1))) = false := by
    simp [hlive, hstage, hrun, hposted, hroom, hserved]
  rw [Dev.fetch]
  exact if_neg (ne_true_of_eq_false hgo)

theorem Dev.fetch_held (hheld : d.holdOf r bs ≠ 0) :
    d.fetch r bytes = { d with hi := { d.hi with blocked := mput 0 r (d.holdOf r bs) d.hi.blocked } } := by
  rw [Dev.fetch_eq hop hn hbs hmay, if_pos hheld]

theorem Dev.fetch_wrongSeq (hfree : d.holdOf r bs = 0) (hseq : rdLE bs 4 4 ≠ (d.rg (aRING r + 0x30)).toNat) :
    d.fetch r bytes = (d.stopRing r 1).report 8 2 0 0 := by
  rw [Dev.fetch_eq hop hn hbs hmay, if_neg (not_not.mpr hfree), if_pos hseq]

theorem Dev.fetch_known (hfree : d.holdOf r bs = 0) (hseq : rdLE bs 4 4 = (d.rg (aRING r + 0x30)).toNat) (hknown : opKnown op = true)
    (hzero : bfld bs 1 2 6 = 0) (hrole : d.gf aTW_CFG 0 2 = 0) (hr : r < 8192) :
    (d.fetch r bytes).hi.fetched = d.hi.fetched ++
      [⟨⟨r, d.gf (aRING r + 0x28) 0 16, op, bfld bs 1 1 1 == 1, d.hi.gen, d.hi.fetchNum + 1⟩, bs, d.now⟩] ∧
    ∀ a, (d.fetch r bytes).rg a = (d.fetchMoves r n).rg a := by
  have hfar {a : Nat} (ha : a < 0x400000) : (d.fetchMoves r n).rg a = d.rg a :=
    d.rg_fetchMoves_other r n (by unfold aRING; omega) (by unfold aRING; omega) (by unfold aRING; omega) (by unfold aCNT_FETCH; omega)
  have hst : (d.fetchMoves r n).stage = 5 := by rw [Dev.stage, Dev.gf, hfar (by decide)]; exact hmay.2.1
  have hro : (d.fetchMoves r n).gf aTW_CFG 0 2 = 0 := by rw [Dev.gf, hfar (by decide)]; exact hrole
  have haway (h : HostSt) : Dev.turnsAway { d.fetchMoves r n with hi := h } op bs = none :=
    (Dev.turnsAway_withHi _ h op bs).trans (Dev.turnsAway_eq_none hst hro op bs)
  rw [Dev.fetch_eq hop hn hbs hmay, if_neg (not_not.mpr hfree), if_neg (not_not.mpr hseq)]
  obtain ⟨hfetched, hregs⟩ := Dev.takeUp_waits (ref := ⟨r, d.gf (aRING r + 0x28) 0 16, op, bfld bs 1 1 1 == 1, d.hi.gen, d.hi.fetchNum + 1⟩)
    hknown hzero (haway _)
  refine ⟨hfetched.trans ?_, fun a => (hregs a).trans (Dev.rg_withHi _ _ a)⟩
  rw [Dev.now_withHi, Dev.now_fetchMoves]

end

/-- A fetch of a ring that the map has (R391). -/
theorem gives_fetch {s : State} {r : Nat} {bytes : Bytes} {P : Dev → Prop} (hr : r < 8192) (h : P (s.dev.fetch r bytes)) : Gives (.descriptorFetch r bytes) s P :=
  gives_dev (show exec (.descriptorFetch r bytes) s = execDescriptorFetch r bytes s from rfl) (by simpa [hr] using h)

/-- Settles O38: the branches of a fetch, by what holds the ring back, by SEQ and by the opcode. -/
theorem fetching : Obligations.Fetching := by
  refine fun s r bytes bs f d0 => ⟨fun htake => ?_, fun hr hlive hstage hrun hposted hroom hsize hserved hbs => ?_⟩
  · refine gives_dev (show exec (.nop r) s = execNop r s from rfl) ?_
    simp only [htake]
  · have hmay : s.dev.mayFetch r (opSlots (rdLE bytes 0 1)) := ⟨hlive, hstage, hrun, hposted, hroom, hserved⟩
    refine ⟨fun hheld => ?_, fun hfree => ⟨fun hseq => ?_, fun hseq hknown hzero hrole => ?_⟩⟩
    · exact gives_fetch hr (Dev.fetch_held rfl rfl hbs hmay hheld)
    · exact gives_fetch hr (Dev.fetch_wrongSeq rfl rfl hbs hmay hfree hseq)
    · obtain ⟨hfetched, hregs⟩ := Dev.fetch_known rfl rfl hbs hmay hfree hseq hknown hzero hrole hr
      refine gives_fetch hr ⟨hfetched, ?_, ?_, fun hcount => ?_, fun a hhead hnum hflight ha => ?_⟩
      · exact (congrArg (fld · 0 16) (hregs _)).trans (Dev.gf_fetchMoves_head _ _ _ hsize)
      · exact (hregs _).trans (Dev.rg_fetchMoves_seq ..)
      · exact (congrArg (fld · 0 17) (hregs _)).trans (Dev.gf_fetchMoves_flight _ _ _ hcount)
      · exact (hregs a).trans (Dev.rg_fetchMoves_other _ _ _ hhead hnum hflight ha)

/-! ## The control of a ring (R383, R386, R408) -/

/-- Each form that writes RING_CTRL does what its effect does on the value seen. -/
theorem yields_ringCtrl {s : State} {i : Instr} {r : Nat} {v w : W32} {d0 : Dev} {P : Dev → List Host.Cell → Prop} (hr : r < 8192)
    (hsees : s.dev.Sees (aRING r) v w d0) (hform : i = .ringEnable r v ∨ i = .ringDrain r v ∨ i = .ringAbort r v)
    (h : P (ringCtrlEffect r w d0 s.mem).1 (ringCtrlEffect r w d0 s.mem).2) : Yields i s P := by
  have hexec : exec i s = ringWrite r v s := by rcases hform with rfl | rfl | rfl <;> rfl
  obtain ⟨hsee, rfl⟩ := hsees
  refine yields_mem (hexec.trans (show ringWrite r v s = memStep _ s from rfl)) ?_
  simpa only [if_pos hr, hsee] using h

section
variable {r : Nat} {w : W32} {d : Dev} (m : List Host.Cell)

theorem ringCtrlEffect_refused (hbad : d.ringRefuses r w = true) : ringCtrlEffect r w d m = (d.sb aHI_STAT 0 true, m) := if_pos hbad

theorem ringCtrlEffect_off (hok : d.ringRefuses r w = false) (hoff : d.ringState r = 0) :
    ringCtrlEffect r w d m = (if bitAt w 0 then (Dev.plainWrite (aRING r) w d).ringStart r else Dev.plainWrite (aRING r) w d, m) :=
  (if_neg (ne_true_of_eq_false hok)).trans (if_pos hoff)

theorem ringCtrlEffect_drain (hok : d.ringRefuses r w = false) (hrun : d.ringState r = 1) (hclear : bitAt w 0 = false) :
    ringCtrlEffect r w d m = ((Dev.plainWrite (aRING r) w d).sf (aRING r + 4) 0 2
      (if (Dev.plainWrite (aRING r) w d).gf (aRING r + 0x34) 0 17 = 0 then 0 else 2), m) := by
  simp [ringCtrlEffect, hok, hrun, hclear]

theorem ringCtrlEffect_draining (hok : d.ringRefuses r w = false) (hdrain : d.ringState r = 2) :
    ringCtrlEffect r w d m =
      if bitAt w 3 then ((Dev.plainWrite (aRING r) w d).sb (aRING r) 0 false).abortDesc m (fun x => x.ring == r && x.gen == d.hi.gen)
      else ((Dev.plainWrite (aRING r) w d).sb (aRING r) 0 false, m) := by
  simp [ringCtrlEffect, hok, hdrain]

end

/-- Settles O39: a write of RING_CTRL by the state of its ring. -/
theorem ringControl : Obligations.RingControl := by
  refine fun s r v w d0 i hr hsees hform => ⟨fun hbad => ?_, fun hoff hok _ => ?_, fun hrun hok hclear => ?_, fun hdrain hok => ?_⟩
  · exact yields_ringCtrl hr hsees hform (by rw [ringCtrlEffect_refused s.mem hbad]; exact ⟨rfl, rfl⟩)
  · exact yields_ringCtrl hr hsees hform (by rw [ringCtrlEffect_off s.mem hok hoff]; exact ⟨rfl, rfl⟩)
  · exact yields_ringCtrl hr hsees hform (by rw [ringCtrlEffect_drain s.mem hok hrun hclear]; exact ⟨rfl, rfl⟩)
  · refine yields_ringCtrl hr hsees hform ?_
    rw [Dev.hi_plainWrite]
    exact ringCtrlEffect_draining s.mem hok hdrain

/-! ## Failed host reads, the reset of the function, interrupt vectors (R381, R382, R406) -/

theorem mget?_append {V : Type} (k : Nat) (m n : SMap V) : mget? k (m ++ n) = (mget? k m).or (mget? k n) := by
  induction m with
  | nil => rfl
  | cons e m ih =>
    simp only [List.cons_append, mget?]
    split
    · rfl
    · exact ih

/-- A list cut by its keys reads as before at a key that stays. -/
theorem mget?_filter_of_true {V : Type} {p : Nat → Bool} {k : Nat} (hk : p k = true) (m : SMap V) :
    mget? k (m.filter (fun e => p e.1)) = mget? k m := by
  induction m with
  | nil => rfl
  | cons e m ih =>
    by_cases he : e.1 = k
    · simp [mget?, he, hk]
    · cases hp : p e.1 <;> simp [mget?, he, hp, ih]

/-- It lists nothing at a key that is cut. -/
theorem mget?_filter_of_false {V : Type} {p : Nat → Bool} {k : Nat} (hk : p k = false) (m : SMap V) : mget? k (m.filter (fun e => p e.1)) = none := by
  induction m with
  | nil => rfl
  | cons e m ih =>
    cases hp : p e.1
    · simp [hp, ih]
    · have he : e.1 ≠ k := fun h => by simp [h, hk] at hp
      simp [mget?, he, hp, ih]

/-- A list of one value at several keys. -/
theorem mget?_map_const {V : Type} (k : Nat) (x : V) (ks : List Nat) (f : Nat → Nat) :
    mget? k (ks.map (fun r => (f r, x))) = if k ∈ ks.map f then some x else none := by
  induction ks with
  | nil => rfl
  | cons r ks ih =>
    by_cases hr : f r = k
    · simp [mget?, hr]
    · simp [mget?, hr, Ne.symm hr, ih]

/-- A reset of the function leaves the registers outside the host interface (R381). -/
theorem mget?_flrRegs_outside (regs : SMap W32) {a : Nat} (ha : a < 0x400000 ∨ 0x600000 ≤ a) : mget? a (flrRegs regs) = mget? a regs := by
  have hstat : mget? a [(aHI_STAT, (4 : W32))] = none := if_neg (by unfold aHI_STAT; omega)
  have hring : mget? a ((List.range 8192).map (fun r => (aRING r + 4, (0x40 : W32)))) = none :=
    (mget?_map_const a _ _ fun r => aRING r + 4).trans (if_neg (by simp only [List.mem_map, List.mem_range, aRING]; omega))
  simp only [flrRegs, mget?_append, hstat, hring, Option.or_none]
  rcases ha with ha | ha
  · rw [mget?_filter_of_true (p := fun k => decide (k < 0x400000)) (decide_eq_true ha),
      mget?_filter_of_false (p := fun k => decide (0x600000 ≤ k)) (decide_eq_false (by omega)), Option.or_none]
  · rw [mget?_filter_of_false (p := fun k => decide (k < 0x400000)) (decide_eq_false (by omega)),
      mget?_filter_of_true (p := fun k => decide (0x600000 ≤ k)) (decide_eq_true ha), Option.none_or]

/-- HI_STAT says that a reset of the function was seen. -/
theorem mget?_flrRegs_stat (regs : SMap W32) : mget? aHI_STAT (flrRegs regs) = some 4 := by
  simp only [flrRegs, mget?_append]
  rw [mget?_filter_of_false (p := fun k => decide (k < 0x400000)) (by decide)]
  rfl

/-- Each ring is OFF with cause 4. -/
theorem mget?_flrRegs_ring (regs : SMap W32) {k : Nat} (hk : k < 8192) : mget? (aRING k + 4) (flrRegs regs) = some 0x40 := by
  have hstat : mget? (aRING k + 4) [(aHI_STAT, (4 : W32))] = none := if_neg (by unfold aHI_STAT aRING; omega)
  have hring : mget? (aRING k + 4) ((List.range 8192).map (fun r => (aRING r + 4, (0x40 : W32)))) = some 0x40 :=
    (mget?_map_const _ _ _ fun r => aRING r + 4).trans (if_pos (List.mem_map.mpr ⟨k, List.mem_range.mpr hk, rfl⟩))
  simp only [flrRegs, mget?_append, hstat, hring]
  rw [mget?_filter_of_false (p := fun k => decide (k < 0x400000)) (decide_eq_false (by unfold aRING; omega))]
  rfl

/-- A masked vector keeps its message; one that is unmasked sends it. -/
theorem Dev.unmask_idle {d : Dev} {vec : Nat} (h : mget false vec d.hi.pend = false) : d.unmask vec =
    { d with hi := { d.hi with masked := mput true vec false d.hi.masked, pend := mput false vec false d.hi.pend } } := by
  simp [Dev.unmask, h]

theorem Dev.unmask_pending {d : Dev} {vec : Nat} (h : mget false vec d.hi.pend = true) : d.unmask vec =
    { d with hi := { d.hi with masked := mput true vec false d.hi.masked, pend := mput false vec false d.hi.pend } }.emit (d.message vec) := by
  simp [Dev.unmask, h, Dev.sendVec, Dev.message, Dev.mxWord]

/-- Settles O40: failed reads, the reset of the function and vectors do what their rows say. -/
theorem resetsAndVectors : Obligations.ResetsAndVectors := by
  refine fun s r slot vec t hlive => ⟨fun hr hrun => ?_, fun hr => ?_, ?_, fun hvec => ⟨fun hidle => ?_, fun hpend => ?_⟩, fun hvec hstart htime hdue => ?_⟩
  · refine yields_mem (show exec (.hostReadError r none) s = execHostReadError r none s from rfl) ?_
    simp [hlive, hr, hrun, Dev.hostErr]
  · refine yields_mem (show exec (.hostReadError r (some slot)) s = execHostReadError r (some slot) s from rfl) ?_
    simp [hlive, hr]
  · refine yields_mem (show exec .functionLevelReset s = execFunctionLevelReset s from rfl) ?_
    simp only [hlive, Bool.not_true, Bool.false_eq_true, if_false]
    generalize s.dev.abortDesc s.mem (fun x => x.gen == s.dev.hi.gen) = aborted
    obtain ⟨d1, m⟩ := aborted
    have hout {d : Dev} {h : HostSt} {a : Nat} (ha : a ≠ aCTL_LOCK) :
        ({ d with regs := flrRegs d.regs, hi := h }.sb aCTL_LOCK 9 false).rg a = (mget? a (flrRegs d.regs)).getD (regReset a) := Dev.rg_sb_ne _ _ _ ha
    refine ⟨d1, rfl, rfl, Dev.gb_sb_self _ _ _ _ (by decide), ?_, fun k hk => ?_, fun a ha hlock => ?_⟩
    · rw [hout (by decide), mget?_flrRegs_stat]; rfl
    · rw [hout (by unfold aRING aCTL_LOCK; omega), mget?_flrRegs_ring _ hk]; rfl
    · rw [hout hlock, mget?_flrRegs_outside _ ha]; rfl
  · refine gives_when (show exec (.msixVectorUnmask vec) s = execMsixVectorUnmask vec s from rfl) (by rw [hlive, decide_eq_true hvec]; rfl) ?_
    rw [Dev.unmask_idle hidle]
    exact ⟨rfl, mget_mput_self true vec false s.dev.hi.masked, rfl⟩
  · refine gives_when (show exec (.msixVectorUnmask vec) s = execMsixVectorUnmask vec s from rfl) (by rw [hlive, decide_eq_true hvec]; rfl) ?_
    rw [Dev.unmask_pending hpend]
    exact ⟨rfl, mget_mput_self true vec false s.dev.hi.masked, mget_mput_self false vec false s.dev.hi.pend⟩
  · refine gives_dev (show exec (.msixModTimer vec) s = execMsixModTimer vec s from rfl) ?_
    have hgo : (s.dev.live && decide (vec < 2048) && s.dev.gf (aMX_MOD vec) 8 16 != 0 &&
        decide (Int.ofNat (s.dev.gf (aMX_MOD vec) 8 16 * 1024) ≤ s.dev.since t)) = true := by
      simp [hlive, hvec, hdue, Nat.ne_of_gt htime, -Int.ofNat_eq_natCast]
    simp only [hstart, hgo, Dev.when_true]

end Sys2Proof.Machine
end

section
/-! PROOF. The twin pair: O41, O42. -/

namespace Sys2Proof.Machine

/-! ## Batches (R424, R426, R429 to R432, R438) -/

theorem twCfgEffect_refused {w : W32} {d : Dev} (hreserved : fld w 0 2 ≠ 3) (hnew : fld w 0 2 ≠ d.twRole)
    (hstate : d.twState = 2 ∨ d.twState = 3 ∨ d.twState = 4 ∨ d.twState = 5) : twCfgEffect w d = d.sb aTW_STAT 9 true := by
  have hclosed : (d.twState == 0 || d.twState == 1 || d.twState == 6) = false := by
    rcases hstate with h | h | h | h <;> rw [h] <;> rfl
  simp [twCfgEffect, hreserved, hnew, hclosed]

section
variable {s : State} {p : Pkt} {d0 : Dev} {P : Dev → Prop}

/-- A TW_HELLO that a JOINING member takes joins it to the pair or says why not. -/
theorem gives_twHello_joining (htake : s.dev.takeTw 0xE7 = some (p, d0))
    (h : let d1 := d0.wrs aTW_PEER_SHAPE ((List.range 4).map (fun i => BitVec.ofNat 32 (rdLE p.body (4 * i) 4)))
      d1.twRole ≠ 0 ∧ d1.twState = 1 ∧ P (if d1.helloCause p.body = 0 then (d1.setTw 2).sf aTW_STAT 3 3 0 else d1.sf aTW_STAT 3 3 (d1.helloCause p.body))) :
    Gives .twHello s P := by
  obtain ⟨hrole, hstate, hP⟩ := h
  refine gives_dev (show exec .twHello s = execTwHello s from rfl) ?_
  simp only [htake, hrole, hstate, if_false, if_true, Nat.reduceEqDiff, false_and]
  exact hP

/-- A follower holds a change whose last packet has come. -/
theorem yields_twStage {P : Dev → List Host.Cell → Prop} (htake : s.dev.takeTw 0xE8 = some (p, d0)) (hfollow : d0.follower = true)
    (hjoined : d0.twJoined = true) (hlast : p.arg0 = 0) (hstart : Change.ofBytes (d0.tw.partIn ++ p.body) ≠ .start)
    (h : P ({ d0 with tw := { d0.tw with staged := d0.tw.staged ++ [Change.ofBytes (d0.tw.partIn ++ p.body)], partIn := [] } }).noteStale s.mem) :
    Yields .twStage s P := by
  refine yields_mem (show exec .twStage s = execTwStage s from rfl) ?_
  simp only [htake, hfollow, hjoined, hlast, hstart]
  exact h

/-- A follower that finds count and chain of a batch as it holds them answers READY. -/
theorem gives_twPrep (htake : s.dev.takeTw 0xE9 = some (p, d0)) (hfollow : d0.follower = true) (hjoined : d0.twJoined = true)
    (hfree : d0.cmpFree 1 1 = true) (hcount : p.arg0 / 2 ^ 32 = d0.tw.staged.length) (hchain : p.arg1 = crcChain d0.tw.staged)
    (h : P ((({ d0 with tw := { d0.tw with prep := some ⟨p.arg0 % 2 ^ 32, p.arg0 / 2 ^ 32, false, none⟩ } }).takeCmp 1
      (BitVec.ofNat 64 (rdLE p.body 0 8)) none (.twinCommit (p.arg0 % 2 ^ 32))).twPkt 2 0xEA 0 (p.arg0 % 2 ^ 32) 0 [])) : Gives .twPrep s P := by
  have hfree' (y : TwinSt) : ({ d0 with tw := y } : Dev).cmpFree 1 1 = true := hfree
  have hcount' : (p.arg0 / 2 ^ 32 != d0.tw.staged.length) = false := bne_eq_false_iff_eq.mpr hcount
  have hchain' : (p.arg1 != crcChain d0.tw.staged) = false := bne_eq_false_iff_eq.mpr hchain
  refine gives_dev (show exec .twPrep s = execTwPrep s from rfl) ?_
  simp only [htake, hfollow, hjoined, hcount', hchain', hfree, hfree', Bool.or_self, Bool.and_self, Bool.not_true, Bool.false_eq_true, if_false, if_true,
    false_and]
  exact h

/-- The lead answers the first TW_READY of its batch with TW_GO. -/
theorem gives_twReady {b : TwBatch} (htake : s.dev.takeTw 0xEA = some (p, d0)) (hbatch : d0.tw.batch = some b) (hlead : d0.lead = true)
    (hnum : p.arg0 % 2 ^ 32 = b.num) (hready : b.ready = none) (hgo : b.go = none)
    (h : let b1 := { b with ready := some (p.arg0.testBit 32) }
      let d1 := { d0 with tw := { d0.tw with batch := some b1 } }
      P (d1.sendGo b1 (!p.arg0.testBit 32 && decide (0 < d1.ahead (d1.goBy b1))))) : Gives .twReady s P := by
  have hfits : ¬ (!d0.lead ∨ p.arg0 % 2 ^ 32 ≠ b.num ∨ b.ready.isSome) := by simp [hlead, hnum, hready, -Nat.reducePow]
  have hopen : b.go.isSome = false := by rw [hgo]; rfl
  refine gives_dev (show exec .twReady s = execTwReady s from rfl) ?_
  simp only [htake, hbatch, if_neg hfits, hopen, Bool.false_eq_true, if_false]
  exact h

end

/-- Settles O41: each packet and each descriptor of the pair takes the branch that its clause names. -/
theorem twinBatches : Obligations.TwinBatches := by
  refine fun s r v w p d0 f b y t hlive => ⟨fun hsees hreserved hnew hstate => gives_bar rfl hsees (twCfgEffect_refused hreserved hnew hstate),
    fun htake hrole hstate => gives_twHello_joining htake ⟨hrole, hstate, rfl⟩,
    fun htake hfollow hjoined hlast hstart => yields_twStage htake hfollow hjoined hlast hstart ⟨rfl, rfl⟩,
    fun htake hfollow hjoined hfree hcount hchain => gives_twPrep htake hfollow hjoined hfree hcount hchain rfl,
    fun htake hbatch hlead hnum hready hgo => gives_twReady htake hbatch hlead hnum hready hgo rfl,
    fun htake hprep hfollow hnum => ?_, fun hbatch hgo hlate => ?_, fun ⟨htake, hmode⟩ => ⟨fun hbad => ?_, fun hlead hstate hbatch => ⟨fun hnone => ?_,
    fun hsome hstrike => ?_⟩⟩, fun ⟨htake, hmode⟩ hlead hstate hbatch hbusy hstrike => ?_,
    fun ⟨htake, hmode⟩ hfollow hstate hstale hlost hpromote hstrike => ?_⟩
  · refine gives_dev (show exec .twGo s = execTwGo s from rfl) ?_
    simp only [htake, hprep, hfollow, hnum, and_self, if_true]
  · refine gives_dev (show exec .twinGoDeadline s = execTwinGoDeadline s from rfl) ?_
    simp only [hlive, if_true, hbatch, hgo, Option.isNone_none, Bool.true_and, decide_eq_true hlate]
  · refine gives_dev (show exec (.twinCommit r) s = execTwinCommit r s from rfl) ?_
    have hconflict : !d0.lead ∨ d0.twState ≠ 4 ∨ d0.tw.batch.isSome := by simpa using hbad
    simp only [htake, hmode, ne_eq, not_true_eq_false, if_false, if_pos hconflict]
  · refine gives_dev (show exec (.twinCommit r) s = execTwinCommit r s from rfl) ?_
    simp [htake, hmode, hlead, hstate, hbatch, hnone]
  · refine gives_dev (show exec (.twinCommit r) s = execTwinCommit r s from rfl) ?_
    simp [htake, hmode, hlead, hstate, hbatch, hsome, hstrike]
  · refine gives_dev (show exec (.twinSync r) s = execTwinSync r s from rfl) ?_
    simp [htake, hmode, hlead, hstate, hbatch, hbusy, hstrike]
  · refine gives_dev (show exec (.twinPromote r) s = execTwinPromote r s from rfl) ?_
    simp [htake, hmode, hfollow, hstate, hstale, hlost, hpromote, hstrike]

/-! ## Updates kept by recomputation (R433 to R436) -/

section
variable {s : State} {p : Pkt} {d0 : Dev} {o : ClOp} {x : Grp} {P : Dev → Prop}

/-- The update that a TW_OP brings, sized for its group and launched. -/
def Dev.twUpdate (d : Dev) (p : Pkt) (x : Grp) : ClOp :=
  { d.sizeOp x { ClOp.of (d.twFetched p) with group := p.group, opseq := p.arg1 } d.now with granted := true, launched := true, need := 0, ctx := 0 }

/-- The device once the update of a TW_OP runs. -/
def Dev.twLaunch (d : Dev) (p : Pkt) (o : ClOp) (k : Strike) : Dev :=
  let d1 := { d with cl := { d.cl with ops := d.cl.ops ++ [o] } }
  let d2 := (d1.subFree aUP_POOL_FREE (fun k => o.claims.getD k 0)).noteClaim o.set
  ((d2.armStrike 1 k (.commit p.group p.arg1) (d.twFetched p).ref.num).sb (aUP_SET o.set) 3 true).updLaunch p.group p.arg1

section
variable (htake : s.dev.takeTw 0xEC = some (p, d0)) (hfollow : d0.follower = true) (hstate : d0.twState = 4) (hnew : d0.op? p.group p.arg1 = none)
include htake hfollow hstate hnew

theorem gives_twOp_noGroup (hgrp : d0.grp? p.group = none) (h : P ((d0.setTw 2).twPkt 2 0xEE p.group 2 p.arg1 (toLE 16 0))) : Gives .twOp s P := by
  refine gives_dev (show exec .twOp s = execTwOp s from rfl) ?_
  have htakes : ¬ (!d0.follower ∨ d0.twState ≠ 4 ∨ (d0.op? p.group p.arg1).isSome) := by simp [hfollow, hstate, hnew]
  simpa only [htake, if_neg htakes, hgrp] using h

theorem gives_twOp_runs {k : Strike} (hgrp : d0.grp? p.group = some x) (hcan : d0.twCan (d0.twUpdate p x) = true)
    (hcommit : d0.twCommit (d0.twUpdate p x) = some k) (h : P ((d0.twLaunch p (d0.twUpdate p x) k).twAnswer p.group p.arg1)) : Gives .twOp s P := by
  refine gives_dev (show exec .twOp s = execTwOp s from rfl) ?_
  have htakes : ¬ (!d0.follower ∨ d0.twState ≠ 4 ∨ (d0.op? p.group p.arg1).isSome) := by simp [hfollow, hstate, hnew]
  have hstrike : (if d0.twCan (d0.twUpdate p x) then d0.twCommit (d0.twUpdate p x) else none) = some k := by rw [if_pos hcan, hcommit]
  unfold Dev.twUpdate at hstrike
  simp only [htake, if_neg htakes, hgrp, hstrike]
  exact h

end

section
variable (htake : s.dev.takeTw 0xED = some (p, d0)) (hfollow : d0.follower = true) (hop : d0.op? p.group p.arg1 = some o)
  (hgrp : d0.grp? p.group = some x)
include htake hfollow hop hgrp

theorem gives_twPiece_otherFormat (hformat : p.format ≠ accOf o.inFmt) (h : P (d0.report 4 7 0 0)) : Gives .twPiece s P := by
  refine gives_dev (show exec .twPiece s = execTwPiece s from rfl) ?_
  simpa only [htake, hfollow, if_true, hop, hgrp, if_pos hformat] using h

theorem gives_twPiece_applied (hformat : p.format = accOf o.inFmt) (hpiece : p.arg0 % 2 ^ 32 < o.pieces_ x.nmemb) (hnew : p.arg0 % 2 ^ 32 ∉ o.updated)
    (hbench : o.benched.any (fun b => b.1 == p.arg0 % 2 ^ 32) = false)
    (h : let gr := d0.gradOf o (p.arg0 % 2 ^ 32) (unpackTensor (accOf o.inFmt) (o.len x.nmemb (p.arg0 % 2 ^ 32)) p.body)
      let d1 := d0.modOp o.group o.opseq (fun o => { o with ieee := o.ieee ||| gr.2.1.ieee, flags := if gr.2.1.ovf then o.flags ||| 8 else o.flags })
      P ((d1.updPiece o.group o.opseq (p.arg0 % 2 ^ 32) 0 gr.1).twAnswer o.group o.opseq)) : Gives .twPiece s P := by
  refine gives_dev (show exec .twPiece s = execTwPiece s from rfl) ?_
  have hfits : ¬ (o.pieces_ x.nmemb ≤ p.arg0 % 2 ^ 32 ∨ o.updated.contains (p.arg0 % 2 ^ 32) ∨ o.benched.any (fun b => b.1 == p.arg0 % 2 ^ 32)) := by
    rintro (hle | hin | hany)
    · omega
    · exact hnew (List.contains_iff_mem.mp hin)
    · rw [hbench] at hany; cases hany
  simp only [htake, hfollow, if_true, hop, hgrp, if_neg (not_not.mpr hformat), if_neg hfits]
  exact h

end

/-- The lead takes the answer of its follower to an update that it compares. -/
theorem gives_twHall (htake : s.dev.takeTw 0xEE = some (p, d0)) (hlead : d0.lead = true) (hop : d0.op? p.group p.arg1 = some o)
    (hcompare : o.twin.compare = true) (hopen : o.twin.settled = false) (hanswer : o.twin.answer = none)
    (h : P (if p.arg0.testBit 1 then (d0.twAlone o.group o.opseq false).opPoll o.group o.opseq
      else (d0.modOp o.group o.opseq (fun o => { o with twin :=
        { o.twin with answer := some (rdLE p.body 0 16, p.arg0.testBit 0, false) } })).opPoll o.group o.opseq)) : Gives .twHall s P := by
  refine gives_dev (show exec .twHall s = execTwHall s from rfl) ?_
  have hwaits : ¬ (!o.twin.compare ∨ o.twin.settled ∨ o.twin.answer.isSome) := by simp [hcompare, hopen, hanswer]
  simp only [htake, hlead, if_true, hop, if_neg hwaits]
  exact h

/-- A follower that still holds the operation carries a decision out. -/
theorem gives_twDecide (htake : s.dev.takeTw 0xEF = some (p, d0)) (hfollow : d0.follower = true) (hop : d0.op? p.group p.arg1 = some o)
    (h : P (match nfld p.arg0 0 2 with
      | 0 => match nfld p.arg0 2 2 with
        | 0 => d0.modOp o.group o.opseq (fun o => { o with twin := { o.twin with settled := true } })
        | 1 => (d0.twDrop o.group o.opseq).yield_
        | 2 => (d0.twDrop o.group o.opseq).solo 5
        | _ => if !p.body.isEmpty ∧ (d0.twDrop o.group o.opseq).twJoined then (d0.twDrop o.group o.opseq).setTw 2 else d0.twDrop o.group o.opseq
      | 1 => d0.updHear o { Wave.zero with vote := nfld p.arg0 2 2 % 2 }
      | _ => d0)) : Gives .twDecide s P := by
  refine gives_dev (show exec .twDecide s = execTwDecide s from rfl) ?_
  simp only [htake, hfollow, if_true, hop]
  exact h

end

/-- Settles O42: a follower launches, answers and obeys, the lead hears it or goes on alone. -/
theorem twinRecomputes : Obligations.TwinRecomputes := by
  refine fun s p d0 o x k g q t hlive => ⟨fun htake hfollow hstate hnew => ⟨fun hgrp => gives_twOp_noGroup htake hfollow hstate hnew hgrp rfl,
      fun hgrp hcan hcommit => gives_twOp_runs htake hfollow hstate hnew hgrp hcan hcommit rfl⟩,
    fun htake hfollow hop hgrp hformat => gives_twPiece_otherFormat htake hfollow hop hgrp hformat rfl,
    fun htake hfollow hop hgrp hformat hpiece hnew hbench => gives_twPiece_applied htake hfollow hop hgrp hformat hpiece hnew hbench rfl,
    fun htake hlead hop hcompare hopen hanswer => ⟨fun hcannot => gives_twHall htake hlead hop hcompare hopen hanswer (if_pos hcannot),
      fun hcan => gives_twHall htake hlead hop hcompare hopen hanswer (if_neg (ne_true_of_eq_false hcan))⟩,
    fun hlead hop hwait hopen hanswer hdue => ?_,
    fun htake hfollow hop => ⟨fun harg => ?_, fun harg => ?_, fun harg => ?_, fun harg hbody => ?_, fun harg => ?_⟩⟩
  · refine gives_dev (show exec (.twinHallTimeout g q) s = execTwinHallTimeout g q s from rfl) ?_
    have hlate : ¬ (o.twin.settled ∨ o.twin.answer.isSome ∨ s.dev.since t < Int.ofNat (orOne (s.dev.gf aTW_CFG 16 16) * 4096)) := by
      simp [hopen, hanswer, not_lt.mpr hdue, -Int.ofNat_eq_natCast]
    simp only [hlive, hlead, Bool.and_self, if_true, hop, hwait, if_neg hlate]
  all_goals refine gives_twDecide htake hfollow hop ?_; rw [harg]
  · rfl
  · rfl
  · rfl
  · exact if_neg (by simp [hbody])
  · rfl

end Sys2Proof.Machine
end

section
/-! PROOF. The Deputy, units that fail, heat and voltage: O43, O44. -/

namespace Sys2Proof.Machine

/-! ## The Deputy's commands and faults of units (R16, R443, R454, R458, R470, R509) -/

/-- With no rail outside its window nothing is noted of the rails. -/
theorem railsOutside_eq_nil {d : Dev} {mv : List Nat} (h : ∀ i, i < 9 → ∀ m, mv[i]? = some m → d.railOk i m = true) :
    (List.range 9).filter (fun i => (mv[i]?).any (fun m => !d.railOk i m)) = [] := by
  rw [List.filter_eq_nil_iff]
  intro i hi
  cases hm : mv[i]? with
  | none => simp
  | some m => simp [h i (List.mem_range.mp hi) m hm]

/-- Settles O43: each command of the Deputy and each fault of a unit takes the branch of its clause. -/
theorem deputyAndUnits : Obligations.DeputyAndUnits := by
  refine ⟨fun s v w d0 site mv hlive => ⟨fun hsees => ?_, ?_, ?_, ?_, ?_, fun hearly => ?_, fun hdue hok => ?_⟩,
    fun s phys deck dom flow hlive => ⟨fun hphys hsound => ⟨?_, ?_⟩, fun hdeck => ⟨?_, ?_, ?_⟩, fun hlo hhi hbench hup hstands hfree => ?_, fun hpwr => ?_⟩⟩
  · refine gives_bar rfl hsees ?_
    simp [dpFenceClrEffect]
  · exact gives_when (b := Dev.live) (show exec .deputyWatchdogExpiry s = execDeputyWatchdogExpiry s from rfl) hlive rfl
  · exact gives_when (b := Dev.live) (show exec (.clockLockLoss site) s = execClockLockLoss site s from rfl) hlive rfl
  · exact gives_when (show exec (.codeDigestCheck true) s = execCodeDigestCheck true s from rfl) (by rw [hlive]; rfl) rfl
  · refine gives_dev (show exec (.codeDigestCheck false) s = execCodeDigestCheck false s from rfl) ?_
    simp
  · refine gives_dev (show exec (.railCheck mv) s = execRailCheck mv s from rfl) ?_
    have hsoon : ¬ 1000 ≤ s.dev.tm.cycle - s.dev.bt.railAt := by omega
    simp [hsoon]
  · refine gives_when (show exec (.railCheck mv) s = execRailCheck mv s from rfl) (by rw [hlive, decide_eq_true (by omega)]; rfl) ?_
    rw [railsOutside_eq_nil hok]
    rfl
  · refine gives_when (show exec (.sorterFault ⟨phys, false⟩) s = execSorterFault ⟨phys, false⟩ s from rfl)
      (by rw [hlive, decide_eq_true hphys, hsound]; rfl) rfl
  · refine gives_when (show exec (.sorterFault ⟨phys, true⟩) s = execSorterFault ⟨phys, true⟩ s from rfl)
      (by rw [hlive, decide_eq_true hphys, hsound]; rfl) rfl
  · exact gives_when (show exec (.switchTableError deck 0 (some flow)) s = execSwitchTableError deck 0 (some flow) s from rfl)
      (by rw [hlive, decide_eq_true hdeck]; rfl) rfl
  · exact gives_when (show exec (.switchTableError deck 1 (some flow)) s = execSwitchTableError deck 1 (some flow) s from rfl)
      (by rw [hlive, decide_eq_true hdeck]; rfl) rfl
  · exact gives_when (show exec (.switchTableError deck 2 (some flow)) s = execSwitchTableError deck 2 (some flow) s from rfl)
      (by rw [hlive, decide_eq_true hdeck]; rfl) rfl
  · refine yields_mem (show exec (.benchDomainPowerLoss dom) s = execBenchDomainPowerLoss dom s from rfl) ?_
    have hgo : (s.dev.live && decide (16 ≤ dom) && decide (dom < 96) && decide ((dom - 16) % 20 < 17) && s.dev.bt.domains.contains dom) = true := by
      rw [hlive, decide_eq_true hlo, decide_eq_true hhi, decide_eq_true hbench, hup]; rfl
    have hspare : (s.dev.benchLogical (34 * ((dom - 16) / 20) + 2 * ((dom - 16) % 20) + 1)).isNone = false := by
      rw [← Option.not_isSome, hstands]; rfl
    simp only [hgo, if_true, hspare, Bool.false_eq_true, if_false, List.foldl_cons, List.foldl_nil, hfree]
  · refine gives_when (b := fun d => d.bt.pwrGood) (show exec .pwrGoodFall s = execPwrGoodFall s from rfl) hpwr ?_
    exact if_pos hlive

/-! ## Heat, load and voltage (R459 to R464) -/

/-- Four temperatures as the bytes of DP_TEMP. -/
theorem leNat_temperatures {t0 t1 t2 t3 : Nat} (h0 : t0 < 256) (h1 : t1 < 256) (h2 : t2 < 256) (h3 : t3 < 256) :
    leNat (([t0, t1, t2, t3].map (BitVec.ofNat 8)).take 4) = t0 + 256 * t1 + 65536 * t2 + 16777216 * t3 := by
  simp only [List.map_cons, List.map_nil, List.take_succ_cons, List.take_zero, leNat, BitVec.toNat_ofNat]
  omega

theorem leNat_floors (f0 f1 : Nat) : leNat (([f0, f1].map (BitVec.ofNat 8)).take 2) = f0 % 256 + 256 * (f1 % 256) := by
  simp [leNat]

/-- No deck or floor above TRIP is reported of. -/
theorem foldl_noTrip (d : Dev) {trip : Nat} {temps : List Nat} (h : ∀ k, temps.getD k 0 ≤ trip) (ks : List Nat) :
    ks.foldl (fun d k => if trip < temps.getD k 0 then d.report 17 1 k 0 else d) d = d := by
  induction ks with
  | nil => rfl
  | cons k ks ih => rw [List.foldl_cons, if_neg (Nat.not_lt.mpr (h k)), ih]

/-- A deck's load sample (R460). -/
def Dev.sampleDeck (d : Dev) (k pct : Nat) : Dev :=
  let b := loadBand pct
  let x := d.deck k
  (d.sf aSU_STAT (8 * k) 2 b).setDeck k
    { x with band := some (min b (x.band.getD b)), spoilt := x.spoilt || d.inMaint k || x.therm != 0 || x.alarm != 0 }

theorem Dev.rg_sampleDeck_ne (d : Dev) (k pct : Nat) {a : Nat} (ha : a ≠ aSU_STAT) : (d.sampleDeck k pct).rg a = d.rg a := d.rg_sf_ne _ _ _ ha

theorem Dev.gf_sampleDeck_self (d : Dev) {k : Nat} (hk : k < 4) (pct : Nat) : (d.sampleDeck k pct).gf aSU_STAT (8 * k) 2 = loadBand pct := by
  have hband : loadBand pct < 2 ^ 2 := by unfold loadBand; split_ifs <;> decide
  exact (d.gf_sf_self aSU_STAT (8 * k) 2 _ (by omega)).trans (Nat.mod_eq_of_lt hband)

theorem Dev.gf_sampleDeck_other (d : Dev) {k j : Nat} (hk : k < 4) (hj : j ≠ k) (pct : Nat) :
    (d.sampleDeck k pct).gf aSU_STAT (8 * j) 2 = d.gf aSU_STAT (8 * j) 2 := d.gf_sf_other _ _ _ _ _ _ (by omega) (by omega)

/-- A deck's band stays while the decks after it are sampled. -/
theorem Dev.loadSample_bands (d : Dev) (l0 l1 l2 l3 : Nat) :
    let e := (((d.sampleDeck 0 l0).sampleDeck 1 l1).sampleDeck 2 l2).sampleDeck 3 l3
    e.gf aSU_STAT 0 2 = loadBand l0 ∧ e.gf aSU_STAT 8 2 = loadBand l1 ∧ e.gf aSU_STAT 16 2 = loadBand l2 ∧ e.gf aSU_STAT 24 2 = loadBand l3 := by
  have hnext (d : Dev) {k j : Nat} (hk : k < 4) (hj : j < k) (pct : Nat) := d.gf_sampleDeck_other hk (Nat.ne_of_lt hj) pct
  refine ⟨?_, ?_, ?_, Dev.gf_sampleDeck_self _ (k := 3) (by decide) l3⟩
  · exact (hnext _ (k := 3) (j := 0) (by decide) (by decide) _).trans ((hnext _ (k := 2) (j := 0) (by decide) (by decide) _).trans
      ((hnext _ (k := 1) (j := 0) (by decide) (by decide) _).trans (Dev.gf_sampleDeck_self _ (k := 0) (by decide) l0)))
  · exact (hnext _ (k := 3) (j := 1) (by decide) (by decide) _).trans ((hnext _ (k := 2) (j := 1) (by decide) (by decide) _).trans
      (Dev.gf_sampleDeck_self _ (k := 1) (by decide) l1))
  · exact (hnext _ (k := 3) (j := 2) (by decide) (by decide) _).trans (Dev.gf_sampleDeck_self _ (k := 2) (by decide) l2)

/-- A window that opens begins on each deck that it covers (R463). -/
def Dev.openOn (w : Nat) (t : W64) (d : Dev) (k : Nat) : Dev :=
  if d.gb (aSU_WIN w) (1 + k) then
    (d.setDeck k { d.deck k with spoilt := true, vddAt := t, codeWas := d.gf (aSU_VDD k) 0 8 }).endAlarm k
  else d

theorem Dev.windows_endAlarm (d : Dev) (k : Nat) : (d.endAlarm k).dp.windows = d.dp.windows := by
  simp only [Dev.endAlarm]
  split <;> rfl

theorem Dev.rg_endAlarm_ne (d : Dev) (k : Nat) {a : Nat} (ha : a ≠ aSU_STAT) : (d.endAlarm k).rg a = d.rg a := by
  simp only [Dev.endAlarm]
  split
  · exact Dev.rg_sb_ne _ _ _ ha
  · rfl

theorem Dev.windows_foldl_openOn (w : Nat) (t : W64) (d : Dev) (ks : List Nat) : (ks.foldl (Dev.openOn w t) d).dp.windows = d.dp.windows := by
  induction ks generalizing d with
  | nil => rfl
  | cons k ks ih =>
    have hstep : (Dev.openOn w t d k).dp.windows = d.dp.windows := by
      unfold Dev.openOn
      split
      · exact Dev.windows_endAlarm _ k
      · rfl
    rw [List.foldl_cons, ih, hstep]

/-- One step of a deck's voltage toward its plan (R463). -/
def Dev.vddToward (d : Dev) (k : Nat) : Dev :=
  let now := d.gf (aSU_VDD k) 0 8
  let plan := d.gf (aSU_VDD k) 8 8
  let d := d.sf (aSU_VDD k) 0 8 (if now < plan then now + 1 else now - 1)
  let d := d.setDeck k { d.deck k with vddAt := d.now, codeWas := now }
  let d := d.sb aSU_STAT (8 * k + 4) (d.gf (aSU_VDD k) 0 8 != plan)
  d.endAlarm k

theorem aSU_VDD_ne_stat {k : Nat} (hk : k < 4) : aSU_VDD k ≠ aSU_STAT := by unfold aSU_VDD aSU_STAT; omega

theorem Dev.rg_vddToward_ne_stat (d : Dev) (k : Nat) {a : Nat} (ha : a ≠ aSU_STAT) :
    (d.vddToward k).rg a = (d.sf (aSU_VDD k) 0 8 (if d.gf (aSU_VDD k) 0 8 < d.gf (aSU_VDD k) 8 8 then d.gf (aSU_VDD k) 0 8 + 1
      else d.gf (aSU_VDD k) 0 8 - 1)).rg a := (Dev.rg_endAlarm_ne _ k ha).trans (Dev.rg_sb_ne _ _ _ ha)

/-- Settles O44: temperatures, loads, measurements, windows, voltage steps and slack alarms do what their rows say. -/
theorem heatAndVoltage : Obligations.HeatAndVoltage := by
  refine fun s k w vreq cap t0 t1 t2 t3 f0 f1 c t hlive => ⟨fun h0 h1 h2 h3 => ?_, fun l0 l1 l2 l3 hdue => ?_, fun hk hdue b hband hclean => ?_,
    fun hk hdue hspoilt => ?_, fun hfind hfires => ?_, fun hopen hover => ?_, fun hk hwindow hplan hdue => ?_, fun hk => ?_⟩
  · refine gives_when (b := Dev.live) (show exec (.thermalThrottleStep [t0, t1, t2, t3] [f0, f1]) s =
      execThermalThrottleStep [t0, t1, t2, t3] [f0, f1] s from rfl) hlive ?_
    intro d1 d2 trip htrip hle0 hle1 hle2 hle3 hfloor0 hfloor1
    rw [leNat_temperatures h0 h1 h2 h3, leNat_floors]
    have hdecks : ∀ k, [t0, t1, t2, t3].getD k 0 ≤ trip := fun k => by
      match k with
      | 0 => exact hle0
      | 1 => exact hle1
      | 2 => exact hle2
      | 3 => exact hle3
      | k + 4 => exact Nat.zero_le _
    have hfloors : ∀ k, [f0, f1].getD k 0 ≤ trip := fun k => by
      match k with
      | 0 => exact hfloor0
      | 1 => exact hfloor1
      | k + 2 => exact Nat.zero_le _
    subst htrip
    exact (foldl_noTrip _ hfloors _).trans (foldl_noTrip _ hdecks _)
  · refine gives_when (show exec (.loadSample [l0, l1, l2, l3] []) s = execLoadSample [l0, l1, l2, l3] [] s from rfl)
      (by rw [hlive, decide_eq_true hdue]; rfl) ?_
    obtain ⟨hb0, hb1, hb2, hb3⟩ := Dev.loadSample_bands { s.dev with dp := { s.dev.dp with loadAt := s.dev.now } } l0 l1 l2 l3
    refine ⟨rfl, hb0, hb1, hb2, hb3, fun a ha => ?_⟩
    exact (Dev.rg_sampleDeck_ne _ 3 l3 ha).trans ((Dev.rg_sampleDeck_ne _ 2 l2 ha).trans ((Dev.rg_sampleDeck_ne _ 1 l1 ha).trans
      (Dev.rg_sampleDeck_ne _ 0 l0 ha)))
  · refine gives_dev (show exec (.surveyorMeasurement k vreq cap) s = execSurveyorMeasurement k vreq cap s from rfl) ?_
    have hgo : (s.dev.live && decide (k < 4) && decide (2 ^ 24 ≤ s.dev.since (s.dev.deck k).measAt)) = true := by
      rw [hlive, decide_eq_true hk, decide_eq_true hdue]; rfl
    simp only [hgo, Dev.when_true, hclean, Bool.false_eq_true, if_false, hband]
    refine ⟨_, ?_, ?_, ?_, rfl⟩ <;> rfl
  · refine gives_dev (show exec (.surveyorMeasurement k vreq cap) s = execSurveyorMeasurement k vreq cap s from rfl) ?_
    have hgo : (s.dev.live && decide (k < 4) && decide (2 ^ 24 ≤ s.dev.since (s.dev.deck k).measAt)) = true := by
      rw [hlive, decide_eq_true hk, decide_eq_true hdue]; rfl
    simp only [hgo, Dev.when_true, hspoilt, if_true]
    refine ⟨_, ?_, ?_, ?_, rfl⟩ <;> rfl
  · refine gives_dev (show exec (.maintWindowOpen w) s = execMaintWindowOpen w s from rfl) ?_
    have hgo : (s.dev.live && (s.dev.fires c.id).isSome) = true := by rw [hlive, hfires]; rfl
    simp only [hfind, hgo, Dev.when_true]
    exact (congrArg (mget none w) (Dev.windows_foldl_openOn w c.time _ _)).trans (mget_mput_self none w (some c.time) _)
  · refine gives_dev (show exec (.maintWindowClose w) s = execMaintWindowClose w s from rfl) ?_
    simp only [hopen, hlive, decide_eq_true hover, Bool.and_self, Dev.when_true]
  · have hgo : (s.dev.live && decide (k < 4) && s.dev.inMaint k && s.dev.gf (aSU_VDD k) 0 8 != s.dev.gf (aSU_VDD k) 8 8 &&
        decide (4096 ≤ s.dev.since (s.dev.deck k).vddAt)) = true := by
      simp [hlive, hk, hwindow, hplan, hdue]
    refine gives_dev (show exec (.vddStep k) s = execVddStep k s from rfl) ?_
    simp only [hgo, Dev.when_true]
    have hrg {a : Nat} (ha : a ≠ aSU_STAT) := s.dev.rg_vddToward_ne_stat k ha
    have hnow : s.dev.gf (aSU_VDD k) 0 8 < 2 ^ 8 := s.dev.gf_lt _ _ _
    have hgoal : s.dev.gf (aSU_VDD k) 8 8 < 2 ^ 8 := s.dev.gf_lt _ _ _
    refine ⟨?_, ?_, fun a ha hstat => (hrg hstat).trans (Dev.rg_sf_ne _ _ _ _ ha)⟩
    · refine (congrArg (fld · 0 8) (hrg (aSU_VDD_ne_stat hk))).trans ((Dev.gf_sf_self _ _ _ _ _ (by decide)).trans (Nat.mod_eq_of_lt ?_))
      split <;> omega
    · exact (congrArg (fld · 8 24) (hrg (aSU_VDD_ne_stat hk))).trans (Dev.gf_sf_other _ _ _ _ _ _ _ (by decide) (by decide))
  · exact gives_when (show exec (.slackAlarm k) s = execSlackAlarm k s from rfl) (by rw [hlive, decide_eq_true hk]; rfl) rfl

end Sys2Proof.Machine
end

section
/-! PROOF. Reset, boot, firmware and attestation: O45, O46. -/

namespace Sys2Proof.Machine

/-! ## Reset and supplies (R453, R470 to R473) -/

/-- A device in reset keeps the hours and has every other register at its reset value. -/
theorem Dev.rg_inReset_hours (d : Dev) : d.inReset.rg aSU_HOURS = d.rg aSU_HOURS := by
  have hzero : regReset aSU_HOURS = 0 := by decide
  show mget (regReset aSU_HOURS) aSU_HOURS (mput 0 aSU_HOURS (d.rg aSU_HOURS) []) = d.rg aSU_HOURS
  rw [hzero, mget_mput_self]

theorem Dev.rg_inReset_ne (d : Dev) {a : Nat} (ha : a ≠ aSU_HOURS) : d.inReset.rg a = regReset a :=
  mget_mput_ne (0 : W32) (regReset a) (d.rg aSU_HOURS) [] ha

/-- The code that each deck is driven with at reset (R508). -/
theorem fld_regReset_vdd {k : Nat} (hk : k < 4) : fld (regReset (aSU_VDD k)) 0 8 = 0x18 := by interval_cases k <;> decide

/-! ## The stages of boot (R474, R476, R479, R481) -/

/-- Without kept fences no Smelter and no sorter is fenced in stage UNITS (R458). -/
theorem Dev.applyUnits_eq {d : Dev} {k : Nat} (hk : k < 4) (hS : d.dp.keptS = []) (hSort : d.dp.keptSort = [])
    (hfree : ∀ p, p < 68 → d.smFenced p = false ∧ d.sorterFenced p = false) : (d.applySmelters k).applySorters k = d := by
  have hspare : d.smFenced (17 * k + 16) = false := (hfree _ (by omega)).1
  have hnone : (List.range 16).find? (fun i => d.smFenced (17 * k + i)) = none := by
    rw [List.find?_eq_none]
    intro i hi
    rw [(hfree (17 * k + i) (by have := List.mem_range.mp hi; omega)).1]
    exact Bool.false_ne_true
  have hsort : (List.range 16).filter (fun i => d.sorterFenced (17 * k + i)) = [] := by
    rw [List.filter_eq_nil_iff]
    intro i hi
    rw [(hfree (17 * k + i) (by have := List.mem_range.mp hi; omega)).2]
    exact Bool.false_ne_true
  have hsm : d.applySmelters k = d := by simp [Dev.applySmelters, hS, hspare, hnone]
  rw [hsm]
  simp [Dev.applySorters, hSort, hsort]

theorem Dev.foldl_applyUnits_eq {d : Dev} (hS : d.dp.keptS = []) (hSort : d.dp.keptSort = [])
    (hfree : ∀ p, p < 68 → d.smFenced p = false ∧ d.sorterFenced p = false) :
    (List.range 4).foldl (fun d k => (d.applySmelters k).applySorters k) d = d := by
  have hfix (k : Nat) (hk : k < 4) := Dev.applyUnits_eq hk hS hSort hfree
  show ((((((((d.applySmelters 0).applySorters 0).applySmelters 1).applySorters 1).applySmelters 2).applySorters 2).applySmelters 3).applySorters 3) = d
  rw [hfix 0 (by decide), hfix 1 (by decide), hfix 2 (by decide), hfix 3 (by decide)]

/-- The spares that retired pages leave of a stack (R365). -/
def Dev.spares (d : Dev) (k : Nat) : Dev :=
  let n := (d.me.retired.filter (fun x => x.1 == k)).length
  (d.sf (aMEM_SPARE k) 0 10 (512 - n)).sf (aMEM_SPARE k) 16 16 n

theorem Dev.rg_foldl_spares {a : Nat} (ks : List Nat) (d : Dev) (ha : ∀ k ∈ ks, a ≠ aMEM_SPARE k) : (ks.foldl Dev.spares d).rg a = d.rg a := by
  induction ks generalizing d with
  | nil => rfl
  | cons k ks ih =>
    have hk : a ≠ aMEM_SPARE k := ha k (List.mem_cons_self ..)
    rw [List.foldl_cons, ih _ fun j hj => ha j (List.mem_cons_of_mem _ hj)]
    exact (Dev.rg_sf_ne _ _ _ _ hk).trans (d.rg_sf_ne _ _ _ hk)

/-- The last stage of boot leaves memory zero and starts CANARY on the device whose retired pages are replaced. -/
theorem yields_memoryStageDone {s : State} (hlive : s.dev.live = true) (hstage : s.dev.stage = 4) {P : Dev → List Host.Cell → Prop}
    (h : ∀ e, e = (List.range 8).foldl Dev.spares s.dev →
      P ({ e with dp := { e.dp with canaryOn := true, canaryMs := msIndex e.now, canaryAt := e.tm.cycle } }.setStage 5) []) :
    Yields .memoryStageDone s P := by
  refine yields_mem (show exec .memoryStageDone s = execMemoryStageDone s from rfl) ?_
  simp only [hlive, hstage, beq_self_eq_true, Bool.and_self, if_true]
  exact h _ rfl

/-- Settles O45: reset, supplies and each stage of boot do what their rows say. -/
theorem resetPowerAndBoot : Obligations.ResetPowerAndBoot := by
  refine ⟨fun s dom => ⟨fun hperst => ?_, fun hperst => ?_, fun hpwr hdom => ?_, fun hlive hpwr hnext hdue => ?_, ?_⟩,
    fun s table x hlive => ⟨fun hstage => ⟨fun hgood => ?_, fun hbad hother => ?_, fun hbad hother => ?_⟩, fun hstage hid hon htop hres => ?_,
      fun hstage hbad => ?_, fun hstage hup hB hS hSort hfree => ?_, fun hstage => ?_⟩⟩
  · refine gives_when (b := fun d => d.perst) (show exec .resetAssert s = execResetAssert s from rfl) hperst ?_
    refine ⟨rfl, rfl, rfl, rfl, rfl, rfl, rfl, s.dev.rg_inReset_hours, fun a ha => s.dev.rg_inReset_ne ha, rfl, rfl, rfl, rfl, rfl, fun k hk => ⟨rfl, ?_⟩, rfl⟩
    exact congrArg some ((congrArg (fld · 0 8) (s.dev.rg_inReset_ne (by unfold aSU_VDD aSU_HOURS; omega))).trans (fld_regReset_vdd hk))
  · exact gives_when (show exec .resetRelease s = execResetRelease s from rfl) (by rw [hperst]; rfl) rfl
  · refine gives_when (show exec .pwrGoodRise s = execPwrGoodRise s from rfl) (by rw [hpwr]; rfl) ?_
    rw [hdom]; rfl
  · refine gives_when (show exec (.powerDomainUp dom) s = execPowerDomainUp dom s from rfl)
      (by rw [hlive, hpwr, hnext, decide_eq_true (by omega), beq_self_eq_true]; rfl) ?_
    simp only [List.contains_iff_mem, List.mem_append, List.mem_cons, List.not_mem_nil, or_false]
  · exact gives_dev (show exec (.powerLoss false) s = execPowerLoss false s from rfl) ⟨rfl, rfl, rfl, rfl, rfl, rfl, rfl⟩
  · refine gives_when (show exec .romStageDone s = execRomStageDone s from rfl) (by rw [hlive, hstage]; rfl) ?_
    exact if_pos hgood
  · refine gives_when (show exec .romStageDone s = execRomStageDone s from rfl) (by rw [hlive, hstage]; rfl) ?_
    simp only [hbad, Bool.false_eq_true, if_false, hother, if_true]
  · refine gives_when (show exec .romStageDone s = execRomStageDone s from rfl) (by rw [hlive, hstage]; rfl) ?_
    simp only [hbad, Bool.false_eq_true, if_false, hother]
  · refine gives_when (show exec .firmwareStageDone s = execFirmwareStageDone s from rfl) (by rw [hlive, hstage]; rfl) ?_
    have hon' : (s.dev.setStage 2).bt.idOff = false := hon
    simp only [hid, if_true, hon', Bool.false_eq_true, if_false, htop, if_pos hres]
  · refine gives_when (show exec (.boardStageDone table) s = execBoardStageDone table s from rfl) (by rw [hlive, hstage]; rfl) ?_
    simp only [hbad, Bool.false_eq_true, if_false]
  · have hall : (romDomains ++ s.dev.unitDomains).all (fun k => s.dev.bt.domains.contains k) = true := by
      simpa only [List.all_eq_true, List.contains_iff_mem] using hup
    refine gives_when (show exec .unitsStageDone s = execUnitsStageDone s from rfl) (by rw [hlive, hstage, hall]; rfl) ?_
    simp only [hB, List.foldl_nil, Dev.foldl_applyUnits_eq hS hSort hfree]
  · refine yields_memoryStageDone hlive hstage fun e he => ⟨fun a => rfl, Dev.gf_sf_self _ _ _ _ _ (by decide), rfl, fun a ha hspare => ?_⟩
    refine (Dev.rg_sf_ne _ _ _ _ ha).trans (?_ : e.rg a = s.dev.rg a)
    rw [he]
    exact Dev.rg_foldl_spares _ s.dev fun k hk => hspare k (List.mem_range.mp hk)

/-! ## Firmware and attestation (R480, R482, R485, R486) -/

/-- ATTEST_SIGN takes the oldest ATTEST when a signature is due and the identity holds. -/
theorem gives_attestSign {s : State} {x : DescRef × Bytes} {rest : List (DescRef × Bytes)} {gw : List Bool} {P : Dev → Prop} (hlive : s.dev.live = true)
    (hdue : s.dev.signDue = true) (hlist : s.dev.bt.attests = x :: rest) (hid : s.dev.gb aBT_STAT 6 = false)
    (h : let d := { s.dev with bt := { s.dev.bt with attests := rest } }
      P (if s.dev.btIdx < s.dev.btRes then d.signReport x
        else match d.topSlot with
          | none => d.completeS x.1 stUNIT_FENCED
          | some t =>
            let r := d.reserveIdx d.btIdx t.2.gen 4 gw
            if r.2 then r.1.signReport x else ((r.1.sb aBT_STAT 6 true).security 4).completeS x.1 stUNIT_FENCED)) : Gives (.attestSign gw) s P := by
  refine gives_dev (show exec (.attestSign gw) s = execAttestSign gw s from rfl) ?_
  simp only [hlist, hlive, hdue, Bool.and_self, Dev.when_true]
  refine (congrArg P (if_neg (ne_true_of_eq_false hid))).mpr ?_
  exact h

/-- Settles O46: an update, RAISE and an ATTEST go as their judgement says. -/
theorem firmwareAndAttest : Obligations.FirmwareAndAttest := by
  refine fun s r image f d0 st u x rest gw => ⟨fun htake => ⟨fun hjudge => ?_, fun hjudge => ?_⟩, fun htake => ⟨fun hjudge => ?_, fun hst hjudge => ?_⟩,
    fun hlive hupdate => ?_, fun htake => ⟨fun hjudge => ?_, fun hjudge => ?_⟩,
    fun hlive hdue hlist hid => ⟨fun hidx => ?_, fun hidx htop => ?_, fun t hidx htop hres => ?_⟩⟩
  · refine gives_dev (show exec (.fwUpdate r image) s = execFwUpdate r image s from rfl) ?_
    simp only [htake, hjudge]
  · refine gives_dev (show exec (.fwUpdate r image) s = execFwUpdate r image s from rfl) ?_
    simp only [htake, hjudge, and_self]
  · refine gives_dev (show exec (.fwUpdateRaise r) s = execFwUpdateRaise r s from rfl) ?_
    simp only [htake, hjudge, if_true, Dev.completeS, Dev.bt_complete]
  · refine gives_dev (show exec (.fwUpdateRaise r) s = execFwUpdateRaise r s from rfl) ?_
    simp only [htake, hjudge, if_neg hst]
  · obtain ⟨ref, activate, img⟩ := u
    refine gives_dev (show exec .fwUpdateDone s = execFwUpdateDone s from rfl) ?_
    simp only [hupdate, hlive, Dev.when_true, Dev.completeS, Dev.bt_complete, Bool.and_eq_true, and_self]
  · refine gives_dev (show exec (.attest r) s = execAttest r s from rfl) ?_
    simp only [htake, hjudge]
  · refine gives_dev (show exec (.attest r) s = execAttest r s from rfl) ?_
    simp only [htake, hjudge]
  · exact gives_attestSign hlive hdue hlist hid (if_pos hidx)
  · refine gives_attestSign hlive hdue hlist hid ((if_neg (Nat.not_lt.mpr hidx)).trans ?_)
    rw [htop]
  · refine gives_attestSign hlive hdue hlist hid ((if_neg (Nat.not_lt.mpr hidx)).trans ?_)
    rw [htop]
    exact if_pos hres

end Sys2Proof.Machine
end

section
/-! PROOF. Writes that reach their register: O60. -/

namespace Sys2Proof.Machine

/-! ## What mirroring a change leaves (R429) -/

/-- The policers, the marks of changed sorter groups and every register but those that sending a packet moves are as before. -/
def Dev.TablesKept (d e : Dev) : Prop :=
  e.fb.spDirty = d.fb.spDirty ∧ e.fb.policers = d.fb.policers ∧
    ∀ a, a ≠ aTW_OPEN → a ≠ aLR_LOW → a ≠ aCNT_QUOTA_WAIT → e.rg a = d.rg a

theorem Dev.TablesKept.refl (d : Dev) : d.TablesKept d := ⟨rfl, rfl, fun _ _ _ _ => rfl⟩

theorem Dev.TablesKept.trans {d e f : Dev} (h : d.TablesKept e) (h1 : e.TablesKept f) : d.TablesKept f := by
  obtain ⟨hdirty, hpol, hrg⟩ := h
  obtain ⟨hdirty1, hpol1, hrg1⟩ := h1
  exact ⟨hdirty1.trans hdirty, hpol1.trans hpol, fun a ho hl hq => (hrg1 a ho hl hq).trans (hrg a ho hl hq)⟩

theorem Dev.tablesKept_wr (d : Dev) {b : Nat} (hb : b = aTW_OPEN ∨ b = aLR_LOW ∨ b = aCNT_QUOTA_WAIT) (v : W32) : d.TablesKept (d.wr b v) :=
  ⟨rfl, rfl, fun a ho hl hq => d.rg_wr_ne v (by rcases hb with rfl | rfl | rfl <;> assumption)⟩

theorem Dev.tablesKept_noteLow (d : Dev) : d.TablesKept d.noteLow := by
  unfold Dev.noteLow
  split
  · exact d.tablesKept_wr (.inr (.inl rfl)) _
  · exact .refl d

theorem Dev.tablesKept_chargeCells (d : Dev) (c : Charge) (n : Nat) : d.TablesKept (d.chargeCells c n) := by
  cases c <;> exact ⟨rfl, rfl, fun _ _ _ _ => rfl⟩

theorem Dev.tablesKept_takeCells (d : Dev) (n : Nat) : d.TablesKept (d.takeCells n).2 := ⟨rfl, rfl, fun _ _ _ _ => rfl⟩

theorem Dev.tablesKept_addPkt (d : Dev) (p : Pkt) (src : Option Nat) (t : W64) (replayed : Bool) (c : Charge) (place : Place) :
    d.TablesKept (d.addPkt p src t replayed c place) :=
  (d.tablesKept_takeCells p.cellCount).trans ((Dev.tablesKept_chargeCells _ c p.cellCount).trans
    (.trans ⟨rfl, rfl, fun _ _ _ _ => rfl⟩ (Dev.tablesKept_noteLow _)))

theorem Dev.tablesKept_queueAt (d : Dev) (id : Nat) {ports : List Nat} (hports : ports.isEmpty = false) (fence : List Nat) :
    d.TablesKept (d.queueAt id ports fence) := by
  unfold Dev.queueAt
  cases d.pkt? id with
  | none => exact .refl d
  | some b =>
    simp only [hports, Bool.false_eq_true, if_false]
    exact ⟨rfl, rfl, fun _ _ _ _ => rfl⟩

theorem Dev.tablesKept_unitQueue (d : Dev) (u : Nat) (p : Pkt) {ports : List Nat} (hports : ports.isEmpty = false) :
    d.TablesKept (d.unitQueue u p ports) := (d.tablesKept_addPkt ..).trans (Dev.tablesKept_queueAt _ _ hports _)

theorem Dev.tablesKept_originate (d : Dev) (u : Nat) (p : Pkt) (ports : List Nat) : d.TablesKept (d.originate u p ports) := by
  unfold Dev.originate
  extract_lets live sent
  split
  · exact .refl d
  · next hgo =>
    rw [not_or, Bool.not_eq_true] at hgo
    split
    · exact d.tablesKept_unitQueue _ _ hgo.1
    · unfold Dev.when
      split
      · exact .trans ⟨rfl, rfl, fun _ _ _ _ => rfl⟩ (Dev.tablesKept_wr _ (.inr (.inr rfl)) _)
      · exact ⟨rfl, rfl, fun _ _ _ _ => rfl⟩

/-- The packets of a change, sent one after another with the bytes that are still to follow. -/
theorem Dev.tablesKept_twSend (d : Dev) (num : Nat) (c : Change) : d.TablesKept (d.twSend num c) := by
  have hsend (xs : List (Bytes × Nat)) (e : Dev) (left : Nat) : e.TablesKept (xs.foldl (fun (s : Dev × Nat) x =>
      (s.1.originate 66 (mkPkt 0 1 0xE8 0 0 0 0 0 (s.2 - x.1.length) num x.1) [256], s.2 - x.1.length)) (e, left)).1 := by
    induction xs generalizing e left with
    | nil => exact .refl e
    | cons x xs ih => exact (e.tablesKept_originate _ _ _).trans (ih _ _)
  exact hsend _ d _

theorem Dev.tablesKept_mirror (d : Dev) (c : Change) : d.TablesKept (d.mirror c) := by
  unfold Dev.mirror
  split
  · exact (Dev.TablesKept.trans ⟨rfl, rfl, fun _ _ _ _ => rfl⟩ (Dev.tablesKept_wr _ (.inl rfl) _)).trans (Dev.tablesKept_twSend _ _ _)
  · exact .refl d

/-! ## Writes by the row of their form (R5, R490, R494 to R497) -/

/-- An engine whose list is good is enabled, whether or not it was before (R47, R161, R162). -/
theorem geCtrlEffect_enabled {g : Nat} (hg : g < 16) {v : W32} {d : Dev} (hon : bitAt v 0 = true)
    (hsum : ((d.glList g false (fld v 1 6 + 1)).map (fun e => e.1)).sum = (d.rg (aGE g + 0xC)).toNat) (hcyc : d.rg (aGE g + 0xC) ≠ 0)
    (hok : d.gateOk (d.glList g false (fld v 1 6 + 1)) = true) :
    (geCtrlEffect g v d).gb (aGE g) 0 = true ∧ (geCtrlEffect g v d).gf (aGE g) 1 6 = fld v 1 6 := by
  have hfit : ¬(((d.glList g false (fld v 1 6 + 1)).map (fun e => e.1)).sum ≠ (d.rg (aGE g + 0xC)).toNat ∨ d.rg (aGE g + 0xC) = 0) :=
    fun h => h.elim (fun hne => hne hsum) hcyc
  have hplain := And.intro ((Dev.enable_plainWrite hg v d).trans hon) (Dev.length_plainWrite hg v d)
  simp only [geCtrlEffect, hon, if_true, if_neg hfit, hok, Bool.not_true, Bool.false_eq_true, if_false]
  split
  · exact hplain
  · exact hplain

/-- A word of the shadow of a sorter's program is stored and marks its group (R112). -/
theorem spShadowEffect_stored {g w : Nat} {v : W32} {d : Dev} (hopen : d.shadowClosed = false) :
    (spShadowEffect g w v d).rg (aSP_SHADOW g + 4 * w) = (Dev.plainWrite (aSP_SHADOW g + 4 * w) v d).rg (aSP_SHADOW g + 4 * w) ∧
      g ∈ (spShadowEffect g w v d).fb.spDirty := by
  simp only [spShadowEffect, hopen, Bool.false_eq_true, if_false]
  obtain ⟨hdirty, -, hrg⟩ := Dev.tablesKept_mirror { Dev.plainWrite (aSP_SHADOW g + 4 * w) v d with fb := { (Dev.plainWrite (aSP_SHADOW g + 4 * w) v d).fb with
    spDirty := if (Dev.plainWrite (aSP_SHADOW g + 4 * w) v d).fb.spDirty.contains g then (Dev.plainWrite (aSP_SHADOW g + 4 * w) v d).fb.spDirty
      else g :: (Dev.plainWrite (aSP_SHADOW g + 4 * w) v d).fb.spDirty } } (.reg (aSP_SHADOW g + 4 * w) v)
  refine ⟨hrg _ (by unfold aSP_SHADOW aTW_OPEN; omega) (by unfold aSP_SHADOW aLR_LOW; omega) (by unfold aSP_SHADOW aCNT_QUOTA_WAIT; omega), ?_⟩
  rw [hdirty]
  dsimp only
  split
  · next h => exact List.contains_iff_mem.mp h
  · exact List.mem_cons_self ..

/-- The policer that its CTRL word commits, with full buckets (R154). -/
def Dev.policerOf (d : Dev) (i : Nat) (v : W32) : Policer :=
  ⟨(d.rg (aPOL i)).toNat, (d.rg (aPOL i + 4)).toNat, d.gf (aPOL i + 8) 0 24, fld v 0 24, bitAt v 24, bitAt v 25, bitAt v 26,
    d.gf (aPOL i + 8) 0 24 * 65536, fld v 0 24 * 65536, d.now⟩

theorem policer_polCommitEffect {i : Nat} {v : W32} {d : Dev} (hrate : (d.rg (aPOL i)).toNat ≤ (d.rg (aPOL i + 4)).toNat)
    (hcbs : d.gf (aPOL i + 8) 0 24 ≠ 0xFFFFFF) (hpbs : fld v 0 24 ≠ 0xFFFFFF) (hres : fld v 27 5 = 0) :
    (polCommitEffect i v d).policer i = d.policerOf i v := by
  obtain ⟨-, hpol, -⟩ := Dev.tablesKept_mirror { d.wr (aPOL i + 0xC) v with
    fb := { d.fb with policers := mput Policer.init i (d.policerOf i v) d.fb.policers } } (.reg (aPOL i + 0xC) v)
  simp only [polCommitEffect]
  rw [if_neg (by omega)]
  exact (congrArg (mget Policer.init i) hpol).trans (mget_mput_self ..)

theorem regRow_aTW_CFG : regRow aTW_CFG = some (r1 0x90000 0 0xffffff03 0 0x401000) := by decide

/-- A member without a role that is given one joins (R424). -/
theorem twCfgEffect_joins {v : W32} {d : Dev} (hstate : d.twState = 0) (hrole : d.twRole = 0) (hnew : fld v 0 2 = 1 ∨ fld v 0 2 = 2) :
    (twCfgEffect v d).twRole = fld v 0 2 ∧ (twCfgEffect v d).twState = 1 ∧
      (twCfgEffect v d).tw = { TwinSt.init with batch := d.tw.batch, promote := d.tw.promote } := by
  have h3 : fld v 0 2 ≠ 3 := by omega
  have h0 : fld v 0 2 ≠ 0 := by omega
  have hrole' : (Dev.plainWrite aTW_CFG v d).gf aTW_CFG 0 2 = fld v 0 2 := Dev.gf_plainWrite regRow_aTW_CFG rfl (by decide) v d
  have hstate' : (((Dev.plainWrite aTW_CFG v d).wr aTW_OPEN 0).sb aTW_STAT 7 false).twState = 0 := by
    have hrg : ((Dev.plainWrite aTW_CFG v d).wr aTW_OPEN 0).rg aTW_STAT = d.rg aTW_STAT :=
      (Dev.rg_wr_ne _ _ (by decide)).trans ((plainWrite_same aTW_CFG v d).2 _ (by decide))
    exact (Dev.gf_sf_other _ _ _ _ _ _ _ (by decide) (by decide)).trans ((congrArg (fld · 0 3) hrg).trans hstate)
  have hidle : ¬ (fld v 0 2 ≠ 0 ∧ !(d.twState == 0 || d.twState == 1 || d.twState == 6)) := by simp [hstate]
  have hjoin : twCfgEffect v d = ({ ((Dev.plainWrite aTW_CFG v d).wr aTW_OPEN 0).sb aTW_STAT 7 false with
      tw := { TwinSt.init with batch := d.tw.batch, promote := d.tw.promote } }).setTw 1 := by
    simp only [twCfgEffect, if_neg h3, if_neg hidle, hrole, if_neg h0]
    refine if_neg fun h6 => ?_
    exact absurd (hstate'.symm.trans h6) (by decide)
  rw [hjoin]
  refine ⟨?_, Dev.gf_sf_self _ _ _ _ _ (by decide), rfl⟩
  refine (Dev.gf_sf_ne _ _ _ _ _ _ (by decide)).trans (Eq.trans ?_ hrole')
  exact (Dev.gf_sf_ne _ _ _ _ _ _ (by decide)).trans (Dev.gf_wr_ne _ _ _ _ (by decide))

/-- EN of HI_CFG stands once the doorbell base is set and the device in service (R380). -/
theorem hiCfgEffect_on {v : W32} {d : Dev} (hon : bitAt v 0 = true) (hbase : d.rg aDB_BASE_LO ≠ 0 ∨ d.rg aDB_BASE_HI ≠ 0) (hstage : d.stage = 5) :
    (hiCfgEffect v d).gb aHI_CFG 0 = true := by
  have hgood : ¬ ((d.rg aDB_BASE_LO = 0 ∧ d.rg aDB_BASE_HI = 0) ∨ (d.stage ≠ 5 ∧ d.stage ≠ 6)) := by
    rintro (⟨hlo, hhi⟩ | ⟨h5, -⟩)
    · exact hbase.elim (absurd hlo) (absurd hhi)
    · exact h5 hstage
  have hset : (d.sb aHI_CFG 0 true).gb aHI_CFG 0 = true := d.gb_sb_self _ _ _ (by decide)
  simp only [hiCfgEffect, hon, Bool.not_true, Bool.false_eq_true, if_false, if_neg hgood]
  split
  · exact hset
  · split
    · exact hset
    · exact (congrArg (bitAt · 0) (Dev.rg_sf_ne _ _ _ _ (by decide))).trans hset

/-- Where a write reaches its register, a form that writes it has the effect of its row. -/
theorem gives_open {i : Instr} {s : State} {a : Nat} {v : W32} {eff : W32 → Dev → Dev} {P : Dev → Prop}
    (h : exec i s = devStep (fun d => d.barWrite a v eff) s) (hopen : s.dev.Open a) (hp : P (eff v s.dev)) : Gives i s P :=
  gives_bar h (hopen.sees v) hp

/-- The same for a form whose operands the row holds to a range. -/
theorem gives_openWhen {i : Instr} {s : State} {a : Nat} {v : W32} {b : Bool} {eff : W32 → Dev → Dev} {P : Dev → Prop}
    (h : exec i s = devStep (fun d => d.when b (fun d => d.barWrite a v eff)) s) (hb : b = true) (hopen : s.dev.Open a) (hp : P (eff v s.dev)) :
    Gives i s P :=
  gives_whenBar h hb (hopen.sees v) hp

/-- A write of BAR2 goes to the table of interrupt messages (R379). -/
theorem exec_registerWrite_bar2 {a : Nat} (halign : a % 4 = 0) (v : W32) (s : State) :
    exec (.registerWrite (0x10000000 + a) v) s = devStep (fun d => d.when d.live (fun d => d.bar2Write a v)) s := by
  have haligned : ((0x10000000 + a) % 4 == 0) = true := beq_iff_eq.mpr (by omega)
  show execRegisterWrite _ v s = _
  simp only [execRegisterWrite, if_pos (Nat.le_add_right _ _), haligned, Bool.and_true, Nat.add_sub_cancel_left]

/-- Settles O60: each form that writes a register has its row's effect where the write is open and the value admitted. -/
theorem registerWritesComplete : Obligations.RegisterWritesComplete := by
  intro s v g p i e w
  obtain ⟨hstep, -, hrateLo, hrateHi, -, -, -, hctrl, hres, hstat⟩ := plantTimeWritesAct s v v s.dev
  refine ⟨fun hcmps hopen => ?_, fun hsrc hopen => ?_, fun hfree hopen => ?_, fun hsel hopen => ?_, fun hsum hheld hopen => ?_, fun hclr hopen => ?_,
    fun hg hon hsum hcyc hok hopen => ?_, fun hg hopen => ?_, fun hg hopen => ?_, fun hact hl hport hlo hhi hsort hopen => ?_, fun hact hp hopen => ?_,
    fun hshadow he hw hopen => ?_, fun hshadow hg hw hopen => ?_, fun hi hrate hcbs hpbs hzero hopen => ?_,
    fun hp hoff hq => ⟨fun hmin hf => ⟨fun hfmin hopen => ?_, fun hopen => ?_⟩, fun hopen => ?_⟩, fun hi hle hmin hmax hopen => ?_,
    fun hp hi hpos hmax hopen => ?_, fun hi hmul hmin hmax hopen => ?_, fun hp hbind hopen => ?_, fun hi hopen => ?_, fun hr hr1 hw hops hopen => ?_,
    fun hcompat hctx hopen => ?_, fun hrun hup hctx => ⟨fun hoff hopen => ?_, fun hfit hopen => ?_, fun hpos hmax hopen => ?_⟩,
    fun hi hops hsets hle hopen => ?_, fun hi hoff hon hset hmin hmax hphase hroom hopen => ?_, fun j a hmem hi hok hopen => ?_,
    fun hstate hrole hnew hopen => ?_, fun hact hfenced hopen => ?_, fun hc hpend hseq hopen => ?_, fun hopen => ?_, fun hon hbase hstage hopen => ?_,
    fun hone => ⟨fun j a first n hmem hopen => ?_, fun hopen => ?_, fun hopen => ?_⟩,
    fun hr hopen => ⟨fun hoff hok hon _ => ?_, fun hrun hok hclear => ?_, fun hdrain hok habort => ?_⟩, fun a halign hplain hopen => ?_,
    fun a halign hlive => ?_⟩
  · obtain ⟨d, hexec, hd, hnow, -, hrg⟩ := hstep (hopen.sees v) hcmps
    exact ⟨d, hexec, hnow, congrArg (fun d => d.tm.leftUnset) hd, hrg⟩
  · exact gives_open rfl hopen ((ptRateLoEffect_eq v s.dev).trans (if_neg hsrc))
  · obtain ⟨d, hexec, hd⟩ := hrateHi (hopen.sees v) hfree
    exact ⟨d, hexec, congrArg (fun d => d.tm.rate) hd, by rw [hd]⟩
  · obtain ⟨d, hexec, hsame, hsrc, hpin, -⟩ := hctrl (hopen.sees v) hsel
    exact ⟨d, hexec, hsrc, hpin, hsame⟩
  · exact gives_open rfl hopen ((ptCmpResEffect_eq v s.dev).trans (if_neg (not_or.mpr ⟨Nat.not_lt.mpr hsum, Nat.not_lt.mpr hheld⟩)))
  · exact gives_open rfl hopen (if_pos hclr)
  · exact gives_openWhen rfl (decide_eq_true hg) hopen (geCtrlEffect_enabled hg hon hsum hcyc hok)
  · obtain ⟨-, -, -, -, -, hswap⟩ := gateEnginesRun s g v v s.dev hg
    obtain ⟨d, hexec, hword, harmed, -⟩ := hswap (hopen.sees v)
    exact ⟨d, hexec, hword, harmed⟩
  · exact gives_openWhen rfl (decide_eq_true hg) hopen rfl
  · exact gives_open rfl hopen (congrArg Dev.afterFence (lnUnfenceEffect_of_started hact hl hport (by omega) (by omega) hsort))
  · exact gives_open rfl hopen (if_pos (by rw [hact, decide_eq_true hp]; rfl))
  · exact gives_openWhen rfl (by simp [he, hw]) hopen (if_neg (ne_true_of_eq_false hshadow))
  · exact gives_openWhen rfl (by simp [hg, hw]) hopen (spShadowEffect_stored hshadow)
  · exact gives_openWhen rfl (decide_eq_true hi) hopen (policer_polCommitEffect hrate hcbs hpbs hzero)
  · exact gives_openWhen rfl (decide_eq_true hp) hopen (if_neg (by omega))
  · exact gives_openWhen rfl (decide_eq_true hp) hopen (if_neg (by omega))
  · exact gives_openWhen rfl (decide_eq_true hp) hopen (if_neg (by omega))
  · exact gives_openWhen rfl (decide_eq_true hi) hopen (if_neg (by omega))
  · exact gives_openWhen rfl (by simp [hp, hi]) hopen (if_neg (by omega))
  · exact gives_openWhen rfl (decide_eq_true hi) hopen (if_neg (by omega))
  · refine gives_openWhen rfl (decide_eq_true hp) hopen (if_neg ?_)
    rcases hbind with hoff | ⟨hen, hunbound⟩
    · simp [hoff]
    · simp [hen, hunbound]
  · exact gives_openWhen rfl (decide_eq_true hi) hopen (fdMapEffect_eq hi v s.dev)
  · refine gives_openWhen rfl (by simp [hr1, hw]) hopen ?_
    simp only [rcpEffect, hops, List.any_nil, Bool.false_eq_true, if_false, if_neg (Nat.not_lt.mpr hr)]
  · exact gives_open rfl hopen (if_neg (by rw [hcompat, hctx]; decide))
  · exact gives_open rfl hopen (asProfileEffect_idle hrun hup hctx hoff)
  · exact gives_open rfl hopen (asResvEffect_idle hrun hup hfit)
  · exact gives_open rfl hopen (repCompatEffect_idle hrun hctx hpos hmax)
  · refine gives_openWhen rfl (decide_eq_true hi) hopen ?_
    rw [upPoolEffect_stored hops hsets hle, Dev.gf_wr_ne _ _ _ _ (by unfold aUP_FRAMES_FREE aUP_POOL; omega),
      Dev.gf_wr_ne _ _ _ _ (by unfold aUP_POOL_FREE aUP_POOL; omega)]
    exact Dev.gf_plainWrite (regRow_aUP_POOL hi) rfl (by decide) v s.dev
  · exact gives_openWhen rfl (decide_eq_true hi) hopen (memRefEffect_enable hoff hon hset hmin hmax hphase hroom)
  · have hform : (j = .memPartWrite i v ∧ a = aMEM_PART i ∧ i < 4) ∨ (j = .memWsWrite v ∧ a = aMEM_WS) := by
      simpa [Nat.mod_eq_of_lt hi, hi] using hmem
    obtain ⟨d, m, hexec, hzero, hloss, hword, -⟩ := (refreshAndPartition.2 s a i j v v s.dev (hopen.sees v) hform).1 hok
    exact ⟨d, m, hexec, hzero, hloss, hword⟩
  · exact gives_open rfl hopen (twCfgEffect_joins hstate hrole hnew)
  · exact gives_open rfl hopen (if_pos (by rw [hact, hfenced]; rfl))
  · refine gives_open rfl hopen ?_
    rw [dpAckEffect_of_match rfl hc hpend hseq]
    exact ⟨Dev.gb_sb_self _ _ _ _ (by omega), mget_mput_self none _ none _⟩
  · exact gives_open rfl hopen rfl
  · exact gives_open rfl hopen (hiCfgEffect_on hon hbase hstage)
  · obtain ⟨hexec, -, -⟩ := exec_of_clear (v := v) (i := j) (a := a) (first := first) (step := 4) (n := n) (by simpa using hmem)
    exact gives_open (hexec s) hopen (if_pos hone)
  · exact gives_open rfl hopen (if_pos hone)
  · exact gives_open rfl hopen (if_pos hone)
  · refine yields_ringCtrl hr (hopen.sees v) (.inl rfl) ?_
    rw [ringCtrlEffect_off s.mem hok hoff, if_pos hon]
    exact ⟨rfl, rfl⟩
  · refine yields_ringCtrl hr (hopen.sees v) (.inr (.inl rfl)) ?_
    rw [ringCtrlEffect_drain s.mem hok hrun hclear]
    exact ⟨rfl, rfl⟩
  · refine yields_ringCtrl hr (hopen.sees v) (.inr (.inr rfl)) ?_
    exact (ringCtrlEffect_draining s.mem hok hdrain).trans (if_pos habort)
  · have hrest : (a < 0x20000 ∧ a ≠ 0xC) ∨ 0xC00020 ≤ a ∨ (0x400000 ≤ a ∧ a < 0x500000 ∧ a ≠ aHI_CFG ∧ a ≠ 0x40002C) :=
      hplain.imp_right (Or.imp_left And.left)
    refine gives_open (exec_registerWrite_eq s halign (by omega) (by omega) ?_ ?_) hopen (regEffect_plain v s.dev hrest)
    · unfold aMEM_WS
      omega
    · unfold aMEM_PART
      omega
  · exact gives_when (exec_registerWrite_bar2 halign v s) hlive rfl

end Sys2Proof.Machine
end
